-- ==== Sys2Proof/Word.lean ====
section
/-! DEFINITION. The word types of the TC6408 and the ranges of its identifiers (00_scope.md, Identifiers). -/

namespace Sys2Proof

/-- One byte of a frame, a body or a field (R178). -/
abbrev Byte := BitVec 8

/-- A line, 0 to 7. -/
abbrev LineId := Fin 8

/-- A station, 0 to 63. -/
abbrev StationId := Fin 64

/-- A matrix point, 0 to 255: drive × 16 + sense. -/
abbrev PointId := Fin 256

/-- A count input, CI0 to CI15. -/
abbrev InputId := Fin 16

/-- A drive line of the matrix, DRV0 to DRV15. -/
abbrev DriveId := Fin 16

/-- A slot of the 1 ms sampler frame, 0 to 31. -/
abbrev SlotId := Fin 32

/-- A cause code; 0 stands for none (00_scope.md, Identifiers). -/
abbrev CauseCode := BitVec 8

end Sys2Proof
end

