-- ==== Sys2Proof/Config.lean ====
section
/-! DEFINITION. What the part fixes (capacities, limits, defaults) and the free values: constants
with no body, standing for what the manual leaves unstated. -/

namespace Sys2Proof.Config

/-- A byte of a reply whose value the manual does not state: the position or the stall timeout of a
station that has none (R49, R50, R179, R180). `site` names the field, `count` is the interval
counter at the reply. Nothing constrains it (assumption 6). -/
opaque unstatedByte : Nat → Nat → Byte

/-- What a field of `width` bytes shows when the value to report does not fit it (a memory older
than 2^32 cs, a planned time longer than 2^32 cs): the manual does not say (assumption 7). -/
opaque overflowField : Nat → Nat → Nat

/-- Whether an interrupted settings write had reached an item of the image: the row of the item in the
table of R168, the number of its object, and the interval counter at the cold start. The manual says
only that part of the new copy and part of the old is there (R171; assumption 25). -/
opaque itemWritten : Nat → Nat → Nat → Bool

/-- What nonvolatile memory holds where the manual says only that no check agrees with it: the items
of an erased image region that an interrupted write did not reach (R171), and the place of an entry
whose overwriting was interrupted (R151; assumption 25). `count` is the interval counter at the cold
start; `known` only shows that the type has a value. -/
opaque leftover {α : Type} (known : Inhabited α) (count : Nat) : α

/-- By how much the check left by an interrupted write is off, less 1 and modulo 65,535 (R151, R171;
assumption 25). -/
opaque checkGap : Nat → Nat

/-- Journal capacity (R95). -/
def journalCapacity : Nat := 192

/-- Queue of qualification windows per input (R28). -/
def windowCapacity : Nat := 8

/-- Members of a line (R48). -/
def memberCapacity : Nat := 12

/-- Contributors of a record (R81, R82). -/
def contributorCapacity : Nat := 4

/-- Stored archive entries per line (R151). -/
def archiveCapacity : Nat := 8

/-- Where 32-bit counts stop (R62, R99, R117): 2^32 − 1. -/
def countLimit : Nat := 4294967295

/-- Modulus of the 48-bit interval counter and hall clock (R139, R140): 2^48. -/
def clockModulus : Nat := 281474976710656

/-- Centiseconds in a day (R144). -/
def dayLength : Nat := 8640000

/-- The shift length limit in cs (R146). -/
def shiftLimit : Nat := 267840000

/-- Units of the ideal remainder per container (R131). -/
def idealUnit : Nat := 360000

/-- Life of an armed report in cs (R57). -/
def armedLife : Nat := 300

/-- Slots of 31.25 µs in one centisecond. -/
def slotsPerCs : Nat := 320

/-- Slots of 31.25 µs in one millisecond (R19). -/
def slotsPerMs : Nat := 32

/-- Longest body of a frame (R156). -/
def bodyLimit : Nat := 240

end Sys2Proof.Config
end

