-- ==== Sys2Proof/Syntax.lean ====
section
/-! DEFINITION. The commands of the block: one constructor per row of spec/opcode_table.json.

Requests carry the fields of their bodies as the link carries them (R179), so that a value out of
range or an enumeration with no entry can be sent and is judged by the block, not by the type.
Events carry what the pins or the timers supply. -/

namespace Sys2Proof

/-- A field announced by a presence byte (R178): 0 is absent, any other value is read as present. -/
structure Carried (α : Type) where
  presence : Byte
  value : α
deriving DecidableEq, Repr

/-- The key of a stoppage record as the link carries it: line, shift serial, stoppage number (R179). -/
structure Key where
  line : Byte
  serial : BitVec 32
  number : BitVec 32
deriving DecidableEq, Repr

/-- Offset and width of a qualification, in ms, as the link carries them. -/
structure QualField where
  offset : BitVec 16
  width : BitVec 16
deriving DecidableEq, Repr

/-- The body of DEFINE-STATION (R179). -/
structure StationField where
  station : Byte
  defined : Byte
  line : Byte
  position : Byte
  run : Carried Byte
  fault : Carried Byte
  block : Carried Byte
  starve : Carried Byte
  pace : Carried Byte
  stall : BitVec 16
deriving DecidableEq, Repr

/-- The commands: link events, the requests of R163 with their bodies (R179), and the events of
acquisition, timers, archive and power. -/
inductive Instr where
  -- the message link
  | frameComplete (check2 : Byte)
  | frameGapTimeout
  | replyStart
  | replyComplete
  -- the requests
  | identify
  | readAlerts
  | setClock (broadcast : Bool) (hallTime : BitVec 48)
  | readClock
  | setSchedule (values : List (BitVec 32))
  | defineStation (body : StationField)
  | defineLine (line : Byte) (constraint : Byte) (output : Carried Byte) (rejects : List Byte)
  | setPointMode (point : Byte) (polarity : Byte) (debounce : Byte) (mode : Byte) (limit : Byte)
  | setCountInput (input : Byte) (edge : Byte) (debounce : Byte) (limit : Byte)
      (qual : Carried QualField)
  | setSlots (entries : List Byte)
  | setCause (code : Byte) (defined : Byte) (category : Byte) (scope : Carried Byte)
  | setLineTimers (line : Byte) (threshold : BitVec 16) (lookback : BitVec 16)
      (deadline : BitVec 16)
  | setMonitor (window : Byte)
  | storeSettings
  | recallSettings
  | setGuard (mode : Byte)
  | enableLine (line : Byte)
  | disableLine (line : Byte)
  | closeShift (line : Byte)
  | setRate (line : Byte) (rate : BitVec 32)
  | planBegin (line : Byte) (cause : Byte) (expected : Carried (BitVec 32))
  | planEnd (line : Byte)
  | stationFault (station : Byte) (cause : Byte)
  | classify (key : Key) (cause : Byte)
  | holdRecord (key : Key)
  | releaseRecord (key : Key)
  | fetchRecords (count : Byte)
  | readLine (line : Byte)
  | readStation (station : Byte)
  | readPoints (first : Byte) (count : Byte)
  | readCountInput (input : Byte)
  | readTally (line : Byte)
  | readStationTally (station : Byte)
  | readOpen (line : Byte)
  | readJournalStatus
  | readArchive (line : Byte) (depth : Byte) (part : Byte)
  | readCause (code : Byte)
  -- acquisition
  /-- A drive line is read: bit j of `sense` is set when the point of sense line j conducts. -/
  | matrixScan (drive : DriveId) (sense : BitVec 16)
  | chatterWindowEnd
  | slotTableInstall
  /-- The slot begins and the input it names reads ACTIVE or not. -/
  | countSample (slot : SlotId) (active : Bool)
  | windowClose (input : InputId)
  -- timers
  | stallTimerExpiry (station : StationId)
  | armedReportExpiry (station : StationId)
  | thresholdExpiry (line : LineId)
  | planOverrun (line : LineId)
  | deadlineExpiry (key : Key)
  | boundaryReached
  | shiftLengthLimit (line : LineId)
  -- archive, power and starts
  | archiveWriteComplete
  | settingsWriteComplete
  | powerFail
  | resetAssert
  | powerReturn
  | resetRelease
  | warmStart
  | coldStart
  /-- A character arrives on RXD: its byte, and whether its stop bit was sampled high. -/
  | characterReceived (byte : Byte) (stopGood : Bool)
deriving DecidableEq, Repr

end Sys2Proof
end

