-- ==== Sys2Proof/WellFormed.lean ====
section
/-! DEFINITION. When a command is one that the link can carry (R162 check 2, R178, R179). -/

namespace Sys2Proof

/-- A field whose presence byte is 0 is omitted from the body, so it carries no value (R178). -/
def Carried.canonical {α : Type} [DecidableEq α] (zero : α) (c : Carried α) : Bool :=
  c.presence ≠ 0 || c.value = zero

/-- The length conditions of R162 check 2 on the bodies that carry a list, and the omission of
absent fields (R178). Every other command is well formed: its fields are all of fixed width. -/
def Instr.wellFormed : Instr → Bool
  | .setSchedule values => values.length ≤ 4
  | .defineStation b =>
    b.run.canonical 0 && b.fault.canonical 0 && b.block.canonical 0 && b.starve.canonical 0
      && b.pace.canonical 0
  | .defineLine _ _ output rejects => output.canonical 0 && rejects.length ≤ 2
  | .setCountInput _ _ _ _ qual => qual.canonical ⟨0, 0⟩
  | .setSlots entries => entries.length = 32
  | .setCause _ _ _ scope => scope.canonical 0
  | .planBegin _ _ expected => expected.canonical 0
  | .frameComplete _ | .frameGapTimeout | .replyStart | .replyComplete | .identify | .readAlerts
  | .setClock _ _ | .readClock | .setPointMode _ _ _ _ _ | .setLineTimers _ _ _ _ | .setMonitor _
  | .storeSettings | .recallSettings | .setGuard _ | .enableLine _ | .disableLine _
  | .closeShift _ | .setRate _ _ | .planEnd _ | .stationFault _ _ | .classify _ _
  | .holdRecord _ | .releaseRecord _ | .fetchRecords _ | .readLine _ | .readStation _
  | .readPoints _ _ | .readCountInput _ | .readTally _ | .readStationTally _ | .readOpen _
  | .readJournalStatus | .readArchive _ _ _ | .readCause _ | .matrixScan _ _
  | .chatterWindowEnd | .slotTableInstall | .countSample _ _ | .windowClose _
  | .stallTimerExpiry _ | .armedReportExpiry _ | .thresholdExpiry _ | .planOverrun _
  | .deadlineExpiry _ | .boundaryReached | .shiftLengthLimit _ | .archiveWriteComplete
  | .settingsWriteComplete | .powerFail | .resetAssert | .powerReturn | .resetRelease
  | .warmStart | .coldStart | .characterReceived _ _ => true

end Sys2Proof
end

