-- ==== Sys2Proof/Decode.lean ====
section
/-! DEFINITION. The words the table spells (none: no row gives bits), and the bodies of requests on
the link: kind codes (R163), the reading of a body into a command, and the body of a command (R178,
R179). The reading is what FRAME_COMPLETE uses; it fails exactly when the body's length is not the
one the kind requires (R162 check 2). -/

namespace Sys2Proof

/-- The request kinds of R163. -/
inductive RequestKind where
  | identify | readAlerts | setClock | readClock | setSchedule | defineStation | defineLine
  | setPointMode | setCountInput | setSlots | setCause | setLineTimers | setMonitor
  | storeSettings | recallSettings | setGuard | enableLine | disableLine | closeShift | setRate
  | planBegin | planEnd | stationFault | classify | holdRecord | releaseRecord | fetchRecords
  | readLine | readStation | readPoints | readCountInput | readTally | readStationTally
  | readOpen | readJournalStatus | readArchive | readCause
deriving DecidableEq, Repr

/-- Every request kind, in the order of R163. -/
def RequestKind.all : List RequestKind := [
  .identify, .readAlerts, .setClock, .readClock, .setSchedule, .defineStation, .defineLine,
  .setPointMode, .setCountInput, .setSlots, .setCause, .setLineTimers, .setMonitor,
  .storeSettings, .recallSettings, .setGuard, .enableLine, .disableLine, .closeShift, .setRate,
  .planBegin, .planEnd, .stationFault, .classify, .holdRecord, .releaseRecord, .fetchRecords,
  .readLine, .readStation, .readPoints, .readCountInput, .readTally, .readStationTally,
  .readOpen, .readJournalStatus, .readArchive, .readCause]

/-- The kind code of a request (R163). -/
def RequestKind.code : RequestKind → Byte
  | .identify => 0x01
  | .readAlerts => 0x02
  | .setClock => 0x10
  | .readClock => 0x11
  | .setSchedule => 0x12
  | .defineStation => 0x20
  | .defineLine => 0x21
  | .setPointMode => 0x22
  | .setCountInput => 0x23
  | .setSlots => 0x24
  | .setCause => 0x25
  | .setLineTimers => 0x26
  | .setMonitor => 0x27
  | .storeSettings => 0x28
  | .recallSettings => 0x29
  | .setGuard => 0x2A
  | .enableLine => 0x40
  | .disableLine => 0x41
  | .closeShift => 0x42
  | .setRate => 0x43
  | .planBegin => 0x44
  | .planEnd => 0x45
  | .stationFault => 0x46
  | .classify => 0x47
  | .holdRecord => 0x48
  | .releaseRecord => 0x49
  | .fetchRecords => 0x4A
  | .readLine => 0x60
  | .readStation => 0x61
  | .readPoints => 0x62
  | .readCountInput => 0x63
  | .readTally => 0x64
  | .readStationTally => 0x65
  | .readOpen => 0x66
  | .readJournalStatus => 0x67
  | .readArchive => 0x68
  | .readCause => 0x69

/-- The kinds marked guarded in R163. -/
def RequestKind.guarded : RequestKind → Bool
  | .setSchedule | .defineStation | .defineLine | .setPointMode | .setCountInput | .setSlots
  | .setCause | .setLineTimers | .setMonitor | .storeSettings | .recallSettings | .setGuard => true
  | .identify | .readAlerts | .setClock | .readClock | .enableLine | .disableLine | .closeShift
  | .setRate | .planBegin | .planEnd | .stationFault | .classify | .holdRecord | .releaseRecord
  | .fetchRecords | .readLine | .readStation | .readPoints | .readCountInput | .readTally
  | .readStationTally | .readOpen | .readJournalStatus | .readArchive | .readCause => false

/-- The request kind of a kind byte, if it has one (R163). -/
def RequestKind.ofByte (b : Byte) : Option RequestKind :=
  RequestKind.all.find? fun k => k.code == b

/-- The request kind of a command; none for an event. -/
def Instr.request? : Instr → Option RequestKind
  | .identify => some .identify
  | .readAlerts => some .readAlerts
  | .setClock _ _ => some .setClock
  | .readClock => some .readClock
  | .setSchedule _ => some .setSchedule
  | .defineStation _ => some .defineStation
  | .defineLine _ _ _ _ => some .defineLine
  | .setPointMode _ _ _ _ _ => some .setPointMode
  | .setCountInput _ _ _ _ _ => some .setCountInput
  | .setSlots _ => some .setSlots
  | .setCause _ _ _ _ => some .setCause
  | .setLineTimers _ _ _ _ => some .setLineTimers
  | .setMonitor _ => some .setMonitor
  | .storeSettings => some .storeSettings
  | .recallSettings => some .recallSettings
  | .setGuard _ => some .setGuard
  | .enableLine _ => some .enableLine
  | .disableLine _ => some .disableLine
  | .closeShift _ => some .closeShift
  | .setRate _ _ => some .setRate
  | .planBegin _ _ _ => some .planBegin
  | .planEnd _ => some .planEnd
  | .stationFault _ _ => some .stationFault
  | .classify _ _ => some .classify
  | .holdRecord _ => some .holdRecord
  | .releaseRecord _ => some .releaseRecord
  | .fetchRecords _ => some .fetchRecords
  | .readLine _ => some .readLine
  | .readStation _ => some .readStation
  | .readPoints _ _ => some .readPoints
  | .readCountInput _ => some .readCountInput
  | .readTally _ => some .readTally
  | .readStationTally _ => some .readStationTally
  | .readOpen _ => some .readOpen
  | .readJournalStatus => some .readJournalStatus
  | .readArchive _ _ _ => some .readArchive
  | .readCause _ => some .readCause
  | .frameComplete _ | .frameGapTimeout | .replyStart | .replyComplete | .matrixScan _ _
  | .chatterWindowEnd | .slotTableInstall | .countSample _ _ | .windowClose _
  | .stallTimerExpiry _ | .armedReportExpiry _ | .thresholdExpiry _ | .planOverrun _
  | .deadlineExpiry _ | .boundaryReached | .shiftLengthLimit _ | .archiveWriteComplete
  | .settingsWriteComplete | .powerFail | .resetAssert | .powerReturn | .resetRelease
  | .warmStart | .coldStart | .characterReceived _ _ => none

/-! ### Writing bodies (R178: most significant byte first) -/

/-- The two bytes of a 16-bit field. -/
def bytes16 (x : BitVec 16) : List Byte := [x.extractLsb' 8 8, x.extractLsb' 0 8]

/-- The four bytes of a 32-bit field. -/
def bytes32 (x : BitVec 32) : List Byte :=
  [x.extractLsb' 24 8, x.extractLsb' 16 8, x.extractLsb' 8 8, x.extractLsb' 0 8]

/-- The six bytes of a 48-bit field. -/
def bytes48 (x : BitVec 48) : List Byte :=
  [x.extractLsb' 40 8, x.extractLsb' 32 8, x.extractLsb' 24 8, x.extractLsb' 16 8,
    x.extractLsb' 8 8, x.extractLsb' 0 8]

/-- A presence byte and, unless it is 0, the field (R178). -/
def Carried.bytes {α : Type} (value : α → List Byte) (c : Carried α) : List Byte :=
  if c.presence = 0 then [0] else c.presence :: value c.value

/-- The nine bytes of a key (R179). -/
def Key.bytes (k : Key) : List Byte := k.line :: (bytes32 k.serial ++ bytes32 k.number)

/-- The body of DEFINE-STATION (R179). -/
def StationField.bytes (b : StationField) : List Byte :=
  [b.station, b.defined, b.line, b.position] ++ b.run.bytes (fun v => [v])
    ++ b.fault.bytes (fun v => [v]) ++ b.block.bytes (fun v => [v])
    ++ b.starve.bytes (fun v => [v]) ++ b.pace.bytes (fun v => [v]) ++ bytes16 b.stall

/-- The body of a request (R179); events have none. -/
def Instr.body : Instr → List Byte
  | .setClock _ t => bytes48 t
  | .setSchedule values => BitVec.ofNat 8 values.length :: values.flatMap bytes32
  | .defineStation b => b.bytes
  | .defineLine line constraint output rejects =>
    [line, constraint] ++ output.bytes (fun v => [v]) ++ BitVec.ofNat 8 rejects.length :: rejects
  | .setPointMode point polarity debounce mode limit => [point, polarity, debounce, mode, limit]
  | .setCountInput input edge debounce limit qual =>
    [input, edge, debounce, limit] ++ qual.bytes (fun q => bytes16 q.offset ++ bytes16 q.width)
  | .setSlots entries => entries
  | .setCause code defined category scope =>
    [code, defined, category] ++ scope.bytes (fun v => [v])
  | .setLineTimers line threshold lookback deadline =>
    line :: (bytes16 threshold ++ bytes16 lookback ++ bytes16 deadline)
  | .setMonitor window => [window]
  | .setGuard mode => [mode]
  | .enableLine line | .disableLine line | .closeShift line | .planEnd line | .readLine line
  | .readTally line | .readOpen line => [line]
  | .setRate line rate => line :: bytes32 rate
  | .planBegin line cause expected => [line, cause] ++ expected.bytes bytes32
  | .stationFault station cause => [station, cause]
  | .classify key cause => key.bytes ++ [cause]
  | .holdRecord key | .releaseRecord key => key.bytes
  | .fetchRecords count => [count]
  | .readStation station | .readStationTally station => [station]
  | .readPoints first count => [first, count]
  | .readCountInput input => [input]
  | .readArchive line depth part => [line, depth, part]
  | .readCause code => [code]
  | .identify | .readAlerts | .readClock | .storeSettings | .recallSettings
  | .readJournalStatus => []
  | .frameComplete _ | .frameGapTimeout | .replyStart | .replyComplete | .matrixScan _ _
  | .chatterWindowEnd | .slotTableInstall | .countSample _ _ | .windowClose _
  | .stallTimerExpiry _ | .armedReportExpiry _ | .thresholdExpiry _ | .planOverrun _
  | .deadlineExpiry _ | .boundaryReached | .shiftLengthLimit _ | .archiveWriteComplete
  | .settingsWriteComplete | .powerFail | .resetAssert | .powerReturn | .resetRelease
  | .warmStart | .coldStart | .characterReceived _ _ => []

/-! ### Reading bodies -/

/-- A 16-bit field from its two bytes. -/
def join16 (a b : Byte) : BitVec 16 := a ++ b

/-- A 32-bit field from its four bytes. -/
def join32 (a b c d : Byte) : BitVec 32 := a ++ b ++ c ++ d

/-- A 48-bit field from its six bytes. -/
def join48 (a b c d e f : Byte) : BitVec 48 := a ++ b ++ c ++ d ++ e ++ f

/-- Read one byte announced by a presence byte (R178, R162: non-zero is read as present). -/
def takeCarried : List Byte → Option (Carried Byte × List Byte)
  | [] => none
  | p :: rest =>
    if p = 0 then some (⟨0, 0⟩, rest)
    else match rest with
      | [] => none
      | v :: rest => some (⟨p, v⟩, rest)

/-- Read 32-bit fields until the body ends. -/
def takeWords : List Byte → Option (List (BitVec 32))
  | [] => some []
  | a :: b :: c :: d :: rest => (takeWords rest).map (join32 a b c d :: ·)
  | _ => none

/-- A key from its nine bytes. -/
def takeKey : List Byte → Option (Key × List Byte)
  | l :: a :: b :: c :: d :: e :: f :: g :: h :: rest =>
    some (⟨l, join32 a b c d, join32 e f g h⟩, rest)
  | _ => none

/-- The body of DEFINE-STATION. -/
def takeStation : List Byte → Option StationField
  | station :: defined :: line :: position :: rest => do
    let (run, rest) ← takeCarried rest
    let (fault, rest) ← takeCarried rest
    let (block, rest) ← takeCarried rest
    let (starve, rest) ← takeCarried rest
    let (pace, rest) ← takeCarried rest
    match rest with
    | [a, b] =>
      some { station, defined, line, position, run, fault, block, starve, pace,
             stall := join16 a b }
    | _ => none
  | _ => none

/-- A body of one byte. -/
def takeOne (f : Byte → Instr) : List Byte → Option Instr
  | [a] => some (f a)
  | _ => none

/-- A body of two bytes. -/
def takeTwo (f : Byte → Byte → Instr) : List Byte → Option Instr
  | [a, b] => some (f a b)
  | _ => none

/-- An empty body. -/
def takeNone (i : Instr) : List Byte → Option Instr
  | [] => some i
  | _ => none

/-- Read a request body of a kind into its command; none when the length is not the one the kind
requires (R162 check 2, R179). -/
def readRequest (kind : RequestKind) (body : List Byte) : Option Instr :=
  match kind with
  | .identify => takeNone .identify body
  | .readAlerts => takeNone .readAlerts body
  | .setClock => match body with
    | [a, b, c, d, e, f] => some (.setClock false (join48 a b c d e f))
    | _ => none
  | .readClock => takeNone .readClock body
  | .setSchedule => match body with
    | n :: rest =>
      if n.toNat ≤ 4 ∧ rest.length = 4 * n.toNat then (takeWords rest).map .setSchedule else none
    | _ => none
  | .defineStation => (takeStation body).map .defineStation
  | .defineLine => match body with
    | line :: constraint :: rest =>
      match takeCarried rest with
      | some (output, n :: rejects) =>
        if n.toNat ≤ 2 ∧ rejects.length = n.toNat then
          some (.defineLine line constraint output rejects)
        else none
      | _ => none
    | _ => none
  | .setPointMode => match body with
    | [point, polarity, debounce, mode, limit] =>
      some (.setPointMode point polarity debounce mode limit)
    | _ => none
  | .setCountInput => match body with
    | input :: edge :: debounce :: limit :: p :: rest =>
      if p = 0 then
        match rest with
        | [] => some (.setCountInput input edge debounce limit ⟨0, ⟨0, 0⟩⟩)
        | _ => none
      else match rest with
        | [a, b, c, d] =>
          some (.setCountInput input edge debounce limit ⟨p, ⟨join16 a b, join16 c d⟩⟩)
        | _ => none
    | _ => none
  | .setSlots => if body.length = 32 then some (.setSlots body) else none
  | .setCause => match body with
    | code :: defined :: category :: rest =>
      match takeCarried rest with
      | some (scope, []) => some (.setCause code defined category scope)
      | _ => none
    | _ => none
  | .setLineTimers => match body with
    | [line, a, b, c, d, e, f] =>
      some (.setLineTimers line (join16 a b) (join16 c d) (join16 e f))
    | _ => none
  | .setMonitor => takeOne .setMonitor body
  | .storeSettings => takeNone .storeSettings body
  | .recallSettings => takeNone .recallSettings body
  | .setGuard => takeOne .setGuard body
  | .enableLine => takeOne .enableLine body
  | .disableLine => takeOne .disableLine body
  | .closeShift => takeOne .closeShift body
  | .setRate => match body with
    | [line, a, b, c, d] => some (.setRate line (join32 a b c d))
    | _ => none
  | .planBegin => match body with
    | line :: cause :: p :: rest =>
      if p = 0 then
        match rest with
        | [] => some (.planBegin line cause ⟨0, 0⟩)
        | _ => none
      else match rest with
        | [a, b, c, d] => some (.planBegin line cause ⟨p, join32 a b c d⟩)
        | _ => none
    | _ => none
  | .planEnd => takeOne .planEnd body
  | .stationFault => takeTwo .stationFault body
  | .classify => match takeKey body with
    | some (key, [cause]) => some (.classify key cause)
    | _ => none
  | .holdRecord => match takeKey body with
    | some (key, []) => some (.holdRecord key)
    | _ => none
  | .releaseRecord => match takeKey body with
    | some (key, []) => some (.releaseRecord key)
    | _ => none
  | .fetchRecords => takeOne .fetchRecords body
  | .readLine => takeOne .readLine body
  | .readStation => takeOne .readStation body
  | .readPoints => takeTwo .readPoints body
  | .readCountInput => takeOne .readCountInput body
  | .readTally => takeOne .readTally body
  | .readStationTally => takeOne .readStationTally body
  | .readOpen => takeOne .readOpen body
  | .readJournalStatus => takeNone .readJournalStatus body
  | .readArchive => match body with
    | [line, depth, part] => some (.readArchive line depth part)
    | _ => none
  | .readCause => takeOne .readCause body

/-- The command a word of the table's bits spells: no row of the table gives bits, so none. -/
def decodeTableWord (_nbits _w : Nat) : Option Instr := none

end Sys2Proof
end

