-- ==== Sys2Proof/Machine/State.lean ====
section
/-! DEFINITION. The state of the TC6408: settings, acquisition, stations, lines, journal, tallies,
clock, archive, link, alerts, guard, power and pins, as plain data, and the state after reset. -/

namespace Sys2Proof.Machine

/-! ### Names -/

/-- A level after acceptance (chapters 01 and 02). For a matrix point: OFF, ON, UNSETTLED; for a
count input: IDLE, ACTIVE, UNSETTLED. -/
inductive Level where
  | off | on | unsettled
deriving DecidableEq, Repr

/-- Polarity of a point (R1). -/
inductive Polarity where
  | normal | inverted
deriving DecidableEq, Repr

/-- Mode of a point (R7). -/
inductive PointMode where
  | live | holdOnNoise | forceOn | forceOff
deriving DecidableEq, Repr

/-- Which accepted change of a count input is a counting edge (R23). -/
inductive Edge where
  | leading | trailing
deriving DecidableEq, Repr

/-- The role of a count input (chapter 02, R24). -/
inductive Role where
  | none
  | output (line : LineId)
  | reject (line : LineId)
  | pace (station : StationId)
deriving DecidableEq, Repr

/-- The eleven categories, in the order of their codes (chapter 03, R178). -/
inductive Category where
  | equipment | material | operational | quality | external | unassigned
  | changeover | cleaning | breakPeriod | noDemand | maintenance
deriving DecidableEq, Repr

/-- The states of a station, in the order of their codes (R51, R178). -/
inductive StationState where
  | unmonitored | running | stalled | faulted | halted | blocked | starved
deriving DecidableEq, Repr

/-- The states of a line (R69). -/
inductive LineState where
  | outOfService | resuming | running | pendingStop | down | planned
deriving DecidableEq, Repr

/-- The kind of a last-stop memory (R60). -/
inductive MemoryKind where
  | own | starved | blocked
deriving DecidableEq, Repr

/-- The reasons of a shift close (chapter 08). -/
inductive CloseReason where
  | boundary | request | disable | length | outageBoundary
deriving DecidableEq, Repr

/-- The guard modes (R174). -/
inductive GuardMode where
  | opened | keyed | sealed
deriving DecidableEq, Repr

/-- The guard modes that can be stored (R174): SEALED is never stored. -/
inductive StoredGuard where
  | opened | keyed
deriving DecidableEq, Repr

/-- The image status (R169). -/
inductive ImageStatus where
  | blank | good | damaged
deriving DecidableEq, Repr

/-- The eight alerts, in the order of their bits (R164, R178). -/
inductive Alert where
  | pointNoisy | countNoisy | journalOverflow | archiveDamaged | settingsDamaged | outage
  | clockLost | boundarySkipped
deriving DecidableEq, Repr

/-- The reasons of a refused request, in the order of their codes (R161). -/
inductive Reason where
  | unknownKind | malformed | outOfRange | guarded | busy | inService | notInService | inUse
  | incomplete | notFound | state | late | shiftClosed | cause | noClock | notJournaled
deriving DecidableEq, Repr

/-- The buckets a line's time is booked in: U, D(category) or P(category), M, O, X, N (R118). A
category names exactly one bucket, D when unplanned and P when planned (R37). -/
inductive Bucket where
  | u
  | cat (c : Category)
  | m | o | x | n
deriving DecidableEq, Repr

/-! ### Working settings (R168) -/

/-- The four settings of a point (chapter 01). -/
structure PointSettings where
  polarity : Polarity
  debounce : Nat
  mode : PointMode
  limit : Nat
deriving DecidableEq, Repr

/-- Reject qualification in ms (chapter 02). -/
structure Qualification where
  offset : Nat
  width : Nat
deriving DecidableEq, Repr

/-- The four settings of a count input (chapter 02). -/
structure InputSettings where
  edge : Edge
  debounce : Nat
  limit : Nat
  qual : Option Qualification
deriving DecidableEq, Repr

/-- A station's place: its line and its position in it (R48). -/
structure Place where
  line : LineId
  position : Fin 16
deriving DecidableEq, Repr

/-- The definition of a defined station (chapter 04); a lineless one has no place, points or input. -/
structure StationDef where
  place : Option Place
  run : Option PointId
  fault : Option PointId
  block : Option PointId
  starve : Option PointId
  pace : Option InputId
  /-- Stall timeout in seconds, 0 for off. -/
  stall : Nat
deriving DecidableEq, Repr

/-- The settings of a line (chapter 05). Times are in seconds; an unset rate is none. -/
structure LineSettings where
  constraint : Option StationId
  output : Option InputId
  rejects : List InputId
  rate : Option Nat
  threshold : Nat
  lookback : Nat
  deadline : Nat
deriving DecidableEq, Repr

/-- A defined host entry of the cause table (R39). -/
structure CauseEntry where
  category : Category
  scope : Option StationId
deriving DecidableEq, Repr

/-- The working settings: every item of R168. -/
structure Settings where
  points : Vector PointSettings 256
  /-- Chatter window W in seconds. -/
  window : Nat
  inputs : Vector InputSettings 16
  slots : Vector (Option InputId) 32
  stations : Vector (Option StationDef) 64
  lines : Vector LineSettings 8
  /-- Host entries; place k holds code k + 10. -/
  causes : Vector (Option CauseEntry) 246
  /-- Shift boundaries as cs-of-day values, increasing. -/
  schedule : List Nat
  storedGuard : StoredGuard
deriving DecidableEq, Repr

/-! ### Live state -/

/-- Acquisition state of a point (chapter 01). `lastRaw` is the raw level of the point's last scan
since acquisition restarted, which R3 and R12 refer to. -/
structure PointAcq where
  accepted : Level
  run : Nat
  activity : Nat
  noisy : Bool
  held : Option Bool
  lastRaw : Option Bool
deriving DecidableEq, Repr

/-- A qualification window; instants in slots of 31.25 µs (R19, R27). -/
structure Window where
  opens : Nat
  closes : Nat
deriving DecidableEq, Repr

/-- Acquisition state of a count input (chapter 02). `lastSample` is the level of its last sample
since acquisition restarted or it regained slots (R22, R31). -/
structure InputAcq where
  accepted : Level
  run : Nat
  raw : BitVec 32
  glitches : Nat
  noisy : Bool
  windows : List Window
  lastSample : Option Bool
deriving DecidableEq, Repr

/-- A reported cause with its stamp (R57). -/
structure Reported where
  cause : CauseCode
  stamp : Nat
deriving DecidableEq, Repr

/-- An armed report with its expiry instant on the interval counter (R57, R58). -/
structure Armed where
  cause : CauseCode
  expiry : Nat
deriving DecidableEq, Repr

/-- A last-stop memory (R60); the cause is 0 unless the kind is OWN. -/
structure StopMemory where
  kind : MemoryKind
  cause : CauseCode
  endStamp : Nat
  endCount : Nat
deriving DecidableEq, Repr

/-- A station tally (R62): seven state times in state order, root times and counts, pace count. -/
structure StationTally where
  times : Vector Nat 7
  rootDown : Nat
  rootDownCount : Nat
  rootMicro : Nat
  rootMicroCount : Nat
  pace : Nat
deriving DecidableEq, Repr

/-- Live state of a station (chapter 04). -/
structure StationLive where
  state : StationState
  stamp : Nat
  reported : Option Reported
  armed : Option Armed
  memory : Option StopMemory
  degraded : Bool
  /-- Expiry of the stall timer on the interval counter, when it runs (R53). -/
  stallExpiry : Option Nat
  tally : Option StationTally
  /-- Interval counter when the tally's present state segment began (R62). -/
  since : Nat
deriving DecidableEq, Repr

/-- A contributor (R81). While it is the last one of a record in the slot its time runs from
`Stoppage.lastSince` and `duration` is 0. -/
structure Contributor where
  station : StationId
  cause : CauseCode
  category : Category
  duration : Nat
deriving DecidableEq, Repr

/-- The markers of a record (R84). -/
structure RecordMarkers where
  degraded : Bool
  capped : Bool
  plan : Bool
  outage : Bool
  shiftEnd : Bool
  continued : Bool
deriving DecidableEq, Repr

/-- Whether the stoppage in the slot is a candidate, with its threshold expiry, or an open record,
with its number (R74, R76). -/
inductive StoppageKind where
  | candidate (expiry : Nat)
  | record (number : Nat)
deriving DecidableEq, Repr

/-- The stoppage in a line's slot (R74). -/
structure Stoppage where
  kind : StoppageKind
  startStamp : Nat
  startCount : Nat
  entryState : StationState
  serial : Nat
  operatorCause : Option CauseCode
  markers : RecordMarkers
  contributors : List Contributor
  /-- Interval counter when the last contributor began to accrue. -/
  lastSince : Nat
  /-- Station of the latest walk result (R84). -/
  walkStation : StationId
deriving DecidableEq, Repr

/-- A plan (R85, R86). `elapsed` is the planned time up to `since`, from which it is now running;
`since` is none while an outage holds it. -/
structure Plan where
  cause : CauseCode
  category : Category
  startStamp : Nat
  /-- Expected duration in seconds. -/
  expected : Option Nat
  elapsed : Nat
  since : Option Nat
  overrun : Bool
deriving DecidableEq, Repr

/-- The counts of a bank (chapter 07). -/
structure Counts where
  t : Nat
  j : Nat
  c : Nat
  stray : Nat
  micro : Nat
  stoppage : Nat
  ideal : Nat
  remainder : Nat
deriving DecidableEq, Repr

/-- The current bank of an in-service line (chapter 07). `times` holds the sixteen buckets of
`Bucket`. OVERSPEED and REJECT-EXCESS are not held here: they come from the computation (R130). -/
structure Bank where
  openCount : Nat
  times : Vector Nat 16
  counts : Counts
  countNoisy : Bool
  degraded : Bool
  booking : Bucket
  segStart : Nat
  runStart : Option Nat
deriving DecidableEq, Repr

/-- The efficiency figures and the two markers of their computation (R133 to R135). -/
structure Figures where
  loading : Nat
  good : Nat
  availability : Option Nat
  performance : Option Nat
  quality : Option Nat
  oee : Option Nat
  overspeed : Bool
  rejectExcess : Bool
deriving DecidableEq, Repr

/-- A bank as a reading or a close reports it (R132, R137). -/
structure BankView where
  scheduled : Nat
  times : Vector Nat 16
  counts : Counts
  countNoisy : Bool
  degraded : Bool
  figures : Figures
deriving DecidableEq, Repr

/-- A closed bank, as staged and as archived (R148, R151). -/
structure ClosedBank where
  line : LineId
  serial : Nat
  openStamp : Nat
  closeStamp : Nat
  reason : CloseReason
  deferred : Bool
  view : BankView
  members : List (StationId × StationTally)
deriving DecidableEq, Repr

/-- A stored archive entry with its 16-bit check (R151). -/
structure Stored where
  bank : ClosedBank
  check : BitVec 16
deriving DecidableEq, Repr

/-- Live state of a line (chapter 05), with its bank (R117), its staging buffer (R148) and its
deferred boundary (R145). -/
structure LineLive where
  state : LineState
  stamp : Nat
  serial : Nat
  openStamp : Option Nat
  slot : Option Stoppage
  plan : Option Plan
  nextNumber : Nat
  bank : Option Bank
  staging : Option ClosedBank
  deferred : Bool
deriving DecidableEq, Repr

/-- The state of a journal record, with its deadline (R96). -/
inductive RecordState where
  | unconfirmed (expiry : Nat)
  | held (remainder : Nat)
  | confirmed
  | lapsed
deriving DecidableEq, Repr

/-- A journal record (chapter 06). -/
structure JournalRecord where
  line : LineId
  serial : Nat
  number : Nat
  startStamp : Nat
  duration : Nat
  entryState : StationState
  state : RecordState
  operatorCause : Option CauseCode
  markers : RecordMarkers
  contributors : List Contributor
deriving DecidableEq, Repr

/-- The timekeeper and the shift calendar (chapter 08). -/
structure Clock where
  /-- The interval counter, in cs (R139). -/
  count : Nat
  /-- Slots of 31.25 µs since the counter's last count; the model's own (assumption 2). -/
  sub : Nat
  offset : Nat
  isSet : Bool
  lastBoundary : Option Nat
  nextBoundary : Option Nat
  /-- Interval counter value of the next chatter window end (R4). -/
  windowEnd : Nat
deriving DecidableEq, Repr

/-- An item of the archive write queue (R150). -/
inductive WriteItem where
  | bank (line : LineId)
  | settings
deriving DecidableEq, Repr

/-- The stored image (R169): its contents and its 16-bit check. -/
structure Image where
  contents : Settings
  check : BitVec 16
deriving DecidableEq, Repr

/-- The frame receiver (R157). A frame in reception holds the bytes after its start byte. -/
inductive Receiver where
  | hunt
  | receiving (bytes : List Byte)
  | skip
deriving DecidableEq, Repr

/-- The serving state (R159). -/
inductive Serving where
  | ready | serving | replying
deriving DecidableEq, Repr

/-- A reply: its kind byte and body (R161). -/
structure Reply where
  kind : Byte
  body : List Byte
deriving DecidableEq, Repr

/-- The link controller (chapter 09). `reply` is the reply formed and not yet sent; `ahead` is the
number of items that were in the write queue when STORE-SETTINGS was taken (R170). -/
structure Link where
  receiver : Receiver
  serving : Serving
  reply : Option Reply
  ahead : Nat
  address : BitVec 8
deriving DecidableEq, Repr

/-- Power and RESET. `running` holds from a start to the next failure instant; `failure` is the
failure instant of the outage in progress; `powerLost` records that main power failed since the
last start (R176). -/
structure Power where
  main : Bool
  reset : Bool
  running : Bool
  failure : Option Nat
  powerLost : Bool
deriving DecidableEq, Repr

/-- Input pins that a request or a start reads: KEY (R174) and the address straps (R167). -/
structure Pins where
  key : Bool
  straps : BitVec 5
deriving DecidableEq, Repr

/-- Faults: none. No rule of the manual stops the part, so the type has no constructor. -/
inductive Fault where
deriving DecidableEq, Repr

/-- Refusals. `notModelled` is for a command whose meaning is not written; it is safe, since the
model then answers nothing about it. No arm of `exec` uses it. -/
inductive Refusal where
  | notModelled (mnemonic : String)
deriving DecidableEq, Repr

/-- The state of the part and the queue of commands that wait for it. -/
structure State where
  settings : Settings
  points : Vector PointAcq 256
  inputs : Vector InputAcq 16
  /-- The slot table that sampling follows (R33). -/
  installed : Vector (Option InputId) 32
  /-- A recall restarted the inputs in a frame that has not ended: no sample is taken before the next
  frame begins (R36; assumption 35). -/
  awaitsFrame : Bool
  stations : Vector StationLive 64
  lines : Vector LineLive 8
  /-- The journal, oldest first (R95). -/
  journal : List JournalRecord
  /-- The lost count (R99). -/
  lost : Nat
  clock : Clock
  /-- Stored entries of each line, newest first (R151). -/
  archive : Vector (List Stored) 8
  /-- The archive write queue; its head is the item being written (R150). -/
  queue : List WriteItem
  /-- The working settings as copied when the settings write began (R170). -/
  settingsCopy : Option Settings
  /-- The stored image; none while the region is erased (R169). -/
  image : Option Image
  imageStatus : ImageStatus
  /-- The guard mode in force (R174). -/
  guardMode : GuardMode
  link : Link
  /-- The latched alerts, bits as R178 numbers them (R164). -/
  alerts : BitVec 8
  power : Power
  pins : Pins
  /-- Commands that wait, first in first out. -/
  pending : List Instr
deriving DecidableEq, Repr

/-! ### Reset -/

/-- Default settings of a point (R18). -/
def PointSettings.default : PointSettings :=
  { polarity := .normal, debounce := 5, mode := .holdOnNoise, limit := 40 }

/-- Default settings of a count input (R36). -/
def InputSettings.default : InputSettings :=
  { edge := .leading, debounce := 3, limit := 0, qual := none }

/-- Default settings of a line (R92). -/
def LineSettings.default : LineSettings :=
  { constraint := none, output := none, rejects := [], rate := none, threshold := 30,
    lookback := 120, deadline := 600 }

/-- The default slot table: CIk in slots k and k + 16 (R36). -/
def defaultSlots : Vector (Option InputId) 32 :=
  Vector.ofFn fun j => some ⟨j.val % 16, Nat.mod_lt _ (by decide)⟩

/-- The default working settings (R168). -/
def Settings.default : Settings :=
  { points := Vector.replicate 256 PointSettings.default
    window := 10
    inputs := Vector.replicate 16 InputSettings.default
    slots := defaultSlots
    stations := Vector.replicate 64 none
    lines := Vector.replicate 8 LineSettings.default
    causes := Vector.replicate 246 none
    schedule := []
    storedGuard := .opened }

/-- Acquisition state of a point after a restart (R17). -/
def PointAcq.restarted : PointAcq :=
  { accepted := .unsettled, run := 0, activity := 0, noisy := false, held := none, lastRaw := none }

/-- Acquisition state of a count input after a cold start (R36). -/
def InputAcq.cold : InputAcq :=
  { accepted := .unsettled, run := 0, raw := 0, glitches := 0, noisy := false, windows := [],
    lastSample := none }

/-- Live state of a station after a cold start, before its points settle (R67). -/
def StationLive.cold : StationLive :=
  { state := .unmonitored, stamp := 0, reported := none, armed := none, memory := none,
    degraded := false, stallExpiry := none, tally := none, since := 0 }

/-- Live state of a line after a cold start (R92), with a recovered shift serial. The next stoppage
number is not used out of service; it is 1 (assumption 9). -/
def LineLive.cold (serial : Nat) : LineLive :=
  { state := .outOfService, stamp := 0, serial, openStamp := none, slot := none, plan := none,
    nextNumber := 1, bank := none, staging := none, deferred := false }

/-- The timekeeper after a cold start (R139, R140, R155): the first chatter window is whole (R17). -/
def Clock.cold (window : Nat) : Clock :=
  { count := 0, sub := 0, offset := 0, isSet := false, lastBoundary := none, nextBoundary := none,
    windowEnd := window * 100 }

/-- The part right after reset: after a cold start (R155) with the image region erased and the
archive empty, KEY not asserted and no strap set (assumption 1), and the model's own counters at 0
(assumption 28). CLOCK-LOST is latched (R140). -/
def State.reset : State :=
  { settings := Settings.default
    points := Vector.replicate 256 PointAcq.restarted
    inputs := Vector.replicate 16 InputAcq.cold
    installed := defaultSlots
    awaitsFrame := false
    stations := Vector.replicate 64 StationLive.cold
    lines := Vector.replicate 8 (LineLive.cold 0)
    journal := []
    lost := 0
    clock := Clock.cold 10
    archive := Vector.replicate 8 []
    queue := []
    settingsCopy := none
    image := none
    imageStatus := .blank
    guardMode := .opened
    link := { receiver := .hunt, serving := .ready, reply := none, ahead := 0, address := 1 }
    alerts := 0x40
    power := { main := true, reset := false, running := true, failure := none, powerLost := false }
    pins := { key := false, straps := 0 }
    pending := [] }

end Sys2Proof.Machine
end

