-- ==== Sys2Proof/Machine/Ops.lean ====
section
/-! DEFINITION. The named operations over the state: tables, time, the records of lines, stations,
points and inputs, members of a line, roles, saturating counts, the frame check. -/

namespace Sys2Proof.Machine

/-! ### Tables of a fixed number of records -/

/-- The record of an identifier. -/
def Tab.get {α : Type} {n : Nat} (v : Vector α n) (i : Fin n) : α := v[i.val]

/-- Replace the record of an identifier. -/
def Tab.set {α : Type} {n : Nat} (v : Vector α n) (i : Fin n) (x : α) : Vector α n :=
  v.set i.val x i.isLt

/-- Change the record of an identifier. -/
def Tab.modify {α : Type} {n : Nat} (v : Vector α n) (i : Fin n) (f : α → α) : Vector α n :=
  Tab.set v i (f (Tab.get v i))

/-- Change every record, each with its identifier. -/
def Tab.mapAll {α β : Type} {n : Nat} (f : Fin n → α → β) (v : Vector α n) : Vector β n :=
  Vector.ofFn fun i => f i (Tab.get v i)

/-- The lines, in line-number order. -/
def allLines : List LineId := [0, 1, 2, 3, 4, 5, 6, 7]

/-- The stations, in number order. -/
def allStations : List StationId := List.finRange 64

/-- The count inputs, in number order. -/
def allInputs : List InputId := List.finRange 16

/-! ### Numbers -/

/-- A 32-bit count that stops at 2^32 − 1 (R62, R99, R117). -/
def saturate (n : Nat) : Nat := min n Config.countLimit

/-- The shift serial `k` shifts later, wrapping from 4,294,967,295 to 1 (R71, R148, R154). -/
def serialAfter (serial k : Nat) : Nat :=
  if serial + k = 0 then 0 else (serial + k - 1) % Config.countLimit + 1

/-- One step of the CRC of R156 over one bit. -/
def crcBit (crc : BitVec 16) : BitVec 16 :=
  if crc.getLsbD 15 then (crc <<< 1) ^^^ 0x1021 else crc <<< 1

/-- The CRC of R156 over one byte, most significant bit first. -/
def crcByte (crc : BitVec 16) (b : Byte) : BitVec 16 :=
  let x := crc ^^^ (b ++ (0 : BitVec 8))
  crcBit (crcBit (crcBit (crcBit (crcBit (crcBit (crcBit (crcBit x)))))))

/-- CRC-16, polynomial x^16 + x^12 + x^5 + 1, initial value FFFFh (R156). -/
def crc16 (bytes : List Byte) : BitVec 16 := bytes.foldl crcByte 0xFFFF

/-! ### Time -/

/-- The interval counter (R139). -/
def State.now (s : State) : Nat := s.clock.count

/-- The hall clock when the interval counter reads `t` (R140). -/
def State.hallAt (s : State) (t : Nat) : Nat := (t + s.clock.offset) % Config.clockModulus

/-- The hall clock (R140). -/
def State.hall (s : State) : Nat := s.hallAt s.now

/-- The present instant in slots of 31.25 µs, the resolution of the sampler's instants (R19). -/
def State.moment (s : State) : Nat := s.clock.count * Config.slotsPerCs + s.clock.sub

/-- One slot of time passes; the interval counter counts every 320 slots (R139; assumption 2). -/
def State.tick (s : State) : State :=
  { s with clock :=
      if s.clock.sub + 1 < Config.slotsPerCs then { s.clock with sub := s.clock.sub + 1 }
      else { s.clock with sub := 0, count := (s.clock.count + 1) % Config.clockModulus } }

/-! ### Records -/

/-- Live state of a line. -/
def State.line (s : State) (n : LineId) : LineLive := Tab.get s.lines n

/-- Settings of a line. -/
def State.lineDef (s : State) (n : LineId) : LineSettings := Tab.get s.settings.lines n

/-- Live state of a station. -/
def State.station (s : State) (k : StationId) : StationLive := Tab.get s.stations k

/-- Definition of a station; none when it is undefined. -/
def State.stationDef (s : State) (k : StationId) : Option StationDef :=
  Tab.get s.settings.stations k

/-- Settings of a point. -/
def State.pointDef (s : State) (p : PointId) : PointSettings := Tab.get s.settings.points p

/-- Acquisition state of a point. -/
def State.point (s : State) (p : PointId) : PointAcq := Tab.get s.points p

/-- Settings of a count input. -/
def State.inputDef (s : State) (i : InputId) : InputSettings := Tab.get s.settings.inputs i

/-- Acquisition state of a count input. -/
def State.input (s : State) (i : InputId) : InputAcq := Tab.get s.inputs i

/-- Change a line's live state. -/
def State.modLine (s : State) (n : LineId) (f : LineLive → LineLive) : State :=
  { s with lines := Tab.modify s.lines n f }

/-- Change a station's live state. -/
def State.modStation (s : State) (k : StationId) (f : StationLive → StationLive) : State :=
  { s with stations := Tab.modify s.stations k f }

/-- Change a point's acquisition state. -/
def State.modPoint (s : State) (p : PointId) (f : PointAcq → PointAcq) : State :=
  { s with points := Tab.modify s.points p f }

/-- Change a count input's acquisition state. -/
def State.modInput (s : State) (i : InputId) (f : InputAcq → InputAcq) : State :=
  { s with inputs := Tab.modify s.inputs i f }

/-- Change the working settings. -/
def State.modSettings (s : State) (f : Settings → Settings) : State :=
  { s with settings := f s.settings }

/-- Change a line's settings. -/
def State.modLineDef (s : State) (n : LineId) (f : LineSettings → LineSettings) : State :=
  s.modSettings fun g => { g with lines := Tab.modify g.lines n f }

/-- Change the current bank of a line, if it has one. -/
def State.modBank (s : State) (n : LineId) (f : Bank → Bank) : State :=
  s.modLine n fun l => { l with bank := l.bank.map f }

/-- Change the stoppage in a line's slot, if there is one. -/
def State.modSlot (s : State) (n : LineId) (f : Stoppage → Stoppage) : State :=
  s.modLine n fun l => { l with slot := l.slot.map f }

/-- Change a station's tally, if it has one. -/
def State.modTally (s : State) (k : StationId) (f : StationTally → StationTally) : State :=
  s.modStation k fun v => { v with tally := v.tally.map f }

/-- A line is in service in any state other than OUT-OF-SERVICE. -/
def LineLive.inService (l : LineLive) : Bool := l.state ≠ .outOfService

/-- Whether a line is in service. -/
def State.inService (s : State) (n : LineId) : Bool := (s.line n).inService

/-! ### Members and roles -/

/-- The line a station is a member of (R48). -/
def State.lineOf (s : State) (k : StationId) : Option LineId :=
  match s.stationDef k with
  | some d => d.place.map Place.line
  | none => none

/-- A station's position in line `n`; none when it is not a member (R48). -/
def State.positionIn (s : State) (n : LineId) (k : StationId) : Option (Fin 16) :=
  match s.stationDef k with
  | some d => match d.place with
    | some p => if p.line = n then some p.position else none
    | none => none
  | none => none

/-- The members of a line, ordered by position (R48). -/
def State.members (s : State) (n : LineId) : List StationId :=
  let found := allStations.filterMap fun k => (s.positionIn n k).map fun p => (p, k)
  (List.finRange 16).flatMap fun p => (found.filter fun q => q.1 == p).map Prod.snd

/-- The constraint station of a line, by its state; a line with none reads UNMONITORED (R69). -/
def State.constraintState (s : State) (n : LineId) : StationState :=
  match (s.lineDef n).constraint with
  | some k => (s.station k).state
  | none => .unmonitored

/-- The role of a count input, from the line and station definitions (chapter 02). -/
def Settings.roleOf (g : Settings) (i : InputId) : Role :=
  match allLines.find? fun n => (Tab.get g.lines n).output == some i with
  | some n => .output n
  | none =>
    match allLines.find? fun n => (Tab.get g.lines n).rejects.contains i with
    | some n => .reject n
    | none =>
      match allStations.find? fun k => ((Tab.get g.stations k).bind StationDef.pace) == some i with
      | some k => .pace k
      | none => .none

/-- The role of a count input. -/
def State.roleOf (s : State) (i : InputId) : Role := s.settings.roleOf i

/-- The role's line (R24). -/
def State.roleLine (s : State) (i : InputId) : Option LineId :=
  match s.roleOf i with
  | .none => none
  | .output n => some n
  | .reject n => some n
  | .pace k => s.lineOf k

/-- The role's line when it is in service. -/
def State.servedLine (s : State) (i : InputId) : Option LineId :=
  (s.roleLine i).filter s.inService

/-- The inputs with a role of a line (R70, R129). -/
def State.lineInputs (s : State) (n : LineId) : List InputId :=
  allInputs.filter fun i => s.roleLine i == some n

/-- How many entries of a slot table name an input (chapter 02). -/
def slotCount (slots : Vector (Option InputId) 32) (i : InputId) : Nat :=
  slots.toList.countP fun e => e == some i

/-- The points of a station's definition, in the order RUN, FAULT, BLOCK, STARVE. -/
def StationDef.points (d : StationDef) : List PointId :=
  [d.run, d.fault, d.block, d.starve].filterMap id

/-- A station's pace source (R52): its PACE input, or, for the constraint of a line, the line's
OUTPUT input. -/
def State.paceSource (s : State) (k : StationId) : Option InputId :=
  match s.stationDef k with
  | none => none
  | some d =>
    match d.pace with
    | some i => some i
    | none =>
      match d.place with
      | none => none
      | some p => if (s.lineDef p.line).constraint = some k then (s.lineDef p.line).output else none

end Sys2Proof.Machine
end

