-- ==== Sys2Proof/Machine/Flags.lean ====
section
/-! DEFINITION. Flags and conditions: the alert set and ATTN (R164 to R166), the guard decision
(R174), whether the write queue is served (R150, R153), the noisy and degraded conditions of points
(R7, R10), the markers (R84, R128), and their bytes (R178). -/

namespace Sys2Proof.Machine

/-! ### Alerts and ATTN -/

/-- The bit of an alert in the alert byte (R178). -/
def Alert.bit : Alert → BitVec 8
  | .pointNoisy => 0x01
  | .countNoisy => 0x02
  | .journalOverflow => 0x04
  | .archiveDamaged => 0x08
  | .settingsDamaged => 0x10
  | .outage => 0x20
  | .clockLost => 0x40
  | .boundarySkipped => 0x80

/-- Latch an alert; latching one already latched leaves the set as it was (R164). -/
def State.latch (s : State) (a : Alert) : State := { s with alerts := s.alerts ||| a.bit }

/-- Latch an alert when a condition holds. -/
def State.latchIf (s : State) (cond : Bool) (a : Alert) : State := if cond then s.latch a else s

/-- Whether an alert is latched. -/
def State.latched (s : State) (a : Alert) : Bool := s.alerts &&& a.bit ≠ 0

/-- A settled record is CONFIRMED or LAPSED (chapter 06). -/
def RecordState.settled : RecordState → Bool
  | .unconfirmed _ => false
  | .held _ => false
  | .confirmed => true
  | .lapsed => true

/-- The journal holds a settled record (R114). -/
def State.holdsSettled (s : State) : Bool := s.journal.any fun r => r.state.settled

/-- The ATTN output: asserted while the alert set is not empty or the journal holds a settled
record, and released from a failure instant to the next start (R166). That it stays released between
the return of main power, or the release of RESET, and the start is the model's choice
(assumption 34). -/
def State.attn (s : State) : Bool := s.power.running && (s.alerts ≠ 0 || s.holdsSettled)

/-- The DIR output: asserted while a reply is transmitted (R159). -/
def State.dir (s : State) : Bool := s.link.serving == .replying

/-! ### Service of the write queue -/

/-- The write queue is served, and a warm start may be taken: the part has main power and RESET is not
asserted (R150, R153). R153 does not say what happens while main power has returned and RESET is
still asserted: that neither is done until RESET is released too is the model's choice
(assumption 36). -/
def State.serves (s : State) : Bool := s.power.main && !s.power.reset

/-! ### The guard -/

/-- The guard's decision on a guarded request (R174): none when it is accepted, otherwise the
detail of the refusal. -/
def guardRefusal (mode : GuardMode) (key : Bool) : Option Byte :=
  match mode with
  | .opened => none
  | .keyed => if key then none else some 1
  | .sealed => some 2

/-- The guard mode in force that a stored guard mode gives (R172, R176). -/
def StoredGuard.mode : StoredGuard → GuardMode
  | .opened => .opened
  | .keyed => .keyed

/-! ### Points -/

/-- A level as the level it names; UNSETTLED names none. -/
def Level.value? : Level → Option Bool
  | .off => some false
  | .on => some true
  | .unsettled => none

/-- The settled level of a reading. -/
def Level.of (b : Bool) : Level := if b then .on else .off

/-- The effective level of a point (R7). -/
def effectiveLevel (d : PointSettings) (a : PointAcq) : Level :=
  match d.mode with
  | .live => a.accepted
  | .holdOnNoise =>
    if a.noisy then
      match a.held with
      | some b => Level.of b
      | none => a.accepted
    else a.accepted
  | .forceOn => .on
  | .forceOff => .off

/-- The degraded condition of a point (R10). -/
def pointDegraded (d : PointSettings) (a : PointAcq) : Bool :=
  match d.mode with
  | .live => false
  | .holdOnNoise => a.noisy
  | .forceOn => true
  | .forceOff => true

/-- The effective level of point `p`. -/
def State.effective (s : State) (p : PointId) : Level := effectiveLevel (s.pointDef p) (s.point p)

/-- Whether a station is degraded by its points (R61). -/
def State.degradedNow (s : State) (k : StationId) : Bool :=
  match s.stationDef k with
  | none => false
  | some d => d.points.any fun p => pointDegraded (s.pointDef p) (s.point p)

/-- The degraded flag of a line's constraint. -/
def State.constraintDegraded (s : State) (n : LineId) : Bool :=
  match (s.lineDef n).constraint with
  | some k => (s.station k).degraded
  | none => false

/-- Some input with a role of the line is noisy (R117, R129). -/
def State.lineNoisy (s : State) (n : LineId) : Bool :=
  (s.lineInputs n).any fun i => (s.input i).noisy

/-! ### Markers -/

/-- No markers. -/
def RecordMarkers.clear : RecordMarkers :=
  { degraded := false, capped := false, plan := false, outage := false, shiftEnd := false,
    continued := false }

/-- A set as a byte: the flags in the order of their bits, bit 0 first (R178). -/
def flagByte : List Bool → Byte
  | [] => 0
  | b :: rest => (if b then 1 else 0) ||| (flagByte rest <<< 1)

/-- The marker byte of a record (R178). -/
def RecordMarkers.byte (m : RecordMarkers) : Byte :=
  flagByte [m.degraded, m.capped, m.plan, m.outage, m.shiftEnd, m.continued]

/-- The marker byte of a bank (R178). -/
def BankView.markerByte (v : BankView) : Byte :=
  flagByte [v.countNoisy, v.degraded, v.figures.overspeed, v.figures.rejectExcess]

end Sys2Proof.Machine
end

