-- ==== Sys2Proof/Machine/Operands.lean ====
section
/-! DEFINITION. Operand forms: enumerations and their codes (R178), identifiers and their ranges
(R162 check 4), quantities taken at the nearest limit, presence bytes, the cause table's entries
(R38, R39, R42). -/

namespace Sys2Proof.Machine

/-! ### Enumerations and their codes -/

/-- Code of a level (R178). -/
def Level.code : Level → Byte
  | .off => 0
  | .on => 1
  | .unsettled => 2

/-- Code of a polarity. -/
def Polarity.code : Polarity → Byte
  | .normal => 0
  | .inverted => 1

/-- The polarity of a code. -/
def Polarity.ofByte (b : Byte) : Option Polarity :=
  [Polarity.normal, .inverted].find? fun p => p.code == b

/-- Code of a point mode. -/
def PointMode.code : PointMode → Byte
  | .live => 0
  | .holdOnNoise => 1
  | .forceOn => 2
  | .forceOff => 3

/-- The point mode of a code. -/
def PointMode.ofByte (b : Byte) : Option PointMode :=
  [PointMode.live, .holdOnNoise, .forceOn, .forceOff].find? fun m => m.code == b

/-- Code of an edge. -/
def Edge.code : Edge → Byte
  | .leading => 0
  | .trailing => 1

/-- The edge of a code. -/
def Edge.ofByte (b : Byte) : Option Edge := [Edge.leading, .trailing].find? fun e => e.code == b

/-- Code of a station state, which is also its place in a station tally. -/
def StationState.index : StationState → Fin 7
  | .unmonitored => 0
  | .running => 1
  | .stalled => 2
  | .faulted => 3
  | .halted => 4
  | .blocked => 5
  | .starved => 6

/-- Code of a station state. -/
def StationState.code (v : StationState) : Byte := BitVec.ofNat 8 v.index.val

/-- Code of a line state. -/
def LineState.code : LineState → Byte
  | .outOfService => 0x00
  | .resuming => 0x01
  | .running => 0x02
  | .pendingStop => 0x03
  | .down => 0x04
  | .planned => 0x05

/-- Code of the state OPEN of a record in a slot. -/
def openCode : Byte := 0x10

/-- Code of a journal record's state. -/
def RecordState.code : RecordState → Byte
  | .unconfirmed _ => 0x11
  | .held _ => 0x12
  | .confirmed => 0x13
  | .lapsed => 0x14

/-- The categories in the order of their codes. -/
def Category.all : List Category :=
  [.equipment, .material, .operational, .quality, .external, .unassigned, .changeover, .cleaning,
    .breakPeriod, .noDemand, .maintenance]

/-- Number of a category. -/
def Category.index : Category → Fin 11
  | .equipment => 0
  | .material => 1
  | .operational => 2
  | .quality => 3
  | .external => 4
  | .unassigned => 5
  | .changeover => 6
  | .cleaning => 7
  | .breakPeriod => 8
  | .noDemand => 9
  | .maintenance => 10

/-- Code of a category. -/
def Category.code (c : Category) : Byte := BitVec.ofNat 8 c.index.val

/-- The category of a code. -/
def Category.ofByte (b : Byte) : Option Category := Category.all.find? fun c => c.code == b

/-- The five planned categories (chapter 03). -/
def Category.planned : Category → Bool
  | .equipment | .material | .operational | .quality | .external | .unassigned => false
  | .changeover | .cleaning | .breakPeriod | .noDemand | .maintenance => true

/-- Code of a memory kind. -/
def MemoryKind.code : MemoryKind → Byte
  | .own => 0
  | .starved => 1
  | .blocked => 2

/-- Code of a close reason. -/
def CloseReason.code : CloseReason → Byte
  | .boundary => 0
  | .request => 1
  | .disable => 2
  | .length => 3
  | .outageBoundary => 4

/-- Code of a guard mode. -/
def GuardMode.code : GuardMode → Byte
  | .opened => 0
  | .keyed => 1
  | .sealed => 2

/-- The guard mode of a code. -/
def GuardMode.ofByte (b : Byte) : Option GuardMode :=
  [GuardMode.opened, .keyed, .sealed].find? fun m => m.code == b

/-- Code of an image status. -/
def ImageStatus.code : ImageStatus → Byte
  | .blank => 0
  | .good => 1
  | .damaged => 2

/-- Code of a refusal reason (R161). -/
def Reason.code : Reason → Byte
  | .unknownKind => 0x01
  | .malformed => 0x02
  | .outOfRange => 0x03
  | .guarded => 0x04
  | .busy => 0x05
  | .inService => 0x06
  | .notInService => 0x07
  | .inUse => 0x08
  | .incomplete => 0x09
  | .notFound => 0x0A
  | .state => 0x0B
  | .late => 0x0C
  | .shiftClosed => 0x0D
  | .cause => 0x0E
  | .noClock => 0x0F
  | .notJournaled => 0x10

/-! ### Buckets -/

/-- Place of a bucket among the sixteen times of a bank. -/
def Bucket.index : Bucket → Fin 16
  | .u => 0
  | .cat c => ⟨c.index.val + 1, by omega⟩
  | .m => 12
  | .o => 13
  | .x => 14
  | .n => 15

/-! ### Refusals -/

/-- Why a request is refused: the reason and the detail byte (R161). -/
structure Refused where
  reason : Reason
  detail : Byte
deriving DecidableEq, Repr

/-- Refuse with a reason and a detail when a condition holds. -/
def refuseIf (cond : Bool) (reason : Reason) (detail : Byte) : Option Refused :=
  if cond then some ⟨reason, detail⟩ else none

/-- The first refusal of a list of checks made in order. -/
def firstRefusal (checks : List (Option Refused)) : Option Refused := checks.findSome? id

/-- An identifier field above its range is refused OUT-OF-RANGE with its value (R161, R162). -/
def above (b : Byte) (top : Nat) : Option Refused := refuseIf (top < b.toNat) .outOfRange b

/-- An identifier field that may be none, FFh (R178). -/
def aboveOrNone (b : Byte) (top : Nat) : Option Refused :=
  if b = 0xFF then none else above b top

/-- A present identifier above its range. -/
def carriedAbove (c : Carried Byte) (top : Nat) : Option Refused :=
  if c.presence = 0 then none else above c.value top

/-- A presence byte that is neither 0 nor 1 is refused MALFORMED with its place in the body (R178). -/
def presenceBad {α : Type} (c : Carried α) (place : Nat) : Option Refused :=
  refuseIf (1 < c.presence.toNat) .malformed (BitVec.ofNat 8 place)

/-- Bytes a carried byte takes in a body. -/
def carriedSize (c : Carried Byte) : Nat := if c.presence = 0 then 1 else 2

/-! ### Identifiers -/

/-- The line a byte names, once in range. -/
def lineOfByte (b : Byte) : LineId := Fin.ofNat 8 b.toNat

/-- The station a byte names, once in range. -/
def stationOfByte (b : Byte) : StationId := Fin.ofNat 64 b.toNat

/-- The point a byte names: every byte names one. -/
def pointOfByte (b : Byte) : PointId := Fin.ofNat 256 b.toNat

/-- The count input a byte names, once in range. -/
def inputOfByte (b : Byte) : InputId := Fin.ofNat 16 b.toNat

/-- The byte of an identifier. -/
def idByte {n : Nat} (i : Fin n) : Byte := BitVec.ofNat 8 i.val

/-- The byte of an identifier that may be none (R178). -/
def idOrNone {n : Nat} (i : Option (Fin n)) : Byte :=
  match i with
  | some i => idByte i
  | none => 0xFF

/-- A present point. -/
def carriedPoint (c : Carried Byte) : Option PointId :=
  if c.presence = 0 then none else some (pointOfByte c.value)

/-- A present count input. -/
def carriedInput (c : Carried Byte) : Option InputId :=
  if c.presence = 0 then none else some (inputOfByte c.value)

/-- A present station. -/
def carriedStation (c : Carried Byte) : Option StationId :=
  if c.presence = 0 then none else some (stationOfByte c.value)

/-- A quantity taken at the nearest limit (R162). -/
def clamp (low high value : Nat) : Nat := max low (min high value)

/-! ### Causes -/

/-- The cause table entry of a host code, 10 to 255; none when it is undefined (R39). -/
def hostEntry (g : Settings) (code : CauseCode) : Option CauseEntry :=
  if h : 10 ≤ code.toNat then Tab.get g.causes ⟨code.toNat - 10, by have := code.isLt; omega⟩
  else none

/-- A built-in code, 1 to 9 (R38). -/
def builtIn (code : CauseCode) : Bool := 1 ≤ code.toNat && code.toNat ≤ 9

/-- The stored category of a contributor made for a cause (R42). -/
def contributorCategory (g : Settings) (code : CauseCode) : Category :=
  match hostEntry g code with
  | some e => if e.category.planned then .unassigned else e.category
  | none => .unassigned

/-- A cause acceptable for STATION-FAULT of a station (R43). -/
def faultCauseOk (g : Settings) (k : StationId) (code : CauseCode) : Bool :=
  if code = 0 then true
  else match hostEntry g code with
    | some e => !e.category.planned && (e.scope == none || e.scope == some k)
    | none => false

/-- The category of a cause acceptable for CLASSIFY: any defined host code (R44). -/
def classifyCategory (g : Settings) (code : CauseCode) : Option Category :=
  (hostEntry g code).map CauseEntry.category

/-- The category of a cause acceptable for PLAN-BEGIN: a defined host code of a planned category
(R45). -/
def planCategory (g : Settings) (code : CauseCode) : Option Category :=
  match hostEntry g code with
  | some e => if e.category.planned then some e.category else none
  | none => none

end Sys2Proof.Machine
end

