-- ==== Sys2Proof/Machine/Tally.lean ====
section
/-! DEFINITION. The tally unit (chapter 07): booking time (R118 to R123), moving it (R121, R122),
counts (R125, R126), ideal output (R131), readings (R132) and the efficiency figures (R133 to R135);
and the station tallies (R62, R63). -/

namespace Sys2Proof.Machine

/-! ### The bank -/

/-- The time stored in a bucket. -/
def Bank.time (b : Bank) (k : Bucket) : Nat := Tab.get b.times k.index

/-- Book the segment in progress to the booking bucket and begin a new one at `t` (R118). -/
def Bank.book (b : Bank) (t : Nat) : Bank :=
  { b with
    times := Tab.modify b.times b.booking.index (· + (t - b.segStart))
    segStart := t }

/-- Take a new booking bucket at `t` (R118). -/
def Bank.switch (b : Bank) (t : Nat) (k : Bucket) : Bank := { b.book t with booking := k }

/-- Move an amount from one bucket to another (R121, R122). The bucket moved from holds the amount
(R107); were it to hold less, what it holds is moved (assumption 10). -/
def Bank.transfer (b : Bank) (source target : Bucket) (amount : Nat) : Bank :=
  let moved := min amount (b.time source)
  let times := Tab.modify b.times source.index (· - moved)
  { b with times := Tab.modify times target.index (· + moved) }

/-- Change the counts. -/
def Bank.modCounts (b : Bank) (f : Counts → Counts) : Bank := { b with counts := f b.counts }

/-- Credit the running segment up to `t` at `rate` to the ideal output and end it (R131). -/
def Bank.credit (b : Bank) (t rate : Nat) : Bank :=
  match b.runStart with
  | none => b
  | some r =>
    let total := b.counts.remainder + rate * (t - r)
    { b with
      counts := { b.counts with
        ideal := b.counts.ideal + total / Config.idealUnit
        remainder := total % Config.idealUnit }
      runStart := none }

/-- All counts 0. -/
def Counts.zero : Counts :=
  { t := 0, j := 0, c := 0, stray := 0, micro := 0, stoppage := 0, ideal := 0, remainder := 0 }

/-- A bank as created at `t` (R117). -/
def Bank.create (t : Nat) (noisy degraded : Bool) (booking : Bucket) : Bank :=
  { openCount := t
    times := Vector.replicate 16 0
    counts := Counts.zero
    countNoisy := noisy
    degraded := degraded
    booking := booking
    segStart := t
    runStart := none }

/-! ### Efficiency figures -/

/-- A time of a row of buckets. -/
def timeOf (times : Vector Nat 16) (k : Bucket) : Nat := Tab.get times k.index

/-- The sum of the five P buckets (R133). -/
def plannedTime (times : Vector Nat 16) : Nat :=
  ((Category.all.filter Category.planned).map fun c => timeOf times (.cat c)).sum

/-- The figures of a bank or a reading (R133 to R135), each division rounding down. -/
def figures (scheduled : Nat) (times : Vector Nat 16) (counts : Counts) (hasOutput : Bool) :
    Figures :=
  let loading := scheduled - plannedTime times
  let availability :=
    if loading = 0 then none else some (10000 * timeOf times .u / loading)
  let performance :=
    if !hasOutput || counts.ideal = 0 then none
    else if counts.t ≤ counts.ideal then some (10000 * counts.t / counts.ideal)
    else some 10000
  let overspeed := hasOutput && counts.ideal ≠ 0 && counts.ideal < counts.t
  let good := counts.t - counts.j
  let quality := if !hasOutput || counts.t = 0 then none else some (10000 * good / counts.t)
  let oee :=
    match availability, performance, quality with
    | some a, some p, some q => some (a * p * q / 100000000)
    | _, _, _ => none
  { loading, good, availability, performance, quality, oee, overspeed,
    rejectExcess := decide (counts.t < counts.j) }

/-- The bank as it reports itself at `t`: the segments in progress taken as ended there (R132).
The bank itself is unchanged. -/
def Bank.view (b : Bank) (t rate : Nat) (hasOutput : Bool) : BankView :=
  let b' := (b.book t).credit t rate
  let scheduled := t - b.openCount
  { scheduled
    times := b'.times
    counts := b'.counts
    countNoisy := b.countNoisy
    degraded := b.degraded
    figures := figures scheduled b'.times b'.counts hasOutput }

/-- The rated rate in force for a line; 0 while it is unset, which no in-service line has (R70). -/
def State.rate (s : State) (n : LineId) : Nat := (s.lineDef n).rate.getD 0

/-- The current bank of a line as reported at `t`. -/
def State.bankView (s : State) (n : LineId) (b : Bank) (t : Nat) : BankView :=
  b.view t (s.rate n) (s.lineDef n).output.isSome

/-! ### Which bucket a line books in -/

/-- The category of the last contributor of a record. -/
def Stoppage.lastCategory (r : Stoppage) : Category :=
  match r.contributors.getLast? with
  | some c => c.category
  | none => .unassigned

/-- The booking bucket of an in-service line, fixed by its state (R118). -/
def LineLive.bucket (l : LineLive) : Bucket :=
  match l.state with
  | .running => .u
  | .pendingStop => .n
  | .down => match l.slot with
    | some r => .cat r.lastCategory
    | none => .x
  | .planned => match l.plan with
    | some p => if p.overrun then .o else .cat p.category
    | none => .x
  | .resuming => .x
  | .outOfService => .x

/-- Book line `n` afresh at `t`: the segment in progress is booked, and the bucket of the line's
state is taken (R118, R119). -/
def State.rebook (s : State) (n : LineId) (t : Nat) : State :=
  s.modLine n fun l => { l with bank := l.bank.map fun b => b.switch t l.bucket }

/-- Line `n` enters a state at `t`: its stamp is the hall clock there (R69), a running segment ends
or begins (R131), and the booking follows the state (R119). -/
def State.enterLine (s : State) (n : LineId) (st : LineState) (t : Nat) : State :=
  let rate := s.rate n
  let stamp := s.hallAt t
  let s := s.modLine n fun l =>
    { l with
      state := st
      stamp := stamp
      bank := l.bank.map fun b =>
        let b := b.credit t rate
        if st = .running then { b with runStart := some t } else b }
  s.rebook n t

/-! ### Counts -/

/-- An OUTPUT counting edge of line `n` (R125). -/
def State.countOutput (s : State) (n : LineId) : State :=
  let planned := (s.line n).state = .planned
  s.modBank n fun b => b.modCounts fun c =>
    if planned then { c with c := saturate (c.c + 1) } else { c with t := saturate (c.t + 1) }

/-- A REJECT counting edge of line `n`, as a reject or as a stray; none in PLANNED (R126). -/
def State.countReject (s : State) (n : LineId) (stray : Bool) : State :=
  if (s.line n).state = .planned then s
  else s.modBank n fun b => b.modCounts fun c =>
    if stray then { c with stray := saturate (c.stray + 1) }
    else { c with j := saturate (c.j + 1) }

/-- Set the bank's COUNT-NOISY marker (R129). -/
def State.markCountNoisy (s : State) (n : LineId) : State :=
  s.modBank n fun b => { b with countNoisy := true }

/-- Set the bank's DEGRADED marker (R128). -/
def State.markBankDegraded (s : State) (n : LineId) : State :=
  s.modBank n fun b => { b with degraded := true }

/-! ### Station tallies -/

/-- A station tally as created (R62). -/
def StationTally.zero : StationTally :=
  { times := Vector.replicate 7 0, rootDown := 0, rootDownCount := 0, rootMicro := 0,
    rootMicroCount := 0, pace := 0 }

/-- Add time to a state of a tally. -/
def StationTally.addTime (y : StationTally) (st : StationState) (e : Nat) : StationTally :=
  { y with times := Tab.modify y.times st.index (· + e) }

/-- A station's tally with its present segment taken as ended at `t` (R62, R65). -/
def StationLive.tallyAt (v : StationLive) (t : Nat) : Option StationTally :=
  v.tally.map fun y => y.addTime v.state (t - v.since)

/-- Book the present state segment of a station up to `t` and begin another (R62). -/
def StationLive.bookAt (v : StationLive) (t : Nat) : StationLive :=
  { v with tally := v.tallyAt t, since := t }

/-- Create the tallies of a line's members at `t` (R62). -/
def State.openTallies (s : State) (n : LineId) (t : Nat) : State :=
  (s.members n).foldl
    (fun s k => s.modStation k fun v => { v with tally := some StationTally.zero, since := t }) s

/-- Remove the tallies of a line's members. -/
def State.dropTallies (s : State) (n : LineId) : State :=
  (s.members n).foldl (fun s k => s.modStation k fun v => { v with tally := none }) s

/-- Add each contributor's duration to its station's root-down or root-micro time, and 1 to the
count of contributor 1's station (R63). -/
def State.creditRoots (s : State) (micro : Bool) (cs : List Contributor) : State :=
  let s := cs.foldl
    (fun s c => s.modTally c.station fun y =>
      if micro then { y with rootMicro := y.rootMicro + c.duration }
      else { y with rootDown := y.rootDown + c.duration }) s
  match cs with
  | [] => s
  | c :: _ => s.modTally c.station fun y =>
    if micro then { y with rootMicroCount := saturate (y.rootMicroCount + 1) }
    else { y with rootDownCount := saturate (y.rootDownCount + 1) }

end Sys2Proof.Machine
end

