-- ==== Sys2Proof/Machine/Journal.lean ====
section
/-! DEFINITION. The stoppage journal (chapter 06): entry (R97, R98), overflow (R99), lapsing (R100 to
R102), records by key, and the moves classification makes (R107, R122). -/

namespace Sys2Proof.Machine

/-- Why a record closes (R97). -/
inductive CloseKind where
  | returned | plan | outage | shiftEnd
deriving DecidableEq, Repr

/-- The markers of a record closing for a reason (R84). -/
def CloseKind.mark (k : CloseKind) (m : RecordMarkers) : RecordMarkers :=
  match k with
  | .returned => m
  | .plan => { m with plan := true }
  | .outage => { m with outage := true }
  | .shiftEnd => { m with shiftEnd := true }

/-- The state in which a record closed at `t` enters the journal while the counter reads `now`
(R97, R98). `deadline` is in cs. -/
def entryRecordState (kind : CloseKind) (confirmed : Bool) (deadline t now : Nat) : RecordState :=
  if confirmed then .confirmed
  else match kind with
    | .shiftEnd => .lapsed
    | .returned | .plan | .outage =>
      if deadline = 0 then .lapsed
      else if kind = .outage ∧ t + deadline ≤ now then .lapsed
      else .unconfirmed (t + deadline)

/-- The contributors of a stoppage with the last one's time taken up to `t`. -/
def sealLast (since t : Nat) : List Contributor → List Contributor
  | [] => []
  | [c] => [{ c with duration := t - since }]
  | c :: d :: rest => c :: sealLast since t (d :: rest)

/-- The contributors of a stoppage as of `t` (R91). -/
def Stoppage.contributorsAt (r : Stoppage) (t : Nat) : List Contributor :=
  sealLast r.lastSince t r.contributors

/-- A record enters the journal, making room when it is full (R99). -/
def State.journalEnter (s : State) (r : JournalRecord) : State :=
  let s :=
    if Config.journalCapacity ≤ s.journal.length then
      { s with journal := s.journal.drop 1, lost := saturate (s.lost + 1) }.latch .journalOverflow
    else s
  { s with journal := s.journal ++ [r] }

/-- Lapse a record if it is unsettled. -/
def JournalRecord.lapse (r : JournalRecord) : JournalRecord :=
  if r.state.settled then r else { r with state := .lapsed }

/-- Lapse every unsettled record of a line's closing shift (R101). -/
def State.lapseShift (s : State) (n : LineId) (serial : Nat) : State :=
  { s with journal := s.journal.map fun r =>
      if r.line = n ∧ r.serial = serial then r.lapse else r }

/-- A record is due to lapse at `t`: UNCONFIRMED with its expiry instant reached (R100). -/
def JournalRecord.due (r : JournalRecord) (t : Nat) : Bool :=
  match r.state with
  | .unconfirmed e => e ≤ t
  | .held _ => false
  | .confirmed => false
  | .lapsed => false

/-- Lapse the records whose deadlines passed by `t` (R102). -/
def State.lapseDue (s : State) (t : Nat) : State :=
  { s with journal := s.journal.map fun r => if r.due t then r.lapse else r }

/-! ### Keys -/

/-- Whether a record has a key. -/
def JournalRecord.hasKey (r : JournalRecord) (k : Key) : Bool :=
  r.line.val = k.line.toNat && r.serial = k.serial.toNat && r.number = k.number.toNat

/-- The record in the journal with a key. -/
def State.record? (s : State) (k : Key) : Option JournalRecord :=
  s.journal.find? fun r => r.hasKey k

/-- Change the record with a key. -/
def State.modRecord (s : State) (k : Key) (f : JournalRecord → JournalRecord) : State :=
  { s with journal := s.journal.map fun r => if r.hasKey k then f r else r }

/-- The open record in a line's slot. -/
def LineLive.openRecord (l : LineLive) : Option (Stoppage × Nat) :=
  match l.slot with
  | some r => match r.kind with
    | .record m => some (r, m)
    | .candidate _ => none
  | none => none

/-- The line's open record has a key. -/
def State.openHasKey (s : State) (k : Key) : Bool :=
  match (s.line (lineOfByte k.line)).openRecord with
  | some (r, m) => r.serial = k.serial.toNat && m = k.number.toNat
  | none => false

/-- The key names the candidate in the line's slot by its future number (R104). -/
def State.candidateHasKey (s : State) (k : Key) : Bool :=
  let l := s.line (lineOfByte k.line)
  l.state = .pendingStop && k.serial.toNat = l.serial && k.number.toNat = l.nextNumber

/-- The checks of a key before the owner looks at the record (R104, R110): a candidate's key is
NOT-JOURNALED, a key found nowhere is NOT-FOUND. -/
def State.keyRefusal (s : State) (k : Key) : Option Refused :=
  firstRefusal
    [refuseIf (s.candidateHasKey k) .notJournaled 0,
     refuseIf (!(s.record? k).isSome && !s.openHasKey k) .notFound 0]

/-! ### Moves -/

/-- Move contributor 1's time between the buckets of two categories in a line's current bank, the
segment in progress being booked first (R122). -/
def State.moveTime (s : State) (n : LineId) (source target : Category) (amount : Nat) : State :=
  s.modBank n fun b => (b.book s.now).transfer (.cat source) (.cat target) amount

/-- Give contributor 1 a category (R106). -/
def recategorise (c : Category) : List Contributor → List Contributor
  | [] => []
  | d :: rest => { d with category := c } :: rest

end Sys2Proof.Machine
end

