-- ==== Sys2Proof/Machine/Tracker.lean ====
section
/-! DEFINITION. The line tracker (chapter 05): the attribution walk (R77 to R79), candidates and
records (R74 to R76, R80 to R84), evaluation (R71), and what a line does with the changes of its
members (R73). -/

namespace Sys2Proof.Machine

/-! ### Current cause -/

/-- A station's current cause; 0 for none (R55). -/
def StationLive.currentCause (v : StationLive) : CauseCode :=
  match v.state with
  | .faulted => match v.reported with
    | some r => r.cause
    | none => 1
  | .halted => match v.reported with
    | some r => r.cause
    | none => 2
  | .stalled => 3
  | .running | .blocked | .starved | .unmonitored => 0

/-! ### The walk -/

/-- The direction of a walk (R77). -/
inductive Direction where
  | upstream | downstream
deriving DecidableEq, Repr

/-- The station state that passes a walk on (R78). -/
def Direction.same : Direction → StationState
  | .upstream => .starved
  | .downstream => .blocked

/-- The memory kind that passes a walk on (R78). -/
def Direction.kind : Direction → MemoryKind
  | .upstream => .starved
  | .downstream => .blocked

/-- UNDERFEED or BACKUP (R78). -/
def Direction.shortage : Direction → CauseCode
  | .upstream => 4
  | .downstream => 5

/-- NO-SUPPLY or NO-DISCHARGE (R78). -/
def Direction.runOut : Direction → CauseCode
  | .upstream => 6
  | .downstream => 7

/-- A memory is within the lookback of `lookback` cs at `t` (R79). -/
def StopMemory.within (m : StopMemory) (lookback t : Nat) : Bool := t ≤ m.endCount + lookback

/-- How a walk judges a station it reaches: none to step on, or the cause it ends with (R78). -/
def judge (d : Direction) (lookback t : Nat) (v : StationLive) : Option CauseCode :=
  match v.state with
  | .faulted | .halted | .stalled => some v.currentCause
  | .unmonitored => some 9
  | .blocked | .starved => if v.state = d.same then none else some 8
  | .running =>
    match v.memory with
    | none => some d.shortage
    | some m =>
      if m.within lookback t then
        if m.kind = d.kind then none
        else if m.kind = .own then some m.cause
        else some d.shortage
      else some d.shortage

/-- Step through the stations in one direction; `last` is the last one reached (R78). -/
def State.walkOn (s : State) (d : Direction) (lookback : Nat) (last : StationId) :
    List StationId → StationId × CauseCode
  | [] => (last, d.runOut)
  | k :: rest =>
    match judge d lookback s.now (s.station k) with
    | none => s.walkOn d lookback k rest
    | some c => (k, c)

/-- The members upstream of a station, nearest first (R78). -/
def upstreamOf (k : StationId) (members : List StationId) : List StationId :=
  (members.takeWhile fun m => m != k).reverse

/-- The members downstream of a station, nearest first (R78). -/
def downstreamOf (k : StationId) (members : List StationId) : List StationId :=
  (members.dropWhile fun m => m != k).drop 1

/-- The attribution walk of line `n` from its constraint `k` (R77). The manual makes no walk while
the constraint is RUNNING; the answer then is not used. -/
def State.walkFrom (s : State) (n : LineId) (k : StationId) : StationId × CauseCode :=
  let lookback := (s.lineDef n).lookback * 100
  match (s.station k).state with
  | .starved => s.walkOn .upstream lookback k (upstreamOf k (s.members n))
  | .blocked => s.walkOn .downstream lookback k (downstreamOf k (s.members n))
  | .faulted | .halted | .stalled | .running => (k, (s.station k).currentCause)
  | .unmonitored => (k, 9)

/-- The walk of a line. An in-service line always has a constraint (R70). -/
def State.walk (s : State) (n : LineId) : StationId × CauseCode :=
  match (s.lineDef n).constraint with
  | some k => s.walkFrom n k
  | none => (0, 9)

/-! ### The DEGRADED marker -/

/-- The DEGRADED test on the record in the slot; its setting marks the bank (R84, R128). -/
def State.testDegraded (s : State) (n : LineId) : State :=
  match (s.line n).slot with
  | none => s
  | some r =>
    if !r.markers.degraded && (s.constraintDegraded n || (s.station r.walkStation).degraded) then
      (s.modSlot n fun r => { r with markers := { r.markers with degraded := true } }
        ).markBankDegraded n
    else s

/-! ### The stoppage in the slot -/

/-- A contributor made now (R42, R81). -/
def State.newContributor (s : State) (w : StationId × CauseCode) : Contributor :=
  { station := w.1, cause := w.2, category := contributorCategory s.settings w.2, duration := 0 }

/-- Move each contributor's duration from N to the bucket of its category, in order (R121). -/
def Bank.promoteTimes (b : Bank) (cs : List Contributor) : Bank :=
  cs.foldl (fun b c => b.transfer .n (.cat c.category) c.duration) b

/-- Promote the candidate of line `n` at `t`: it takes the next number, its time leaves N, and the
line enters DOWN (R76, R121). -/
def State.promote (s : State) (n : LineId) (t : Nat) : State :=
  match (s.line n).slot with
  | none => s
  | some r =>
    let s := s.modLine n fun l =>
      { l with
        slot := some { r with kind := .record l.nextNumber }
        nextNumber := l.nextNumber + 1
        bank := l.bank.map fun b =>
          ((b.book t).promoteTimes (r.contributorsAt t)).modCounts fun c =>
            { c with stoppage := saturate (c.stoppage + 1) } }
    s.enterLine n .down t

/-- A candidate opens on line `n`, which enters PENDING-STOP; with a threshold of 0 it is promoted
at once (R74, R76). -/
def State.openCandidate (s : State) (n : LineId) : State :=
  let w := s.walk n
  let threshold := (s.lineDef n).threshold * 100
  let r : Stoppage :=
    { kind := .candidate (s.now + threshold)
      startStamp := s.hall
      startCount := s.now
      entryState := s.constraintState n
      serial := (s.line n).serial
      operatorCause := none
      markers := RecordMarkers.clear
      contributors := [s.newContributor w]
      lastSince := s.now
      walkStation := w.1 }
  let s := s.modLine n fun l => { l with slot := some r }
  let s := (s.enterLine n .pendingStop s.now).testDegraded n
  if threshold = 0 then s.promote n s.now else s

/-- The candidate of line `n` ends as a micro-stop at `t`: N moves to M, the stations are credited
and the slot is emptied (R75, R121). The line's next state is the caller's. -/
def State.endMicro (s : State) (n : LineId) (t : Nat) : State :=
  match (s.line n).slot with
  | none => s
  | some r =>
    let s := s.modLine n fun l =>
      { l with
        slot := none
        bank := l.bank.map fun b =>
          let b := b.book t
          (b.transfer .n .m (b.time .n)).modCounts fun c =>
            { c with micro := saturate (c.micro + 1) } }
    s.creditRoots true (r.contributorsAt t)

/-- The journal record made of an open record closed at `t` (R83, R97). -/
def State.closedRecord (s : State) (n : LineId) (r : Stoppage) (number : Nat) (kind : CloseKind)
    (t : Nat) : JournalRecord :=
  { line := n
    serial := r.serial
    number := number
    startStamp := r.startStamp
    duration := t - r.startCount
    entryState := r.entryState
    state := entryRecordState kind r.operatorCause.isSome ((s.lineDef n).deadline * 100) t s.now
    operatorCause := r.operatorCause
    markers := kind.mark r.markers
    contributors := r.contributorsAt t }

/-- The open record of line `n` closes at `t`: it enters the journal, the stations are credited and
the slot is emptied (R83). The line's next state is the caller's. -/
def State.closeRecord (s : State) (n : LineId) (kind : CloseKind) (t : Nat) : State :=
  match (s.line n).openRecord with
  | none => s
  | some (r, m) =>
    let s := s.journalEnter (s.closedRecord n r m kind t)
    let s := s.creditRoots false (r.contributorsAt t)
    s.modLine n fun l => { l with slot := none }

/-- Evaluate line `n` on its constraint's state (R71). -/
def State.evaluate (s : State) (n : LineId) : State :=
  match s.constraintState n with
  | .running => s.enterLine n .running s.now
  | .unmonitored => s.enterLine n .resuming s.now
  | .stalled | .faulted | .halted | .blocked | .starved => s.openCandidate n

/-- Re-walk line `n`: the last contributor goes on, a contributor is appended, or the record is
capped (R80 to R82). -/
def State.rewalk (s : State) (n : LineId) : State :=
  match (s.line n).slot with
  | none => s
  | some r =>
    let w := s.walk n
    let same : Bool := match r.contributors.getLast? with
      | some c => c.station == w.1 && c.cause == w.2
      | none => false
    let r := { r with walkStation := w.1 }
    let s :=
      if same then s.modLine n fun l => { l with slot := some r }
      else if Config.contributorCapacity ≤ r.contributors.length then
        s.modLine n fun l =>
          { l with slot := some { r with markers := { r.markers with capped := true } } }
      else
        let c := s.newContributor w
        (s.modLine n fun l =>
          { l with slot := some { r with
              contributors := r.contributorsAt s.now ++ [c]
              lastSince := s.now } }).rebook n s.now
    s.testDegraded n

/-! ### Changes of the members -/

/-- A member's state or current cause differs between two states (R59). -/
def memberChanged (old new : State) (k : StationId) : Bool :=
  (old.station k).state != (new.station k).state
    || (old.station k).currentCause != (new.station k).currentCause

/-- The degraded flag of a station differs between two states (R61). -/
def degradedChanged (old new : State) (k : StationId) : Bool :=
  (old.station k).degraded != (new.station k).degraded

/-- Line `n` takes the changes of its members that one event made, old to new: the degraded flags
first, then the state and cause changes by R73. -/
def State.lineNews (old s : State) (n : LineId) : State :=
  if !s.inService n then s
  else match (s.lineDef n).constraint with
    | none => s
    | some k =>
      let s1 := if degradedChanged old s k && (s.station k).degraded then s.markBankDegraded n else s
      let walked := match (s.line n).slot with
        | some r => degradedChanged old s r.walkStation
        | none => false
      let s2 := if degradedChanged old s k || walked then s1.testDegraded n else s1
      let mine := memberChanged old s k
      let others := (s.members n).any fun m => m != k && memberChanged old s m
      let st := (s.station k).state
      match (s.line n).state with
      | .resuming => if mine && st != .unmonitored then s2.evaluate n else s2
      | .running => if mine && st != .running then s2.openCandidate n else s2
      | .pendingStop =>
        if mine && st == .running then (s2.endMicro n s.now).enterLine n .running s.now
        else if mine || others then s2.rewalk n
        else s2
      | .down =>
        if mine && st == .running then (s2.closeRecord n .returned s.now).enterLine n .running s.now
        else if mine || others then s2.rewalk n
        else s2
      | .planned => s2
      | .outOfService => s2

/-- Every in-service line takes the changes of its members. The lines take one event, and enter the
records they close into the journal, in line-number order: R83 and R95 say so for boundaries and warm
starts, and for every other event it is the model's choice (assumption 31). -/
def State.settleLines (old s : State) : State := allLines.foldl (fun s n => State.lineNews old s n) s

end Sys2Proof.Machine
end

