-- ==== Sys2Proof/Machine/Evaluator.lean ====
section
/-! DEFINITION. The station evaluator (chapter 04): derivation (R51), state changes with their causes
and memories (R55 to R60), stalls and pace (R52, R53), degraded flags (R61), and the rebuilding of
live state (R50, R67). -/

namespace Sys2Proof.Machine

/-! ### Derivation -/

/-- A present point whose effective level is ON is asserted (R51). -/
def State.asserted (s : State) (p : Option PointId) : Bool :=
  match p with
  | some p => s.effective p == .on
  | none => false

/-- The state of a station with a RUN point asserted: STALLED stays until a pace edge (R51, R53). -/
def StationState.whileRunning : StationState → StationState
  | .stalled => .stalled
  | .unmonitored | .running | .faulted | .halted | .blocked | .starved => .running

/-- The state of a station derived from the effective levels of its points (R51). -/
def State.derivedState (s : State) (k : StationId) : StationState :=
  match s.stationDef k with
  | none => .unmonitored
  | some d =>
    match d.run with
    | none => .unmonitored
    | some p =>
      match s.effective p with
      | .unsettled => .unmonitored
      | .on => (s.station k).state.whileRunning
      | .off =>
        if s.asserted d.fault then .faulted
        else if s.asserted d.block then .blocked
        else if s.asserted d.starve then .starved
        else .halted

/-! ### State changes -/

/-- The full time of a station's stall timer in cs, when it has a stall timeout and a pace source
(R53); its line's service is the caller's to check. -/
def State.stallTime (s : State) (k : StationId) : Option Nat :=
  match s.stationDef k with
  | none => none
  | some d => if d.stall ≠ 0 ∧ (s.paceSource k).isSome then some (d.stall * 100) else none

/-- Whether a station's line is in service. -/
def State.stationServed (s : State) (k : StationId) : Bool :=
  match s.lineOf k with
  | some n => s.inService n
  | none => false

/-- The expiry a stall timer started now has, if the station has one (R53). -/
def State.stallStart (s : State) (k : StationId) : Option Nat :=
  if s.stationServed k then (s.stallTime k).map fun e => s.now + e else none

/-- The last-stop memory an entry into RUNNING sets, by the state left (R60). -/
def StationLive.memoryLeft (v : StationLive) (stamp count : Nat) : Option StopMemory :=
  match v.state with
  | .faulted | .halted | .stalled =>
    some { kind := .own, cause := v.currentCause, endStamp := stamp, endCount := count }
  | .starved => some { kind := .starved, cause := 0, endStamp := stamp, endCount := count }
  | .blocked => some { kind := .blocked, cause := 0, endStamp := stamp, endCount := count }
  | .unmonitored => none
  | .running => v.memory

/-- A station's live state after a state change at (`stamp`, `count`), with the timer given
(R57 to R60, R62). -/
def StationLive.change (v : StationLive) (st : StationState) (stamp count : Nat)
    (timer : Option Nat) : StationLive :=
  let w := { v.bookAt count with state := st, stamp := stamp, stallExpiry := none }
  match st with
  | .running =>
    { w with reported := none, memory := v.memoryLeft stamp count, stallExpiry := timer }
  | .faulted | .halted =>
    match v.armed with
    | some a => { w with reported := some ⟨a.cause, stamp⟩, armed := none }
    | none => w
  | .unmonitored | .stalled | .blocked | .starved => w

/-- A station enters a state (R51). -/
def State.changeStation (s : State) (k : StationId) (st : StationState) : State :=
  let timer := s.stallStart k
  let stamp := s.hall
  s.modStation k fun v => v.change st stamp s.now timer

/-- A station re-derives its state; one that yields the present state is no change (R51). -/
def State.derive (s : State) (k : StationId) : State :=
  let st := s.derivedState k
  if st = (s.station k).state then s else s.changeStation k st

/-- Form a station's degraded flag from its points (R61). -/
def State.refreshDegraded (s : State) (k : StationId) : State :=
  let d := s.degradedNow k
  s.modStation k fun v => { v with degraded := d }

/-- A point of the station has another effective level than before (R10). -/
def pointsMoved (old new : State) (k : StationId) : Bool :=
  match new.stationDef k with
  | none => false
  | some d => d.points.any fun p => old.effective p != new.effective p

/-- The stations take the changes of their points that one event made, old to new, and hand their
own changes to their lines (R10, R51, R59, R61). -/
def State.settlePoints (old s : State) : State :=
  let moved := allStations.filter fun k => pointsMoved old s k
  let s := allStations.foldl (fun s k => s.refreshDegraded k) s
  let s := moved.foldl (fun s k => s.derive k) s
  State.settleLines old s

/-! ### Pace and stall -/

/-- A station receives a pace edge (R52, R53). -/
def State.paceEdge (s : State) (k : StationId) : State :=
  let s1 := s.modTally k fun y => { y with pace := saturate (y.pace + 1) }
  match (s.station k).state with
  | .running =>
    let timer := s.stallStart k
    s1.modStation k fun v => { v with stallExpiry := timer }
  | .stalled => State.settleLines s (s1.changeStation k .running)
  | .unmonitored | .faulted | .halted | .blocked | .starved => s1

/-- A stall timer has reached its expiry (R53). -/
def State.stallDue (s : State) (k : StationId) : Bool :=
  let v := s.station k
  match v.stallExpiry with
  | some e => v.state == .running && e ≤ s.now
  | none => false

/-- An armed report has reached its expiry instant (R58). -/
def State.armedDue (s : State) (k : StationId) : Bool :=
  match (s.station k).armed with
  | some a => a.expiry ≤ s.now
  | none => false

/-- A line entering service starts the stall timers of its RUNNING members (R54). -/
def State.startTimers (s : State) (n : LineId) : State :=
  (s.members n).foldl
    (fun s k =>
      if (s.station k).state = .running then
        let timer := (s.stallTime k).map fun e => s.now + e
        s.modStation k fun v => { v with stallExpiry := timer }
      else s) s

/-- A line leaving service discards the stall timers of its members; a STALLED member enters
RUNNING (R54). -/
def State.stopTimers (s : State) (n : LineId) : State :=
  (s.members n).foldl
    (fun s k =>
      let s := if (s.station k).state = .stalled then s.changeStation k .running else s
      s.modStation k fun v => { v with stallExpiry := none }) s

/-! ### Rebuilding live state -/

/-- Live state rebuilt as UNMONITORED with causes, memory and timer removed; the tally is kept and
its time goes to UNMONITORED (R67). -/
def StationLive.rebuilt (v : StationLive) (stamp : Nat) : StationLive :=
  { v with state := .unmonitored, stamp := stamp, reported := none, armed := none, memory := none,
           stallExpiry := none }

/-- Rebuild every station at a start or a recall, form the degraded flags from the points, and let
each station whose RUN point is forced derive at once (R67). -/
def State.rebuildStations (s : State) : State :=
  let stamp := s.hall
  let s := { s with stations := Tab.mapAll (fun _ v => v.rebuilt stamp) s.stations }
  let s := allStations.foldl (fun s k => s.refreshDegraded k) s
  allStations.foldl (fun s k => s.derive k) s

/-- Rebuild one station at DEFINE-STATION (R50). -/
def State.rebuildStation (s : State) (k : StationId) : State :=
  let stamp := s.hall
  let s := s.modStation k fun v => v.rebuilt stamp
  let s := s.refreshDegraded k
  let st := s.derivedState k
  s.modStation k fun v => { v with state := st }

end Sys2Proof.Machine
end

