-- ==== Sys2Proof/Machine/Layouts.lean ====
section
/-! DEFINITION. The byte layouts of replies and archive entries (R178, R180, R181). -/

/-- The stored image's contents as the bytes its check covers. R169 gives them no layout, so nothing
constrains it (assumption 8). -/
opaque Sys2Proof.Config.imageLayout : Sys2Proof.Machine.Settings → List Sys2Proof.Byte

namespace Sys2Proof.Machine

/-! ### Fields -/

/-- A number as `w` bytes, most significant first (R178). -/
def be (w n : Nat) : List Byte :=
  (List.range w).reverse.map fun i => BitVec.ofNat 8 (n / 256 ^ i)

/-- A field of `w` bytes. A value that does not fit shows a value the manual does not state
(assumption 7). -/
def field (w n : Nat) : List Byte :=
  if n < 256 ^ w then be w n else be w (Config.overflowField w n)

/-- A stamp (R178). -/
def stamp (t : Nat) : List Byte := field 6 t

/-- A flag byte (R178). -/
def flag (b : Bool) : Byte := if b then 1 else 0

/-- An optional field with its presence byte (R178). -/
def optional {α : Type} (bytes : α → List Byte) : Option α → List Byte
  | none => [0]
  | some a => 1 :: bytes a

/-- A cause that may be none (R178). -/
def causeOrNone (c : Option CauseCode) : Byte := c.getD 0

/-- An efficiency figure, FFFFh when absent (R178). -/
def figure : Option Nat → List Byte
  | none => [0xFF, 0xFF]
  | some n => field 2 n

/-- A byte of the layout of station `k` that the manual does not state (assumption 6): `place` 0 is
the position, 1 and 2 the stall timeout. -/
def State.unstated (s : State) (k : StationId) (place : Nat) : Byte :=
  Config.unstatedByte (3 * k.val + place) s.now

/-! ### Plans, contributors, records -/

/-- The elapsed planned time of a plan at `t` (R86). -/
def Plan.elapsedAt (p : Plan) (t : Nat) : Nat :=
  match p.since with
  | some a => p.elapsed + (t - a)
  | none => p.elapsed

/-- The plan layout (R180). -/
def Plan.bytes (p : Plan) (t : Nat) : List Byte :=
  [p.cause, p.category.code] ++ stamp p.startStamp ++ optional (field 4) p.expected
    ++ field 4 (p.elapsedAt t) ++ [flag p.overrun]

/-- The contributor layout (R180). -/
def Contributor.bytes (c : Contributor) : List Byte :=
  [idByte c.station, c.cause, c.category.code] ++ field 4 c.duration

/-- A list of contributors with its count. -/
def contributorBytes (cs : List Contributor) : List Byte :=
  BitVec.ofNat 8 cs.length :: cs.flatMap Contributor.bytes

/-- The deadline remaining (R96). -/
def RecordState.remaining (r : RecordState) (t : Nat) : Option Nat :=
  match r with
  | .unconfirmed e => some (e - t)
  | .held k => some k
  | .confirmed => none
  | .lapsed => none

/-- The key of a journal record (R179). -/
def JournalRecord.keyBytes (r : JournalRecord) : List Byte :=
  idByte r.line :: (field 4 r.serial ++ field 4 r.number)

/-- The record layout (R180). -/
def JournalRecord.bytes (r : JournalRecord) (t : Nat) : List Byte :=
  r.keyBytes ++ stamp r.startStamp ++ field 4 r.duration
    ++ [r.entryState.code, r.state.code, causeOrNone r.operatorCause]
    ++ optional (field 4) (r.state.remaining t) ++ [r.markers.byte] ++ contributorBytes r.contributors

/-- The open layout (R91, R180). -/
def Stoppage.bytes (r : Stoppage) (t : Nat) : List Byte :=
  let number : Nat := match r.kind with
    | .candidate _ => 0
    | .record m => m
  let kind : Byte := match r.kind with
    | .candidate _ => 1
    | .record _ => 2
  let left : Nat := match r.kind with
    | .candidate e => e - t
    | .record _ => 0
  kind :: (field 4 number ++ field 4 r.serial ++ stamp r.startStamp ++ [r.entryState.code]
    ++ field 4 (t - r.startCount) ++ [causeOrNone r.operatorCause, r.markers.byte] ++ field 4 left
    ++ contributorBytes (r.contributorsAt t))

/-! ### Lines and stations -/

/-- The definition of a line as DEFINE-LINE and READ-LINE report it (R179, R180). -/
def State.lineDefBytes (s : State) (n : LineId) : List Byte :=
  let d := s.lineDef n
  [idByte n, idOrNone d.constraint] ++ optional (fun i => [idByte i]) d.output
    ++ BitVec.ofNat 8 d.rejects.length :: d.rejects.map idByte

/-- What the slot holds, with the number of an open record (R180). -/
def LineLive.slotBytes (l : LineLive) : List Byte :=
  match l.slot with
  | none => 0 :: field 4 0
  | some r => match r.kind with
    | .candidate _ => 1 :: field 4 0
    | .record m => 2 :: field 4 m

/-- The line layout (R90, R180). -/
def State.lineBytes (s : State) (n : LineId) : List Byte :=
  let d := s.lineDef n
  let l := s.line n
  s.lineDefBytes n ++ field 4 (d.rate.getD 0) ++ field 2 d.threshold ++ field 2 d.lookback
    ++ field 2 d.deadline ++ [l.state.code] ++ stamp l.stamp ++ field 4 l.serial
    ++ optional stamp l.openStamp ++ field 4 l.nextNumber ++ l.slotBytes
    ++ optional (fun p => Plan.bytes p s.now) l.plan

/-- The settings of a defined station, from its line to its stall timeout (R179, R180). A station
without a line has no position, and the byte in its place is not stated (assumption 6). -/
def State.stationDefBytes (s : State) (k : StationId) (d : StationDef) : List Byte :=
  let place : List Byte := match d.place with
    | some p => [idByte p.line, idByte p.position]
    | none => [0xFF, s.unstated k 0]
  place ++ optional (fun p => [idByte p]) d.run ++ optional (fun p => [idByte p]) d.fault
    ++ optional (fun p => [idByte p]) d.block ++ optional (fun p => [idByte p]) d.starve
    ++ optional (fun i => [idByte i]) d.pace ++ field 2 d.stall

/-- The station-tally layout (R181). -/
def StationTally.bytes (y : StationTally) : List Byte :=
  y.times.toList.flatMap (field 4) ++ field 4 y.rootDown ++ field 4 y.rootDownCount
    ++ field 4 y.rootMicro ++ field 4 y.rootMicroCount ++ field 4 y.pace

/-- The last-stop memory as reported (R64). -/
def StopMemory.bytes (m : StopMemory) (t : Nat) : List Byte :=
  [m.kind.code, m.cause] ++ stamp m.endStamp ++ field 4 (t - m.endCount)

/-- The station layout (R64, R180). -/
def State.stationBytes (s : State) (k : StationId) : List Byte :=
  match s.stationDef k with
  | none => [idByte k, 0]
  | some d =>
    let v := s.station k
    [idByte k, 1] ++ s.stationDefBytes k d ++ [v.state.code] ++ stamp v.stamp ++ [v.currentCause]
      ++ optional (fun r : Reported => r.cause :: stamp r.stamp) v.reported
      ++ optional (fun a : Armed => a.cause :: field 2 (a.expiry - s.now)) v.armed
      ++ optional (fun m => StopMemory.bytes m s.now) v.memory ++ [flag v.degraded]
      ++ optional StationTally.bytes (if s.stationServed k then v.tallyAt s.now else none)

/-! ### Banks and archive entries -/

/-- The categories of the D buckets, in order (R181). -/
def unplannedCategories : List Category := Category.all.filter fun c => !c.planned

/-- The categories of the P buckets, in order (R181). -/
def plannedCategories : List Category := Category.all.filter Category.planned

/-- The bank layout (R181). -/
def BankView.bytes (v : BankView) : List Byte :=
  let time := timeOf v.times
  field 4 v.scheduled ++ field 4 (time .u)
    ++ unplannedCategories.flatMap (fun c => field 4 (time (.cat c)))
    ++ field 4 (time .m) ++ field 4 (time .o)
    ++ plannedCategories.flatMap (fun c => field 4 (time (.cat c)))
    ++ field 4 (time .x) ++ field 4 (time .n)
    ++ field 4 v.counts.t ++ field 4 v.counts.j ++ field 4 v.counts.c ++ field 4 v.counts.stray
    ++ field 4 v.counts.micro ++ field 4 v.counts.stoppage ++ field 4 v.counts.ideal
    ++ field 4 v.counts.remainder
    ++ field 4 v.figures.loading ++ field 4 v.figures.good
    ++ figure v.figures.availability ++ figure v.figures.performance ++ figure v.figures.quality
    ++ figure v.figures.oee ++ [v.markerByte]

/-- The tally layout of a line and a reading of its bank (R136, R181). -/
def State.tallyBytes (s : State) (n : LineId) (v : BankView) : List Byte :=
  let l := s.line n
  [idByte n, l.state.code] ++ field 4 l.serial ++ stamp (l.openStamp.getD 0) ++ stamp s.hall
    ++ v.bytes

/-- The archive header (R181). -/
def ClosedBank.header (b : ClosedBank) : List Byte :=
  idByte b.line :: (field 4 b.serial ++ stamp b.openStamp ++ stamp b.closeStamp
    ++ [b.reason.code, flag b.deferred])

/-- The contents of a stored entry, which its check covers (R151, R181). -/
def ClosedBank.contents (b : ClosedBank) : List Byte :=
  b.header ++ b.view.bytes ++ BitVec.ofNat 8 b.members.length
    :: b.members.flatMap fun m => idByte m.1 :: m.2.bytes

/-- A staged bank as its write stores it, with its check (R151). -/
def ClosedBank.stored (b : ClosedBank) : Stored := { bank := b, check := crc16 b.contents }

/-- The check of an image with given contents: the CRC-16 of the message link over them (R169). -/
def imageCheck (g : Settings) : BitVec 16 := crc16 (Config.imageLayout g)

/-- An image is damaged when its check does not agree with its contents (R169). -/
def Image.damaged (i : Image) : Bool := i.check ≠ imageCheck i.contents

/-- An entry is damaged when its check does not agree with its contents (R151). -/
def Stored.damaged (e : Stored) : Bool := e.check ≠ crc16 e.bank.contents

end Sys2Proof.Machine
end

