-- ==== Sys2Proof/Machine/Shifts.lean ====
section
/-! DEFINITION. The shift calendar (R144), the archive write queue (R150), and the shift close with
the opening of the next shift (R145 to R148). -/

namespace Sys2Proof.Machine

/-! ### Boundary instants -/

/-- The first boundary instant of a schedule later than `t` (R144). -/
def firstBoundaryAfter (schedule : List Nat) (t : Nat) : Option Nat :=
  let day := t / Config.dayLength * Config.dayLength
  match schedule.find? fun v => t < day + v with
  | some v => some (day + v)
  | none => schedule.head?.map fun v => day + Config.dayLength + v

/-- The latest boundary instant of a schedule at or before `t` (R144). -/
def lastBoundaryBy (schedule : List Nat) (t : Nat) : Option Nat :=
  let day := t / Config.dayLength * Config.dayLength
  match schedule.reverse.find? fun v => day + v ≤ t with
  | some v => some (day + v)
  | none =>
    if day = 0 then none else schedule.getLast?.map fun v => day - Config.dayLength + v

/-- How many boundary instants of a schedule are at or before `t`. -/
def boundariesBy (schedule : List Nat) (t : Nat) : Nat :=
  t / Config.dayLength * schedule.length
    + schedule.countP fun v => v ≤ t % Config.dayLength

/-- The next boundary: the first boundary instant later than both the hall clock and the last
boundary taken; none while the clock is not set or the schedule is empty (R144). Boundary instants are
not taken modulo 2^48, so one at or beyond 2^48 is formed and not reached: the model's choice
(assumption 33). -/
def State.nextBoundary (s : State) : Option Nat :=
  if s.clock.isSet then
    firstBoundaryAfter s.settings.schedule (max s.hall (s.clock.lastBoundary.getD 0))
  else none

/-- The next boundary is formed afresh (R144). -/
def State.formBoundary (s : State) : State :=
  let b := s.nextBoundary
  { s with clock := { s.clock with nextBoundary := b } }

/-! ### The archive write queue -/

/-- Service of the queue's head begins: a settings write copies the working settings as they stand
(R170). -/
def State.serveHead (s : State) : State :=
  match s.queue with
  | .settings :: _ => { s with settingsCopy := some s.settings }
  | .bank _ :: _ => { s with settingsCopy := none }
  | [] => { s with settingsCopy := none }

/-- An item joins the queue, and is served at once when no write is in progress (R150). -/
def State.queueJoin (s : State) (w : WriteItem) : State :=
  if s.queue.isEmpty then State.serveHead { s with queue := [w] }
  else { s with queue := s.queue ++ [w] }

/-- The write in progress leaves the queue, and the next item is served (R150). -/
def State.queuePop (s : State) : State := State.serveHead { s with queue := s.queue.drop 1 }

/-! ### Closing a shift -/

/-- The stoppage in the slot at a shift close: a candidate is promoted, and the open record closes
with SHIFT-END (R147). -/
def State.settleSlot (s : State) (n : LineId) (t : Nat) : State :=
  match (s.line n).slot with
  | none => s
  | some r =>
    let s := match r.kind with
      | .candidate _ => s.promote n t
      | .record _ => s
    s.closeRecord n .shiftEnd t

/-- The station tallies of a line's members, closed at `t` (R62, R137). -/
def State.closedTallies (s : State) (n : LineId) (t : Nat) : List (StationId × StationTally) :=
  (s.members n).filterMap fun k => ((s.station k).tallyAt t).map fun y => (k, y)

/-- The closed bank of a line, gathered at `t` (R137, R148). -/
def State.gather (s : State) (n : LineId) (b : Bank) (reason : CloseReason) (deferred : Bool)
    (t : Nat) : ClosedBank :=
  { line := n
    serial := (s.line n).serial
    openStamp := (s.line n).openStamp.getD 0
    closeStamp := s.hallAt t
    reason
    deferred
    view := s.bankView n b t
    members := s.closedTallies n t }

/-- The closed bank is placed in the staging buffer and joins the write queue (R148, R150). -/
def State.stage (s : State) (n : LineId) (reason : CloseReason) (deferred : Bool) (t : Nat) :
    State :=
  match (s.line n).bank with
  | none => s
  | some b =>
    let closed := s.gather n b reason deferred t
    (s.modLine n fun l => { l with staging := some closed }).queueJoin (.bank n)

/-- The stages of a shift close at `t`, up to the staging of the bank (R147, R148, R101). -/
def State.closeShift (s : State) (n : LineId) (reason : CloseReason) (deferred : Bool) (t : Nat) :
    State :=
  let s := s.settleSlot n t
  (s.lapseShift n (s.line n).serial).stage n reason deferred t

/-- A shift opens at `t` with a serial: stamp, numbers, bank and station tallies (R71, R117, R148).
The bank books by the line's state. -/
def State.openShift (s : State) (n : LineId) (serial t : Nat) : State :=
  let openStamp := s.hallAt t
  let noisy := s.lineNoisy n
  let degraded := s.constraintDegraded n
  let s := s.modLine n fun l =>
    let running := if l.state = .running then some t else none
    { l with
      serial
      openStamp := some openStamp
      nextNumber := match l.slot with
        | some _ => 2
        | none => 1
      bank := some { Bank.create t noisy degraded l.bucket with runStart := running } }
  s.openTallies n t

/-- The continuation of a stoppage in the shift that follows, opened at `t` (R148). Its walk result
is the closed record's: no walk is made for it. -/
def State.continuation (s : State) (n : LineId) (r : Stoppage) (serial t : Nat) : Stoppage :=
  let c : Contributor := match r.contributors.getLast? with
    | some c => s.newContributor (c.station, c.cause)
    | none => s.newContributor (r.walkStation, 9)
  { kind := .record 1
    startStamp := s.hallAt t
    startCount := t
    entryState := s.constraintState n
    serial
    operatorCause := none
    markers := { RecordMarkers.clear with continued := true }
    contributors := [c]
    lastSince := t
    walkStation := r.walkStation }

/-- A line's shift closes at `t` and the next one opens there, with a continuation record when a
stoppage was in the slot (R147, R148). -/
def State.turnShift (s : State) (n : LineId) (reason : CloseReason) (deferred : Bool) (t : Nat) :
    State :=
  let serial := serialAfter (s.line n).serial 1
  let slot := (s.line n).slot
  let s := s.closeShift n reason deferred t
  match slot with
  | none => s.openShift n serial t
  | some r =>
    let c := s.continuation n r serial t
    ((s.modLine n fun l => { l with slot := some c }).openShift n serial t).testDegraded n

/-! ### Boundaries -/

/-- A boundary is handed to line `n` (R145). -/
def State.lineBoundary (s : State) (n : LineId) : State :=
  if !s.inService n then s
  else if (s.line n).staging.isSome then s.modLine n fun l => { l with deferred := true }
  else s.turnShift n .boundary false s.now

/-- A boundary is taken, and recorded as the last one taken (R144). -/
def State.takeBoundary (s : State) (b : Nat) : State :=
  let s : State := { s with clock := { s.clock with lastBoundary := some b } }
  allLines.foldl State.lineBoundary s.formBoundary

/-- The hall clock has reached the next boundary (R144). -/
def State.boundaryDue (s : State) : Option Nat :=
  s.clock.nextBoundary.filter fun b => b ≤ s.hall

/-- A line's S has reached the limit (R146). A close needs an empty staging buffer, which R146 says
it finds (assumption 15); a shift that passed its limit in an outage it was opened in may not find it
(assumption 39). -/
def State.lengthDue (s : State) (n : LineId) : Bool :=
  match (s.line n).bank with
  | some b => b.openCount + Config.shiftLimit ≤ s.now && (s.line n).staging.isNone
  | none => false

/-- A line's shift closes at its limit when it has reached it, and the next one opens (R146). -/
def State.takeLimit (s : State) (n : LineId) : State :=
  if s.lengthDue n then s.turnShift n .length false s.now else s

/-- Every shift that has reached its limit closes there, in line-number order (R146). -/
def State.takeLimits (s : State) : State := allLines.foldl State.takeLimit s

/-- The write of a staged bank completes (R150, R151): the entry becomes the newest, the oldest
beyond eight ceases to exist, and the staging buffer becomes empty. -/
def State.bankWritten (s : State) (n : LineId) : State :=
  match (s.line n).staging with
  | none => s.queuePop
  | some b =>
    let s : State := { s with
      archive := Tab.modify s.archive n fun es => (b.stored :: es).take Config.archiveCapacity }
    (s.modLine n fun l => { l with staging := none }).queuePop

/-- A deferred boundary pending for line `n` is taken (R145). -/
def State.takeDeferred (s : State) (n : LineId) : State :=
  if (s.line n).deferred then
    (s.modLine n fun l => { l with deferred := false }).turnShift n .boundary true s.now
  else s

end Sys2Proof.Machine
end

