-- ==== Sys2Proof/Machine/Serve.lean ====
section
/-! DEFINITION. Taking a request: when it is received (R158, R167), the common checks (R162), the
owner's answer, and the reply (R161). -/

namespace Sys2Proof.Machine

/-- What the owner of a request answers: a DONE body, a refusal, or nothing yet (STORE-SETTINGS,
whose reply is formed at the completion of the write, R160). -/
inductive Answer where
  | done (body : List Byte)
  | refused (r : Refused)
  | later
deriving DecidableEq, Repr

/-- The reply an answer forms (R161). -/
def Answer.reply (kind : RequestKind) : Answer → Option Reply
  | .done body => some { kind := kind.code + 0x80, body }
  | .refused r => some { kind := 0xFF, body := [kind.code, r.reason.code, r.detail] }
  | .later => none

/-- A request is received only between a start and the next failure, while no reply is owed (R158,
R167). -/
def State.receives (s : State) : Bool := s.power.running && s.link.serving == .ready

/-- The refusal of check 3: the kind is guarded and the guard forbids it (R162, R174). -/
def State.guardCheck (s : State) (kind : RequestKind) : Option Refused :=
  if kind.guarded then
    (guardRefusal s.guardMode s.pins.key).map fun detail => ⟨.guarded, detail⟩
  else none

/-- The common checks that follow the kind's: length, guard, range (R162). -/
def State.commonRefusal (s : State) (kind : RequestKind) (length range : Option Refused) :
    Option Refused :=
  firstRefusal [length, s.guardCheck kind, range]

/-- The link controller owes a reply, formed or to be formed (R159, R161). -/
def State.owe (s : State) (reply : Option Reply) : State :=
  { s with link := { s.link with serving := .serving, reply } }

/-- A request is taken: the common checks, then the owner's checks and effects, then its reply
(R160 to R162). A request that is not received changes nothing (R158). -/
def State.serve (s : State) (kind : RequestKind) (length range : Option Refused)
    (owner : State → State × Answer) : State :=
  if s.receives then
    match s.commonRefusal kind length range with
    | some r => s.owe ((Answer.refused r).reply kind)
    | none =>
      let result := owner s
      result.1.owe (result.2.reply kind)
  else s

/-- An owner that first makes its own checks: a refused request changes no state (R161). -/
def checked (refusal : State → Option Refused) (effect : State → State × List Byte) (s : State) :
    State × Answer :=
  match refusal s with
  | some r => (s, .refused r)
  | none =>
    let result := effect s
    (result.1, .done result.2)

/-- An owner that reads: it changes no state. -/
def reading (refusal : State → Option Refused) (body : State → List Byte) (s : State) :
    State × Answer :=
  checked refusal (fun s => (s, body s)) s

/-- No refusal. -/
def accepted (_ : State) : Option Refused := none

/-- A request of a line that must be in service (R161). -/
def State.notInService (s : State) (line : Byte) : Option Refused :=
  refuseIf (!s.inService (lineOfByte line)) .notInService line

/-- A request that names a line which must be out of service. -/
def State.lineBusyService (s : State) (n : LineId) : Option Refused :=
  refuseIf (s.inService n) .inService (idByte n)

end Sys2Proof.Machine
end

