-- ==== Sys2Proof/Machine/Causes.lean ====
section
/-! DEFINITION. The commands of the cause table (chapter 03): SET_CAUSE, READ_CAUSE. -/

namespace Sys2Proof.Machine

/-- A code below 10 names no host entry (R40). -/
def hostCodeRange (code : Byte) : Option Refused :=
  refuseIf (code.toNat < 10) .outOfRange code

/-- The range check of SET-CAUSE: the category and the scope are examined only with the defined flag
set (R40, R162). With both the code and the scope out of range the code is the detail: the model's
choice (assumption 30). -/
def causeRange (code defined : Byte) (scope : Carried Byte) : Option Refused :=
  firstRefusal
    [hostCodeRange code, if defined = 0 then none else carriedAbove scope 63]

/-- The refusals of SET-CAUSE after its range (R40). -/
def causeRefusal (code defined category : Byte) (scope : Carried Byte) (_ : State) :
    Option Refused :=
  if defined = 0 then none
  else match Category.ofByte category with
    | none => some ⟨.malformed, 2⟩
    | some c => firstRefusal
      [presenceBad scope 3,
       refuseIf (c == .unassigned) .cause code,
       refuseIf (c.planned && scope.presence != 0) .cause code]

/-- The entry SET-CAUSE carries (R39, R40). -/
def causeTaken (defined category : Byte) (scope : Carried Byte) : Option CauseEntry :=
  if defined = 0 then none
  else (Category.ofByte category).map fun c => { category := c, scope := carriedStation scope }

/-- The host entry of a code becomes what a request carries (R40). -/
def Settings.setCause (g : Settings) (code : CauseCode) (e : Option CauseEntry) : Settings :=
  if h : 10 ≤ code.toNat then
    { g with causes := Tab.set g.causes ⟨code.toNat - 10, by have := code.isLt; omega⟩ e }
  else g

/-- A cause entry as the replies carry it, from the defined flag on (R179). -/
def causeEntryBytes (e : Option CauseEntry) : List Byte :=
  flag e.isSome :: (optional (fun e : CauseEntry => [e.category.code]) e
    ++ optional (fun k => [idByte k]) (e.bind CauseEntry.scope))

/-- SET_CAUSE (R40, R41). -/
def execSetCause (code defined category : Byte) (scope : Carried Byte) (s : State) :
    Host.Outcome State Fault Refusal :=
  .next (s.serve .setCause none (causeRange code defined scope)
    (checked (causeRefusal code defined category scope) fun s =>
      let e := causeTaken defined category scope
      (s.modSettings fun g => g.setCause code e, code :: causeEntryBytes e)))

/-- The entry of any code, the built-in ones included (R38, R46). -/
def causeEntry (g : Settings) (code : CauseCode) : Option CauseEntry :=
  if builtIn code then some { category := .unassigned, scope := none } else hostEntry g code

/-- READ_CAUSE (R46). -/
def execReadCause (code : Byte) (s : State) : Host.Outcome State Fault Refusal :=
  .next (s.serve .readCause none (refuseIf (code = 0) .outOfRange code) (reading accepted fun s =>
    code :: flag (builtIn code) :: causeEntryBytes (causeEntry s.settings code)))

end Sys2Proof.Machine
end

