-- ==== Sys2Proof/Machine/Acquisition.lean ====
section
/-! DEFINITION. Acquisition: the matrix points (chapter 01) and the count inputs with their counting
edges and qualification windows (chapter 02). -/

namespace Sys2Proof.Machine

/-! ### Points -/

/-- A point becomes noisy; in HOLD-ON-NOISE it takes a held level (R5, R9). -/
def PointAcq.becomeNoisy (a : PointAcq) (d : PointSettings) : PointAcq :=
  if a.noisy then a
  else { a with
    noisy := true
    held := if d.mode = .holdOnNoise then a.accepted.value? else none }

/-- The noisy flag is cleared, and a held level with it (R6, R9). -/
def PointAcq.clearNoisy (a : PointAcq) : PointAcq := { a with noisy := false, held := none }

/-- The activity count is increased by 1, stopping at 255 (R2); reaching the chatter limit makes the
point noisy and latches POINT-NOISY, the second result (R5). -/
def PointAcq.bump (a : PointAcq) (d : PointSettings) : PointAcq × Bool :=
  if 255 ≤ a.activity then (a, false)
  else
    let a := { a with activity := a.activity + 1 }
    if d.limit ≠ 0 ∧ a.activity = d.limit then (a.becomeNoisy d, true) else (a, false)

/-- An accepted transition to a level (R2). -/
def PointAcq.accept (a : PointAcq) (d : PointSettings) (b : Bool) : PointAcq × Bool :=
  PointAcq.bump { a with accepted := Level.of b, run := 0 } d

/-- One scan of a point with a raw level (R2, R3). -/
def PointAcq.scan (a : PointAcq) (d : PointSettings) (raw : Bool) : PointAcq × Bool :=
  match a.accepted.value? with
  | none =>
    let run := if a.lastRaw = some raw then a.run + 1 else 1
    if d.debounce ≤ run then
      ({ a with accepted := Level.of raw, run := 0, lastRaw := some raw }, false)
    else ({ a with run := run, lastRaw := some raw }, false)
  | some level =>
    let a := { a with lastRaw := some raw }
    if raw = level then
      if a.run = 0 then (a, false) else ({ a with run := 0 } : PointAcq).bump d
    else if a.run + 1 = d.debounce then a.accept d raw
    else ({ a with run := a.run + 1 }, false)

/-- A point at a chatter window end: the clearing test, then the count returns to 0 (R4, R6). -/
def PointAcq.windowEnd (a : PointAcq) (d : PointSettings) : PointAcq :=
  let a := if a.noisy && a.activity < d.limit then a.clearNoisy else a
  { a with activity := 0 }

/-- The effects of a changed debounce (R12). -/
def PointAcq.newDebounce (a : PointAcq) (d : PointSettings) : PointAcq × Bool :=
  if a.run < d.debounce then (a, false)
  else match a.accepted.value? with
    | some level => a.accept d (!level)
    | none => match a.lastRaw with
      | some raw => ({ a with accepted := Level.of raw, run := 0 }, false)
      | none => (a, false)

/-- The effects of a changed chatter limit (R14). -/
def PointAcq.newLimit (a : PointAcq) (d : PointSettings) : PointAcq × Bool :=
  if d.limit = 0 then (a.clearNoisy, false)
  else if d.limit ≤ a.activity then (a.becomeNoisy d, true)
  else (a, false)

/-- The effects of a changed mode on the held level (R9). -/
def PointAcq.newMode (a : PointAcq) (d : PointSettings) : PointAcq :=
  if d.mode = .holdOnNoise then
    if a.noisy && a.held.isNone then { a with held := a.accepted.value? } else a
  else { a with held := none }

/-- The effects of a SET-POINT-MODE on a point's acquisition, in the order of R12, R13, R14 (R11;
assumption 12). -/
def PointAcq.reconfigure (a : PointAcq) (old new : PointSettings) : PointAcq × Bool :=
  let (a, n1) := if new.debounce = old.debounce then (a, false) else a.newDebounce new
  let a := if new.polarity = old.polarity then a else PointAcq.restarted
  let (a, n2) := if new.limit = old.limit then (a, false) else a.newLimit new
  let a := if new.mode = old.mode then a else a.newMode new
  (a, n1 || n2)

/-- The raw level of a read (R1). -/
def rawLevel (p : Polarity) (conducting : Bool) : Bool :=
  match p with
  | .normal => conducting
  | .inverted => !conducting

/-- The point of a drive line and a sense line: drive × 16 + sense. -/
def pointAt (drive : DriveId) (sense : Fin 16) : PointId :=
  ⟨drive.val * 16 + sense.val, by have := drive.isLt; have := sense.isLt; omega⟩

/-- A point's acquisition state is replaced, and POINT-NOISY latched where due (R5). -/
def State.putPoint (s : State) (p : PointId) (r : PointAcq × Bool) : State :=
  (s.modPoint p fun _ => r.1).latchIf r.2 .pointNoisy

/-- One point is scanned. -/
def State.scanPoint (s : State) (p : PointId) (conducting : Bool) : State :=
  let d := s.pointDef p
  s.putPoint p ((s.point p).scan d (rawLevel d.polarity conducting))

/-- The read of a drive line: its 16 points are scanned (R1). -/
def State.scanDrive (s : State) (drive : DriveId) (sense : BitVec 16) : State :=
  (List.finRange 16).foldl
    (fun s j => s.scanPoint (pointAt drive j) (sense.getLsbD j.val)) s

/-- Acquisition of every point restarts (R17). -/
def State.restartPoints (s : State) : State :=
  { s with points := Tab.mapAll (fun _ _ => PointAcq.restarted) s.points }

/-! ### Count inputs -/

/-- The role of an input is REJECT of an in-service line with an OUTPUT input, and its qualification
is present: qualification is in effect (R27). -/
def State.qualified (s : State) (i : InputId) : Option Qualification :=
  match s.roleOf i with
  | .reject n =>
    if s.inService n && (s.lineDef n).output.isSome then (s.inputDef i).qual else none
  | .none => none
  | .output _ => none
  | .pace _ => none

/-- A window is open at an instant (R27). -/
def Window.openAt (w : Window) (t : Nat) : Bool := w.opens ≤ t && t < w.closes

/-- Append a window opened by an output edge, dropping the oldest for room (R27, R28). -/
def InputAcq.appendWindow (a : InputAcq) (q : Qualification) (t : Nat) : InputAcq :=
  let room := if Config.windowCapacity ≤ a.windows.length then a.windows.drop 1 else a.windows
  let opens := t + q.offset * Config.slotsPerMs
  { a with windows := room ++ [{ opens, closes := opens + q.width * Config.slotsPerMs }] }

/-- Remove the oldest open window, if there is one (R29). -/
def consumeWindow (t : Nat) : List Window → Option (List Window)
  | [] => none
  | w :: rest => if w.openAt t then some rest else (consumeWindow t rest).map (w :: ·)

/-- Each qualified REJECT input of line `n` takes a window at an output edge (R27). -/
def State.openWindows (s : State) (n : LineId) : State :=
  (s.lineDef n).rejects.foldl
    (fun s i => match s.qualified i with
      | some q => s.modInput i fun a => a.appendWindow q s.moment
      | none => s) s

/-- Empty the window queue of every input whose qualification is not in effect (R27, R34). -/
def State.dropWindows (s : State) : State :=
  { s with
    inputs := Tab.mapAll
      (fun i a => if (s.qualified i).isSome then a else { a with windows := [] }) s.inputs }

/-- Empty the window queues of the REJECT inputs of line `n`, which enters service (R34). -/
def State.emptyQueues (s : State) (n : LineId) : State :=
  let rejects := (s.lineDef n).rejects
  { s with
    inputs := Tab.mapAll
      (fun i a => if rejects.contains i then { a with windows := [] } else a) s.inputs }

/-- A REJECT edge of an in-service line is judged against the windows (R29) and counted (R126). -/
def State.rejectEdge (s : State) (i : InputId) (n : LineId) : State :=
  match s.qualified i with
  | none => s.countReject n false
  | some _ =>
    if (s.line n).state = .planned then s
    else match consumeWindow s.moment (s.input i).windows with
      | some rest => (s.modInput i fun a => { a with windows := rest }).countReject n false
      | none => s.countReject n true

/-- An OUTPUT edge of an in-service line: the count, the windows, and the constraint's pace when it
has no PACE input of its own (R24, R125). -/
def State.outputEdge (s : State) (i : InputId) (n : LineId) : State :=
  let s := (s.countOutput n).openWindows n
  match (s.lineDef n).constraint with
  | some k => if s.paceSource k = some i then s.paceEdge k else s
  | none => s

/-- A counting edge: the raw counter rises, wrapping, and the edge is handed on by the input's role
(R23, R24). -/
def State.countingEdge (s : State) (i : InputId) : State :=
  let s := s.modInput i fun a => { a with raw := a.raw + 1 }
  match s.roleOf i with
  | .none => s
  | .output n => if s.inService n then s.outputEdge i n else s
  | .reject n => if s.inService n then s.rejectEdge i n else s
  | .pace k => if s.stationServed k then s.paceEdge k else s

/-- An accepted change to `active` is a counting edge in the direction of the edge setting (R23). -/
def Edge.counts (e : Edge) (active : Bool) : Bool :=
  match e with
  | .leading => active
  | .trailing => !active

/-- The glitch count is increased by 1, stopping at 255; the second result says that it reached the
glitch limit (R21, R25). -/
def InputAcq.glitch (a : InputAcq) (d : InputSettings) : InputAcq × Bool :=
  if 255 ≤ a.glitches then (a, false)
  else
    let a := { a with glitches := a.glitches + 1 }
    if d.limit ≠ 0 ∧ a.glitches = d.limit then ({ a with noisy := true }, true) else (a, false)

/-- What one sample of an input does to its record: the record, whether it reached the glitch limit,
and the accepted change it made, if any (R21, R22). -/
structure Sampled where
  acq : InputAcq
  noisy : Bool
  change : Option Bool
deriving DecidableEq, Repr

/-- One sample of an input (R21, R22). -/
def InputAcq.sample (a : InputAcq) (d : InputSettings) (active : Bool) : Sampled :=
  match a.accepted.value? with
  | none =>
    let run := if a.lastSample = some active then a.run + 1 else 1
    if d.debounce ≤ run then
      ⟨{ a with accepted := Level.of active, run := 0, lastSample := some active }, false, none⟩
    else ⟨{ a with run := run, lastSample := some active }, false, none⟩
  | some level =>
    let a := { a with lastSample := some active }
    if active = level then
      if a.run = 0 then ⟨a, false, none⟩
      else
        let r := InputAcq.glitch { a with run := 0 } d
        ⟨r.1, r.2, none⟩
    else if a.run + 1 = d.debounce then
      ⟨{ a with accepted := Level.of active, run := 0 }, false, some active⟩
    else ⟨{ a with run := a.run + 1 }, false, none⟩

/-- The effects of a changed debounce of an input (R31). -/
def InputAcq.newDebounce (a : InputAcq) (d : InputSettings) : Sampled :=
  if a.run < d.debounce then ⟨a, false, none⟩
  else match a.accepted.value? with
    | some level => ⟨{ a with accepted := Level.of (!level), run := 0 }, false, some (!level)⟩
    | none => match a.lastSample with
      | some b => ⟨{ a with accepted := Level.of b, run := 0 }, false, none⟩
      | none => ⟨a, false, none⟩

/-- The effects of a changed glitch limit (R31). -/
def InputAcq.newLimit (a : InputAcq) (d : InputSettings) : InputAcq × Bool :=
  if d.limit = 0 then ({ a with noisy := false }, false)
  else if d.limit ≤ a.glitches then ({ a with noisy := true }, true)
  else (a, false)

/-- An input at a glitch window end (R26). -/
def InputAcq.windowEnd (a : InputAcq) (d : InputSettings) : InputAcq :=
  { a with noisy := a.noisy && !(a.glitches < d.limit), glitches := 0 }

/-- An input's glitch count reached its limit: COUNT-NOISY is latched, and when the input has become
noisy the bank of its in-service line is marked (R25, R26, R129). -/
def State.handNoisy (s : State) (i : InputId) (wasNoisy : Bool) : State :=
  let s := s.latch .countNoisy
  if wasNoisy then s
  else match s.servedLine i with
    | some n => s.markCountNoisy n
    | none => s

/-- Put the result of a sample into an input's record, and hand on what it made. -/
def State.putSample (s : State) (i : InputId) (r : Sampled) : State :=
  let wasNoisy := (s.input i).noisy
  let s := s.modInput i fun _ => r.acq
  let s := if r.noisy then s.handNoisy i wasNoisy else s
  match r.change with
  | some active => if (s.inputDef i).edge.counts active then s.countingEdge i else s
  | none => s

/-- A frame begins, and samples are taken again (R36). -/
def State.beginFrame (s : State) : State := { s with awaitsFrame := false }

/-- The sampler takes the sample of a slot. Slot 0 begins when its frame begins (R19), so it ends the
wait for the next frame (R36; assumption 35). -/
def State.samples (s : State) (slot : SlotId) : Bool := !s.awaitsFrame || slot == 0

/-- A slot begins: the input it names is sampled (R19, R20). -/
def State.sampleSlot (s : State) (slot : SlotId) (active : Bool) : State :=
  match Tab.get s.installed slot with
  | none => s
  | some i => s.putSample i ((s.input i).sample (s.inputDef i) active)

/-- An input at an installation that changes its slots (R33). -/
def InputAcq.installed (a : InputAcq) (before after : Nat) : InputAcq :=
  if before ≠ 0 ∧ after = 0 then { a with accepted := .unsettled, run := 0, lastSample := none }
  else if before = 0 ∧ after ≠ 0 then { a with accepted := .unsettled, run := 0, lastSample := none }
  else a

/-- The slot table set by SET-SLOTS is installed at the beginning of a frame (R33). -/
def State.installSlots (s : State) : State :=
  { s with
    installed := s.settings.slots
    awaitsFrame := false
    inputs := Tab.mapAll
      (fun i a => a.installed (slotCount s.installed i) (slotCount s.settings.slots i)) s.inputs }

/-- Acquisition of an input restarts; the raw counter is kept (R36). -/
def InputAcq.restart (a : InputAcq) : InputAcq := { InputAcq.cold with raw := a.raw }

/-- Acquisition of every count input restarts, under the slot table as it stands (R36). At a start a
frame begins (R19); a recall waits for the next one. -/
def State.restartInputs (s : State) : State :=
  { s with
    installed := s.settings.slots
    awaitsFrame := false
    inputs := Tab.mapAll (fun _ a => a.restart) s.inputs }

/-! ### Chatter windows -/

/-- The first whole multiple of W × 100 cs later than `t` (R4, R15). -/
def windowEndAfter (window t : Nat) : Nat := (t / (window * 100) + 1) * (window * 100)

/-- A chatter window end: every point and input makes its clearing test, and its count returns to 0
(R4, R6, R26). -/
def State.endWindow (s : State) : State :=
  let s1 := { s with
    points := Tab.mapAll (fun p a => a.windowEnd (s.pointDef p)) s.points
    inputs := Tab.mapAll (fun i a => a.windowEnd (s.inputDef i)) s.inputs
    clock := { s.clock with windowEnd := windowEndAfter s.settings.window s.now } }
  State.settlePoints s s1

/-- Restart acquisition of all points and inputs; the window end falls at the next multiple (R17,
R36), and one due at this count and not yet taken is dropped (assumption 38). -/
def State.restartAcquisition (s : State) : State :=
  let s := s.restartPoints.restartInputs
  { s with clock := { s.clock with windowEnd := windowEndAfter s.settings.window s.now } }

end Sys2Proof.Machine
end

