-- ==== Sys2Proof/Machine/Counting.lean ====
section
/-! DEFINITION. The commands of the count sampler (chapter 02): COUNT_SAMPLE, SLOT_TABLE_INSTALL,
WINDOW_CLOSE, SET_COUNT_INPUT, SET_SLOTS, READ_COUNT_INPUT. -/

namespace Sys2Proof.Machine

/-- COUNT_SAMPLE (R19 to R29): the input the slot names is sampled. No sample is taken between a
failure and a start, or between a recall and the next frame (R36). -/
def execCountSample (slot : SlotId) (active : Bool) (s : State) :
    Host.Outcome State Fault Refusal :=
  .next (if s.power.running && s.samples slot then s.beginFrame.sampleSlot slot active else s)

/-- SLOT_TABLE_INSTALL (R33), at the beginning of a frame. -/
def execSlotTableInstall (s : State) : Host.Outcome State Fault Refusal :=
  .next (if s.power.running then s.installSlots else s)

/-- WINDOW_CLOSE (R28): the windows of the input that have reached their close instants are removed. That
none is between a failure instant and the start, main power being present, is the model's choice
(assumption 40). -/
def execWindowClose (input : InputId) (s : State) : Host.Outcome State Fault Refusal :=
  .next (if s.power.running then
      s.modInput input fun a => { a with windows := a.windows.filter fun w => s.moment < w.closes }
    else s)

/-- The settings SET-COUNT-INPUT takes (R30). -/
def inputSettingsTaken (edge debounce limit : Byte) (qual : Carried QualField) : InputSettings :=
  { edge := (Edge.ofByte edge).getD .leading
    debounce := clamp 1 15 debounce.toNat
    limit := limit.toNat
    qual := if qual.presence = 0 then none
      else some { offset := clamp 0 4095 qual.value.offset.toNat
                  width := clamp 1 4095 qual.value.width.toNat } }

/-- The refusals of SET-COUNT-INPUT after its range (R30). -/
def countInputRefusal (input edge : Byte) (qual : Carried QualField) (s : State) :
    Option Refused :=
  let i := inputOfByte input
  firstRefusal
    [refuseIf (Edge.ofByte edge).isNone .malformed 1,
     presenceBad qual 4,
     match s.servedLine i with
     | some n => refuseIf (Edge.ofByte edge != some (s.inputDef i).edge) .inService (idByte n)
     | none => none]

/-- A changed debounce of an input, its new settings being written (R31). -/
def State.changeInputDebounce (s : State) (i : InputId) : State :=
  s.putSample i ((s.input i).newDebounce (s.inputDef i))

/-- A changed glitch limit of an input, its new settings being written (R31). -/
def State.changeInputLimit (s : State) (i : InputId) : State :=
  let wasNoisy := (s.input i).noisy
  let r := (s.input i).newLimit (s.inputDef i)
  let s := s.modInput i fun _ => r.1
  if r.2 then s.handNoisy i wasNoisy else s

/-- An input's settings are written, with the effects of each that changed, in the order of R31 and
R32 (assumption 12). -/
def State.setInput (s : State) (i : InputId) (d : InputSettings) : State :=
  let old := s.inputDef i
  let s := s.modSettings fun g => { g with inputs := Tab.set g.inputs i d }
  let s := if d.debounce = old.debounce then s else s.changeInputDebounce i
  let s := if d.limit = old.limit then s else s.changeInputLimit i
  if d.qual = old.qual then s else s.modInput i fun a => { a with windows := [] }

/-- The qualification of an input as a body carries it (R179). -/
def Qualification.bytes (q : Qualification) : List Byte := field 2 q.offset ++ field 2 q.width

/-- The settings of an input as the replies carry them (R179). -/
def InputSettings.bytes (d : InputSettings) : List Byte :=
  [d.edge.code, BitVec.ofNat 8 d.debounce, BitVec.ofNat 8 d.limit]
    ++ optional Qualification.bytes d.qual

/-- SET_COUNT_INPUT (R30 to R32). -/
def execSetCountInput (input edge debounce limit : Byte) (qual : Carried QualField) (s : State) :
    Host.Outcome State Fault Refusal :=
  .next (s.serve .setCountInput none (above input 15)
    (checked (countInputRefusal input edge qual) fun s =>
      let d := inputSettingsTaken edge debounce limit qual
      (s.setInput (inputOfByte input) d, input :: d.bytes)))

/-- The slot table of a body of SET-SLOTS (R33). -/
def slotsOf (entries : List Byte) : Vector (Option InputId) 32 :=
  Vector.ofFn fun j =>
    let b := entries.getD j.val 0xFF
    if b = 0xFF then none else some (inputOfByte b)

/-- An input whose role belongs to an in-service line would be left with no slot (R33). -/
def State.losesSlots (s : State) (slots : Vector (Option InputId) 32) (i : InputId) : Bool :=
  (s.servedLine i).isSome && slotCount slots i = 0

/-- The refusals of SET-SLOTS after its range (R33): the first input is the one of the lowest number
(assumption 22). -/
def slotsRefusal (entries : List Byte) (s : State) : Option Refused :=
  (allInputs.find? (s.losesSlots (slotsOf entries))).map fun i => ⟨.inUse, idByte i⟩

/-- A table that is not of 32 entries has a body of the wrong length (R162). -/
def slotsLength (entries : List Byte) : Option Refused :=
  refuseIf (entries.length ≠ 32) .malformed (BitVec.ofNat 8 entries.length)

/-- SET_SLOTS (R33). Sampling follows the table from its installation. Of several entries out of
range the first is the detail: the model's choice (assumption 30). -/
def execSetSlots (entries : List Byte) (s : State) : Host.Outcome State Fault Refusal :=
  .next (s.serve .setSlots (slotsLength entries)
    (firstRefusal (entries.map fun b => aboveOrNone b 15))
    (checked (slotsRefusal entries) fun s =>
      (s.modSettings fun g => { g with slots := slotsOf entries }, entries)))

/-- The role of an input with the byte that follows it (R178). -/
def Role.bytes : Role → List Byte
  | .none => [0, 0xFF]
  | .output n => [1, idByte n]
  | .reject n => [2, idByte n]
  | .pace k => [3, idByte k]

/-- READ_COUNT_INPUT (R35). -/
def execReadCountInput (input : Byte) (s : State) : Host.Outcome State Fault Refusal :=
  .next (s.serve .readCountInput none (above input 15) (reading accepted fun s =>
    let i := inputOfByte input
    let a := s.input i
    input :: (s.inputDef i).bytes ++ (s.roleOf i).bytes
      ++ BitVec.ofNat 8 (slotCount s.settings.slots i) :: a.accepted.code :: bytes32 a.raw
      ++ [BitVec.ofNat 8 a.glitches, flag a.noisy, BitVec.ofNat 8 a.windows.length]))

end Sys2Proof.Machine
end

