-- ==== Sys2Proof/Machine/Lines.lean ====
section
/-! DEFINITION. The commands of the line tracker (chapter 05): DEFINE_LINE, ENABLE_LINE,
DISABLE_LINE, SET_RATE, SET_LINE_TIMERS, PLAN_BEGIN, PLAN_END, READ_LINE, READ_OPEN,
THRESHOLD_EXPIRY, PLAN_OVERRUN. -/

namespace Sys2Proof.Machine

/-! ### Definition -/

/-- The inputs a DEFINE-LINE names. -/
def lineInputsCarried (output : Carried Byte) (rejects : List Byte) : List InputId :=
  (carriedInput output).toList ++ rejects.map inputOfByte

/-- A list of more than two REJECT inputs has a body of the wrong length (R68, R162). -/
def rejectsLength (output : Carried Byte) (rejects : List Byte) : Option Refused :=
  refuseIf (2 < rejects.length) .malformed
    (BitVec.ofNat 8 (3 + carriedSize output + rejects.length))

/-- The range check of DEFINE-LINE (R68). Of several values out of range the earliest in body order is
the detail: the model's choice (assumption 30). -/
def lineRange (line constraint : Byte) (output : Carried Byte) (rejects : List Byte) :
    Option Refused :=
  firstRefusal
    ([above line 7, aboveOrNone constraint 63, carriedAbove output 15]
      ++ rejects.map fun b => above b 15)

/-- An input has a role other than OUTPUT or REJECT of line `n` (R68). -/
def State.roleElsewhere (s : State) (n : LineId) (i : InputId) : Bool :=
  match s.roleOf i with
  | .none => false
  | .output m => m != n
  | .reject m => m != n
  | .pace _ => true

/-- The refusals of DEFINE-LINE after its range (R68). Of several inputs that fail a condition the first
in field order, the OUTPUT input before the REJECT inputs, is the detail: the model's choice
(assumption 30). -/
def lineRefusal (line : Byte) (output : Carried Byte) (rejects : List Byte) (s : State) :
    Option Refused :=
  let n := lineOfByte line
  let named := lineInputsCarried output rejects
  firstRefusal
    [presenceBad output 2,
     s.lineBusyService n,
     (named.find? fun i => 2 ≤ named.count i).map fun i => ⟨.inUse, idByte i⟩,
     (named.find? (s.roleElsewhere n)).map fun i => ⟨.inUse, idByte i⟩]

/-- The definition of a line becomes the one carried; its rate and timers are kept (R68). -/
def State.defineLine (s : State) (n : LineId) (constraint : Option StationId)
    (output : Option InputId) (rejects : List InputId) : State :=
  s.modLineDef n fun d => { d with constraint, output, rejects }

/-- DEFINE_LINE (R68). -/
def execDefineLine (line constraint : Byte) (output : Carried Byte) (rejects : List Byte)
    (s : State) : Host.Outcome State Fault Refusal :=
  .next (s.serve .defineLine (rejectsLength output rejects)
    (lineRange line constraint output rejects)
    (checked (lineRefusal line output rejects) fun s =>
      let n := lineOfByte line
      let k := if constraint = 0xFF then none else some (stationOfByte constraint)
      let s := s.defineLine n k (carriedInput output) (rejects.map inputOfByte)
      (s, s.lineDefBytes n)))

/-! ### Service -/

/-- The constraint of a line is a member of it with a RUN point (R70). -/
def State.constraintReady (s : State) (n : LineId) : Bool :=
  match (s.lineDef n).constraint with
  | none => false
  | some k => (s.positionIn n k).isSome && ((s.stationDef k).bind StationDef.run).isSome

/-- The refusals of ENABLE-LINE after its range, in the order of R70. Of several inputs without a slot
the one of the lowest number is in the detail: the model's choice (assumption 30). -/
def enableRefusal (line : Byte) (s : State) : Option Refused :=
  let n := lineOfByte line
  firstRefusal
    [refuseIf (s.inService n) .state (s.line n).state.code,
     refuseIf (!s.clock.isSet) .noClock 0,
     refuseIf (s.members n).isEmpty .incomplete 1,
     refuseIf (!s.constraintReady n) .incomplete 2,
     refuseIf (s.lineDef n).rate.isNone .incomplete 3,
     ((s.lineInputs n).find? fun i => slotCount s.settings.slots i = 0).map fun i =>
       ⟨.incomplete, 0x10 + idByte i⟩]

/-- A line enters service: a shift opens, the stall timers of its members start (R54), the queues of
its REJECT inputs start empty (R34), and the line is evaluated (R71). -/
def State.enable (s : State) (n : LineId) : State :=
  let s := s.openShift n (serialAfter (s.line n).serial 1) s.now
  ((s.startTimers n).emptyQueues n).evaluate n

/-- ENABLE_LINE (R70, R71). -/
def execEnableLine (line : Byte) (s : State) : Host.Outcome State Fault Refusal :=
  .next (s.serve .enableLine none (above line 7) (checked (enableRefusal line) fun s =>
    let n := lineOfByte line
    let s := s.enable n
    let l := s.line n
    (s, line :: (field 4 l.serial ++ stamp (l.openStamp.getD 0) ++ [l.state.code]))))

/-- The refusals of DISABLE-LINE after its range (R72). -/
def disableRefusal (line : Byte) (s : State) : Option Refused :=
  let n := lineOfByte line
  firstRefusal
    [refuseIf (!s.inService n) .state (s.line n).state.code,
     refuseIf (s.line n).staging.isSome .busy line]

/-- A line's live state out of service, after its last close at a stamp (R72). -/
def LineLive.retired (l : LineLive) (stamp : Nat) : LineLive :=
  { l with state := .outOfService, stamp, openStamp := none, slot := none, plan := none,
           bank := none, deferred := false }

/-- A line leaves service: its shift closes, and its members' tallies, timers and window queues go
(R72, R54, R34). -/
def State.disable (s : State) (n : LineId) : State :=
  let stamp := s.hall
  let s := s.closeShift n .disable false s.now
  let s := (s.modLine n fun l => l.retired stamp).dropTallies n
  (s.stopTimers n).dropWindows

/-- DISABLE_LINE (R72). -/
def execDisableLine (line : Byte) (s : State) : Host.Outcome State Fault Refusal :=
  .next (s.serve .disableLine none (above line 7) (checked (disableRefusal line) fun s =>
    let n := lineOfByte line
    let s := s.disable n
    (s, line :: field 4 (s.line n).serial)))

/-! ### Rate and timers -/

/-- A line takes a rate; a running segment is first credited at the old one (R88, R131). -/
def State.setRate (s : State) (n : LineId) (rate : Nat) : State :=
  let old := s.rate n
  let now := s.now
  let s := if (s.line n).state = .running then
      s.modBank n fun b => { b.credit now old with runStart := some now }
    else s
  s.modLineDef n fun d => { d with rate := some rate }

/-- SET_RATE (R88). -/
def execSetRate (line : Byte) (rate : BitVec 32) (s : State) :
    Host.Outcome State Fault Refusal :=
  .next (s.serve .setRate none (above line 7)
    (checked (fun _ => refuseIf (rate = 0) .outOfRange 0) fun s =>
      let r := clamp 1 150000 rate.toNat
      (s.setRate (lineOfByte line) r, line :: field 4 r)))

/-- The candidate of a line meets a new threshold in cs: promoted at once, or its expiry moved
(R89). -/
def State.newThreshold (s : State) (n : LineId) (threshold : Nat) : State :=
  match (s.line n).slot with
  | none => s
  | some r => match r.kind with
    | .record _ => s
    | .candidate _ =>
      if threshold ≤ s.now - r.startCount then s.promote n s.now
      else s.modSlot n fun r => { r with kind := .candidate (r.startCount + threshold) }

/-- The timers of a line are written (R89). -/
def State.setTimers (s : State) (n : LineId) (threshold lookback deadline : Nat) : State :=
  (s.modLineDef n fun d => { d with threshold, lookback, deadline }).newThreshold n
    (threshold * 100)

/-- SET_LINE_TIMERS (R89). -/
def execSetLineTimers (line : Byte) (threshold lookback deadline : BitVec 16) (s : State) :
    Host.Outcome State Fault Refusal :=
  .next (s.serve .setLineTimers none (above line 7) (checked accepted fun s =>
    let t := clamp 0 600 threshold.toNat
    let k := clamp 0 3600 lookback.toNat
    let d := clamp 0 7200 deadline.toNat
    (s.setTimers (lineOfByte line) t k d, line :: (field 2 t ++ field 2 k ++ field 2 d))))

/-! ### Plans -/

/-- The refusals of PLAN-BEGIN after its range (R85, R178). -/
def planRefusal (line cause : Byte) (expected : Carried (BitVec 32)) (s : State) :
    Option Refused :=
  firstRefusal
    [presenceBad expected 2,
     s.notInService line,
     refuseIf (planCategory s.settings cause).isNone .cause cause]

/-- The expected duration PLAN-BEGIN takes, in seconds (R85). -/
def expectedTaken (expected : Carried (BitVec 32)) : Option Nat :=
  if expected.presence = 0 then none else some (clamp 1 86400 expected.value.toNat)

/-- What became of the slot at a PLAN-BEGIN: nothing, a micro-stop, or the record closed (R85). -/
def LineLive.slotOutcome (l : LineLive) : List Byte :=
  match l.slot with
  | none => 0 :: field 4 0
  | some r => match r.kind with
    | .candidate _ => 1 :: field 4 0
    | .record m => 2 :: field 4 m

/-- The stoppage in the slot ends for a plan: a candidate as a micro-stop, an open record with
marker PLAN (R85). -/
def State.endForPlan (s : State) (n : LineId) : State :=
  match (s.line n).slot with
  | none => s
  | some r => match r.kind with
    | .candidate _ => s.endMicro n s.now
    | .record _ => s.closeRecord n .plan s.now

/-- A plan made now (R85). -/
def State.newPlan (s : State) (cause : CauseCode) (category : Category) (expected : Option Nat) :
    Plan :=
  { cause, category, startStamp := s.hall, expected, elapsed := 0, since := some s.now,
    overrun := false }

/-- A line begins a plan and enters PLANNED (R85). -/
def State.beginPlan (s : State) (n : LineId) (p : Plan) : State :=
  ((s.endForPlan n).modLine n fun l => { l with plan := some p }).enterLine n .planned s.now

/-- PLAN_BEGIN (R85). -/
def execPlanBegin (line cause : Byte) (expected : Carried (BitVec 32)) (s : State) :
    Host.Outcome State Fault Refusal :=
  .next (s.serve .planBegin none (above line 7) (checked (planRefusal line cause expected) fun s =>
    let n := lineOfByte line
    let p := s.newPlan cause ((planCategory s.settings cause).getD .changeover)
      (expectedTaken expected)
    (s.beginPlan n p, line :: (p.bytes s.now ++ (s.line n).slotOutcome))))

/-- The refusal of PLAN-END after its range (R87). -/
def planEndRefusal (line : Byte) (s : State) : Option Refused :=
  let l := s.line (lineOfByte line)
  refuseIf (l.state ≠ .planned) .state l.state.code

/-- A line's plan ends, and the line is evaluated (R87). -/
def State.endPlan (s : State) (n : LineId) : State :=
  (s.modLine n fun l => { l with plan := none }).evaluate n

/-- The plan layout of a plan that has ended; a PLANNED line has one (R69). -/
def planBytesOf (p : Option Plan) (t : Nat) : List Byte :=
  match p with
  | some p => p.bytes t
  | none => []

/-- PLAN_END (R87). -/
def execPlanEnd (line : Byte) (s : State) : Host.Outcome State Fault Refusal :=
  .next (s.serve .planEnd none (above line 7) (checked (planEndRefusal line) fun s =>
    let n := lineOfByte line
    let ended := planBytesOf (s.line n).plan s.now
    let s := s.endPlan n
    (s, line :: (ended ++ [(s.line n).state.code]))))

/-! ### Readings -/

/-- READ_LINE (R90). -/
def execReadLine (line : Byte) (s : State) : Host.Outcome State Fault Refusal :=
  .next (s.serve .readLine none (above line 7) (reading accepted fun s =>
    s.lineBytes (lineOfByte line)))

/-- READ_OPEN (R91). -/
def execReadOpen (line : Byte) (s : State) : Host.Outcome State Fault Refusal :=
  .next (s.serve .readOpen none (above line 7) (reading accepted fun s =>
    optional (fun r => Stoppage.bytes r s.now) (s.line (lineOfByte line)).slot))

/-! ### Timers -/

/-- The candidate of a line has reached its threshold expiry (R76). -/
def State.thresholdDue (s : State) (n : LineId) : Bool :=
  match (s.line n).slot with
  | some r => match r.kind with
    | .candidate e => e ≤ s.now
    | .record _ => false
  | none => false

/-- THRESHOLD_EXPIRY (R76), when the candidate has reached its threshold expiry. -/
def execThresholdExpiry (line : LineId) (s : State) : Host.Outcome State Fault Refusal :=
  .next (if s.power.running && s.thresholdDue line then s.promote line s.now else s)

/-- The plan of a line has reached its expected duration (R86). -/
def State.overrunDue (s : State) (n : LineId) : Bool :=
  match (s.line n).plan with
  | some p => match p.expected with
    | some e => !p.overrun && e * 100 ≤ p.elapsedAt s.now
    | none => false
  | none => false

/-- The overrun flag of a plan is set, and booking passes to O (R86, R119). -/
def State.overrun (s : State) (n : LineId) : State :=
  (s.modLine n fun l => { l with plan := l.plan.map fun p => { p with overrun := true } }).rebook n
    s.now

/-- PLAN_OVERRUN (R86), when the elapsed planned time has reached the expected duration. -/
def execPlanOverrun (line : LineId) (s : State) : Host.Outcome State Fault Refusal :=
  .next (if s.power.running && s.overrunDue line then s.overrun line else s)

end Sys2Proof.Machine
end

