-- ==== Sys2Proof/Machine/Matrix.lean ====
section
/-! DEFINITION. The commands of the matrix scanner (chapter 01): MATRIX_SCAN, CHATTER_WINDOW_END,
SET_POINT_MODE, SET_MONITOR, READ_POINTS. -/

namespace Sys2Proof.Machine

/-- MATRIX_SCAN (R1 to R5, R10): the 16 points of a drive line are scanned, and the stations take
their changes as one event (R51). No scan is made between a failure and a start: that scanning stops
at RESET_ASSERT, with main power present, is the model's choice (assumption 37). -/
def execMatrixScan (drive : DriveId) (sense : BitVec 16) (s : State) :
    Host.Outcome State Fault Refusal :=
  .next (if s.power.running then State.settlePoints s (s.scanDrive drive sense) else s)

/-- CHATTER_WINDOW_END (R4, R6, R26), when the interval counter has reached the window end. That none
is taken between RESET_ASSERT and the start is the model's choice (assumption 37). -/
def execChatterWindowEnd (s : State) : Host.Outcome State Fault Refusal :=
  .next (if s.power.running && s.clock.windowEnd ≤ s.now then s.endWindow else s)

/-- The refusals of SET-POINT-MODE (R11). -/
def pointModeRefusal (polarity mode : Byte) (_ : State) : Option Refused :=
  firstRefusal
    [refuseIf (Polarity.ofByte polarity).isNone .malformed 1,
     refuseIf (PointMode.ofByte mode).isNone .malformed 3]

/-- The settings SET-POINT-MODE takes (R11). -/
def pointSettingsTaken (polarity debounce mode limit : Byte) : PointSettings :=
  { polarity := (Polarity.ofByte polarity).getD .normal
    debounce := clamp 1 250 debounce.toNat
    mode := (PointMode.ofByte mode).getD .live
    limit := limit.toNat }

/-- A point's settings are written, with the effects of each that changed (R11 to R14). -/
def State.setPoint (s : State) (p : PointId) (d : PointSettings) : State :=
  let r := (s.point p).reconfigure (s.pointDef p) d
  let s1 := s.modSettings fun g => { g with points := Tab.set g.points p d }
  State.settlePoints s (s1.putPoint p r)

/-- SET_POINT_MODE (R11 to R14). -/
def execSetPointMode (point polarity debounce mode limit : Byte) (s : State) :
    Host.Outcome State Fault Refusal :=
  .next (s.serve .setPointMode none none (checked (pointModeRefusal polarity mode) fun s =>
    let d := pointSettingsTaken polarity debounce mode limit
    (s.setPoint (pointOfByte point) d,
      [point, d.polarity.code, BitVec.ofNat 8 d.debounce, d.mode.code, BitVec.ofNat 8 d.limit])))

/-- The chatter window is set, and its ends realigned (R15). That a window end due at this count and
not yet taken is dropped is the model's choice (assumption 38). -/
def State.setWindow (s : State) (w : Nat) : State :=
  let s := s.modSettings fun g => { g with window := w }
  { s with clock := { s.clock with windowEnd := windowEndAfter w s.now } }

/-- SET_MONITOR (R15). -/
def execSetMonitor (window : Byte) (s : State) : Host.Outcome State Fault Refusal :=
  .next (s.serve .setMonitor none none (checked accepted fun s =>
    let w := clamp 1 60 window.toNat
    (s.setWindow w, [BitVec.ofNat 8 w])))

/-- The count READ-POINTS takes: 1 to 64, ending at point 255 (R16). -/
def pointCountTaken (first count : Byte) : Nat := min (clamp 1 64 count.toNat) (256 - first.toNat)

/-- What READ-POINTS reports of a point (R16, R179). -/
def State.pointBytes (s : State) (p : PointId) : List Byte :=
  [(s.effective p).code, (s.point p).accepted.code, flag (s.point p).noisy]

/-- READ_POINTS (R16). -/
def execReadPoints (first count : Byte) (s : State) : Host.Outcome State Fault Refusal :=
  .next (s.serve .readPoints none none (reading accepted fun s =>
    let taken := pointCountTaken first count
    [first, BitVec.ofNat 8 taken]
      ++ (List.range taken).flatMap fun i => s.pointBytes (Fin.ofNat 256 (first.toNat + i))))

end Sys2Proof.Machine
end

