-- ==== Sys2Proof/Machine/Records.lean ====
section
/-! DEFINITION. The commands of the stoppage journal (chapter 06): CLASSIFY, HOLD_RECORD,
RELEASE_RECORD, FETCH_RECORDS, READ_JOURNAL_STATUS, DEADLINE_EXPIRY. -/

namespace Sys2Proof.Machine

/-! ### Classification -/

/-- The shift of a key is its line's current shift (R104). -/
def State.shiftCurrent (s : State) (k : Key) : Bool :=
  let n := lineOfByte k.line
  s.inService n && (s.line n).serial = k.serial.toNat

/-- The record of a key is in the journal and LAPSED. -/
def State.lapsedKey (s : State) (k : Key) : Bool :=
  match s.record? k with
  | some r => r.state == .lapsed
  | none => false

/-- The refusals of CLASSIFY after its range, in the order of R104. -/
def classifyRefusal (key : Key) (cause : Byte) (s : State) : Option Refused :=
  firstRefusal
    [s.keyRefusal key,
     refuseIf (!s.shiftCurrent key) .shiftClosed 0,
     refuseIf (s.lapsedKey key) .late 0,
     refuseIf (classifyCategory s.settings cause).isNone .cause cause]

/-- What a CLASSIFY finds of a record: contributor 1 as of now (R107). -/
def State.firstContributor (s : State) (k : Key) : Option Contributor :=
  match s.record? k with
  | some r => r.contributors.head?
  | none => match (s.line (lineOfByte k.line)).slot with
    | some r => (r.contributorsAt s.now).head?
    | none => none

/-- A journal record is classified: it is CONFIRMED, and its deadline is discarded (R106). -/
def JournalRecord.classify (r : JournalRecord) (cause : CauseCode) (c : Category) :
    JournalRecord :=
  { r with state := .confirmed, operatorCause := some cause,
           contributors := recategorise c r.contributors }

/-- The open record is classified: it stays OPEN (R106, R108). -/
def Stoppage.classify (r : Stoppage) (cause : CauseCode) (c : Category) : Stoppage :=
  { r with operatorCause := some cause, contributors := recategorise c r.contributors }

/-- Contributor 1's time is moved when its category changes (R107, R122). -/
def State.moveFirst (s : State) (n : LineId) (c1 : Contributor) (c : Category) : State :=
  if c1.category = c then s else s.moveTime n c1.category c c1.duration

/-- CLASSIFY on the record of a key, wherever it is (R106 to R108). The open record's line books
afresh: its last contributor's category may have changed (R119). -/
def State.classify (s : State) (k : Key) (cause : CauseCode) (c : Category) : State :=
  let n := lineOfByte k.line
  let s := match s.firstContributor k with
    | some c1 => s.moveFirst n c1 c
    | none => s
  if (s.record? k).isSome then s.modRecord k fun r => r.classify cause c
  else (s.modSlot n fun r => r.classify cause c).rebook n s.now

/-- The state of a record after a CLASSIFY, as reported (R106). -/
def State.classifiedCode (s : State) (k : Key) : Byte :=
  if (s.record? k).isSome then RecordState.code .confirmed else openCode

/-- The part of CLASSIFY's reply on contributor 1 and the move (R106, R179). -/
def moveBytes (c1 : Contributor) (c : Category) : List Byte :=
  [idByte c1.station, c1.category.code, c.code]
    ++ field 4 (if c1.category = c then 0 else c1.duration)

/-- CLASSIFY (R104 to R109). -/
def execClassify (key : Key) (cause : Byte) (s : State) : Host.Outcome State Fault Refusal :=
  .next (s.serve .classify none (above key.line 7) (checked (classifyRefusal key cause) fun s =>
    let c := (classifyCategory s.settings cause).getD .unassigned
    let moved := match s.firstContributor key with
      | some c1 => moveBytes c1 c
      | none => []
    (s.classify key cause c, key.bytes ++ [s.classifiedCode key, cause] ++ moved)))

/-! ### Holding -/

/-- HOLD-RECORD is taken on an UNCONFIRMED or a HELD record (R110). -/
def RecordState.holdable : RecordState → Bool
  | .unconfirmed _ => true
  | .held _ => true
  | .confirmed => false
  | .lapsed => false

/-- RELEASE-RECORD is taken on a HELD record (R111). -/
def RecordState.releasable : RecordState → Bool
  | .unconfirmed _ => false
  | .held _ => true
  | .confirmed => false
  | .lapsed => false

/-- The STATE refusal of HOLD-RECORD and RELEASE-RECORD (R110, R111). -/
def State.recordStateRefusal (s : State) (k : Key) (fits : RecordState → Bool) : Option Refused :=
  match s.record? k with
  | some r => refuseIf (!fits r.state) .state r.state.code
  | none => some ⟨.state, openCode⟩

/-- The refusals of HOLD-RECORD and RELEASE-RECORD after their range (R110, R111). -/
def holdRefusal (key : Key) (fits : RecordState → Bool) (s : State) : Option Refused :=
  firstRefusal [s.keyRefusal key, s.recordStateRefusal key fits]

/-- The deadline is frozen (R110). -/
def RecordState.hold (r : RecordState) (now : Nat) : RecordState :=
  match r with
  | .unconfirmed e => .held (e - now)
  | .held k => .held k
  | .confirmed => .confirmed
  | .lapsed => .lapsed

/-- The deadline runs on; a remainder of 0 lapses at once (R111). -/
def RecordState.release (r : RecordState) (now : Nat) : RecordState :=
  match r with
  | .held k => if k = 0 then .lapsed else .unconfirmed (now + k)
  | .unconfirmed e => .unconfirmed e
  | .confirmed => .confirmed
  | .lapsed => .lapsed

/-- The record of a key as a reply carries it whole (R110). -/
def State.recordBytes (s : State) (k : Key) : List Byte :=
  match s.record? k with
  | some r => r.bytes s.now
  | none => []

/-- HOLD_RECORD (R110). -/
def execHoldRecord (key : Key) (s : State) : Host.Outcome State Fault Refusal :=
  .next (s.serve .holdRecord none (above key.line 7)
    (checked (holdRefusal key RecordState.holdable) fun s =>
      let s := s.modRecord key fun r => { r with state := r.state.hold s.now }
      (s, s.recordBytes key)))

/-- RELEASE_RECORD (R111). -/
def execReleaseRecord (key : Key) (s : State) : Host.Outcome State Fault Refusal :=
  .next (s.serve .releaseRecord none (above key.line 7)
    (checked (holdRefusal key RecordState.releasable) fun s =>
      let s := s.modRecord key fun r => { r with state := r.state.release s.now }
      (s, s.recordBytes key)))

/-! ### Fetching -/

/-- A journal record's length in a body (R180): 25 bytes, 7 for each contributor, 4 for a deadline. -/
def JournalRecord.length (r : JournalRecord) : Nat :=
  25 + 7 * r.contributors.length + match r.state with
    | .unconfirmed _ => 4
    | .held _ => 4
    | .confirmed => 0
    | .lapsed => 0

/-- The records a fetch selects, and those it leaves: the oldest settled ones, up to `n`, while the
body stays within 240 bytes; selection ends at the first that does not fit (R113, R182). -/
def fetchFrom (n room : Nat) : List JournalRecord → List JournalRecord × List JournalRecord
  | [] => ([], [])
  | r :: rest =>
    if r.state.settled then
      if n = 0 ∨ room < r.length then ([], r :: rest)
      else
        let found := fetchFrom (n - 1) (room - r.length) rest
        (r :: found.1, found.2)
    else
      let found := fetchFrom n room rest
      (found.1, r :: found.2)

/-- What a fetch of up to `n` records selects from a journal and leaves in it (R182: the body holds
2 bytes before the records). -/
def fetched (n : Nat) (journal : List JournalRecord) : List JournalRecord × List JournalRecord :=
  fetchFrom n (Config.bodyLimit - 2) journal

/-- FETCH_RECORDS (R113, R182). -/
def execFetchRecords (count : Byte) (s : State) : Host.Outcome State Fault Refusal :=
  .next (s.serve .fetchRecords none none (checked accepted fun s =>
    let n := clamp 1 5 count.toNat
    let found := fetched n s.journal
    ({ s with journal := found.2 },
      BitVec.ofNat 8 n :: BitVec.ofNat 8 found.1.length
        :: found.1.flatMap fun r => r.bytes s.now)))

/-- How many records of the journal are settled (R115). -/
def State.settledCount (s : State) : Nat := s.journal.countP fun r => r.state.settled

/-- READ_JOURNAL_STATUS (R115). -/
def execReadJournalStatus (s : State) : Host.Outcome State Fault Refusal :=
  .next (s.serve .readJournalStatus none none (reading accepted fun s =>
    BitVec.ofNat 8 s.journal.length :: BitVec.ofNat 8 s.settledCount :: (field 4 s.lost
      ++ optional JournalRecord.keyBytes s.journal.head?
      ++ optional JournalRecord.keyBytes s.journal.getLast?)))

/-- The record of a key is due to lapse (R100). -/
def State.deadlineDue (s : State) (k : Key) : Bool :=
  match s.record? k with
  | some r => r.due s.now
  | none => false

/-- DEADLINE_EXPIRY (R100), when the record's expiry instant has been reached. That none is taken between
a failure instant and the warm start also while main power is present, with RESET asserted or the write
queue served, is the model's choice: the warm start lapses such a record by R102 (assumption 40). -/
def execDeadlineExpiry (key : Key) (s : State) : Host.Outcome State Fault Refusal :=
  .next (if s.power.running && s.deadlineDue key then s.modRecord key JournalRecord.lapse else s)

end Sys2Proof.Machine
end

