-- ==== Sys2Proof/Machine/Reports.lean ====
section
/-! DEFINITION. The commands of the tally unit, the timekeeper, the shift calendar and the archive
(chapters 07 and 08): READ_TALLY, SET_CLOCK, READ_CLOCK, SET_SCHEDULE, CLOSE_SHIFT, READ_ARCHIVE,
BOUNDARY_REACHED, SHIFT_LENGTH_LIMIT, ARCHIVE_WRITE_COMPLETE. -/

namespace Sys2Proof.Machine

/-- The reading of a line's bank, with what goes before it (R136). -/
def State.tallyReading (s : State) (n : LineId) : List Byte :=
  match (s.line n).bank with
  | some b => s.tallyBytes n (s.bankView n b s.now)
  | none => []

/-- READ_TALLY (R136). -/
def execReadTally (line : Byte) (s : State) : Host.Outcome State Fault Refusal :=
  .next (s.serve .readTally none (above line 7)
    (reading (fun s => s.notInService line) fun s => s.tallyReading (lineOfByte line)))

/-! ### The clock -/

/-- The clock offset that makes the hall clock read a hall time now (R141). -/
def State.offsetFor (s : State) (hall : Nat) : Nat :=
  (hall + (Config.clockModulus - s.now % Config.clockModulus)) % Config.clockModulus

/-- The boundary a SET-CLOCK takes: one, when a set clock is carried to or past the next boundary
(R144); none otherwise. -/
def State.jumpBoundary (s : State) (hall : Nat) : Option Nat :=
  if s.clock.isSet && s.clock.nextBoundary.any fun b => b ≤ hall then
    lastBoundaryBy s.settings.schedule hall
  else none

/-- The hall clock is set, with the boundary consequences of the jump (R141, R144). That a boundary due
at this count and not yet taken is dropped by a jump back before it is the model's choice
(assumption 38). -/
def State.setHall (s : State) (hall : Nat) : State :=
  let jump := s.jumpBoundary hall
  let s : State := { s with clock := { s.clock with offset := s.offsetFor hall, isSet := true } }
  match jump with
  | some b => s.takeBoundary b
  | none => s.formBoundary

/-- What the clock requests report (R179). -/
def State.clockBytes (s : State) : List Byte :=
  stamp s.hall ++ stamp s.now ++ [flag s.clock.isSet]

/-- SET_CLOCK (R141, R144). A broadcast is taken without a reply, and the controller stays READY
(R158 case 5). -/
def execSetClock (broadcast : Bool) (hallTime : BitVec 48) (s : State) :
    Host.Outcome State Fault Refusal :=
  .next (if broadcast then
      if s.receives then s.setHall hallTime.toNat else s
    else s.serve .setClock none none (checked accepted fun s =>
      let s := s.setHall hallTime.toNat
      (s, s.clockBytes)))

/-- READ_CLOCK (R142). -/
def execReadClock (s : State) : Host.Outcome State Fault Refusal :=
  .next (s.serve .readClock none none (reading accepted fun s =>
    s.clockBytes ++ BitVec.ofNat 8 s.settings.schedule.length
      :: s.settings.schedule.flatMap (field 4)
      ++ optional stamp s.clock.lastBoundary ++ optional stamp s.clock.nextBoundary))

/-! ### The schedule -/

/-- The values SET-SCHEDULE takes, in deciseconds of the day (R143). -/
def scheduleTaken (values : List (BitVec 32)) : List Nat :=
  values.map fun v => clamp 0 863999 v.toNat

/-- The place of the first value that does not exceed the one before it. -/
def notRising (place : Nat) : List Nat → Option Nat
  | a :: b :: rest => if a < b then notRising (place + 1) (b :: rest) else some (place + 1)
  | _ => none

/-- The refusal of SET-SCHEDULE: values not strictly increasing. The detail is the position of the
first offending value (R143, R161; assumption 19). -/
def scheduleRefusal (values : List (BitVec 32)) (_ : State) : Option Refused :=
  (notRising 0 (scheduleTaken values)).map fun i => ⟨.malformed, BitVec.ofNat 8 (1 + 4 * i)⟩

/-- A count above 4 makes the body length wrong (R143, R162). -/
def scheduleLength (values : List (BitVec 32)) : Option Refused :=
  refuseIf (4 < values.length) .malformed (BitVec.ofNat 8 (1 + 4 * values.length))

/-- The schedule is replaced, and the next boundary formed afresh (R143). That a boundary due at this
count and not yet taken is dropped is the model's choice (assumption 38). -/
def State.setSchedule (s : State) (deciseconds : List Nat) : State :=
  (s.modSettings fun g => { g with schedule := deciseconds.map (10 * ·) }).formBoundary

/-- SET_SCHEDULE (R143). -/
def execSetSchedule (values : List (BitVec 32)) (s : State) :
    Host.Outcome State Fault Refusal :=
  .next (s.serve .setSchedule (scheduleLength values) none
    (checked (scheduleRefusal values) fun s =>
      let taken := scheduleTaken values
      (s.setSchedule taken, BitVec.ofNat 8 taken.length :: taken.flatMap (field 4))))

/-! ### Closing and boundaries -/

/-- The refusals of CLOSE-SHIFT after its range (R149). -/
def closeRefusal (line : Byte) (s : State) : Option Refused :=
  firstRefusal
    [s.notInService line, refuseIf (s.line (lineOfByte line)).staging.isSome .busy line]

/-- CLOSE_SHIFT (R149). -/
def execCloseShift (line : Byte) (s : State) : Host.Outcome State Fault Refusal :=
  .next (s.serve .closeShift none (above line 7) (checked (closeRefusal line) fun s =>
    let n := lineOfByte line
    let closed := (s.line n).serial
    let s := s.turnShift n .request false s.now
    let l := s.line n
    (s, line :: (field 4 closed ++ stamp s.hall ++ field 4 l.serial
      ++ optional (fun _ => field 4 1) l.slot))))

/-- BOUNDARY_REACHED (R144, R145), when the hall clock has reached the next boundary. -/
def execBoundaryReached (s : State) : Host.Outcome State Fault Refusal :=
  .next (if s.power.running then
      match s.boundaryDue with
      | some b => s.takeBoundary b
      | none => s
    else s)

/-- SHIFT_LENGTH_LIMIT (R146), when the line's S has reached the limit. -/
def execShiftLengthLimit (line : LineId) (s : State) : Host.Outcome State Fault Refusal :=
  .next (if s.power.running then s.takeLimit line else s)

/-! ### The archive -/

/-- A deferred boundary is taken at a completion only while the lines run (R145, R153). -/
def State.afterWrite (s : State) (n : LineId) : State :=
  if s.power.running then s.takeDeferred n else s

/-- ARCHIVE_WRITE_COMPLETE (R150, R151), when a staged bank is at the head of the queue. -/
def execArchiveWriteComplete (s : State) : Host.Outcome State Fault Refusal :=
  .next (if s.serves then
      match s.queue with
      | .bank n :: _ => (s.bankWritten n).afterWrite n
      | .settings :: _ => s
      | [] => s
    else s)

/-- What stands at a depth of a line's archive (R152). -/
inductive AtDepth where
  | staged (b : ClosedBank)
  | stored (e : Stored)
  | nothing
deriving DecidableEq, Repr

/-- The stored entry at a place, newest first. -/
def State.storedAt (s : State) (n : LineId) (place : Nat) : AtDepth :=
  match (Tab.get s.archive n)[place]? with
  | some e => .stored e
  | none => .nothing

/-- The entry at a depth: a staged bank that waits is depth 0 (R152). -/
def State.atDepth (s : State) (n : LineId) (depth : Nat) : AtDepth :=
  match (s.line n).staging with
  | none => s.storedAt n depth
  | some b => if depth = 0 then .staged b else s.storedAt n (depth - 1)

/-- The tally an entry holds for a station. -/
def ClosedBank.tallyOf (b : ClosedBank) (k : StationId) : Option StationTally :=
  (b.members.find? fun m => m.1 == k).map Prod.snd

/-- The part asked for is a station whose tally the entry does not hold (R152). -/
def ClosedBank.lacks (b : ClosedBank) (part : Byte) : Bool :=
  part != 0xFF && (b.tallyOf (stationOfByte part)).isNone

/-- The refusals of READ-ARCHIVE after its range (R152). -/
def archiveRefusal (line depth part : Byte) (s : State) : Option Refused :=
  match s.atDepth (lineOfByte line) depth.toNat with
  | .nothing => some ⟨.notFound, 0⟩
  | .staged b => refuseIf (b.lacks part) .notFound 0
  | .stored e => refuseIf (!e.damaged && e.bank.lacks part) .notFound 0

/-- The part of an entry as the reply carries it (R152, R179). -/
def ClosedBank.partBytes (b : ClosedBank) (part : Byte) : List Byte :=
  if part = 0xFF then b.view.bytes
  else part :: ((b.tallyOf (stationOfByte part)).getD StationTally.zero).bytes

/-- READ-ARCHIVE's effect and reply: reading a damaged entry latches ARCHIVE-DAMAGED (R152). -/
def State.readArchive (s : State) (line depth part : Byte) : State × List Byte :=
  match s.atDepth (lineOfByte line) depth.toNat with
  | .nothing => (s, [])
  | .staged b => (s, [line, depth, 1, 0] ++ b.header ++ b.partBytes part)
  | .stored e =>
    if e.damaged then (s.latch .archiveDamaged, [line, depth, 0, 1])
    else (s, [line, depth, 0, 0] ++ e.bank.header ++ e.bank.partBytes part)

/-- READ_ARCHIVE (R152). Of several fields out of range the earliest in body order is the detail: the
model's choice (assumption 30). -/
def execReadArchive (line depth part : Byte) (s : State) : Host.Outcome State Fault Refusal :=
  .next (s.serve .readArchive none
    (firstRefusal [above line 7, above depth 7, aboveOrNone part 63])
    (checked (archiveRefusal line depth part) fun s => s.readArchive line depth part))

end Sys2Proof.Machine
end

