-- ==== Sys2Proof/Machine/Stations.lean ====
section
/-! DEFINITION. The commands of the station evaluator (chapter 04): DEFINE_STATION, STATION_FAULT,
READ_STATION, READ_STATION_TALLY, STALL_TIMER_EXPIRY, ARMED_REPORT_EXPIRY. -/

namespace Sys2Proof.Machine

/-- The line a DEFINE-STATION places its station in; none for line none or with the flag clear. -/
def fieldTarget (b : StationField) : Option LineId :=
  if b.defined = 0 ∨ b.line = 0xFF then none else some (lineOfByte b.line)

/-- The points a DEFINE-STATION that names a line carries, in the order of its fields. -/
def fieldPoints (b : StationField) : List PointId :=
  [b.run, b.fault, b.block, b.starve].filterMap carriedPoint

/-- The range check of DEFINE-STATION, on the fields that are examined (R49, R162). Of several values
out of range the earliest in body order is the detail: the model's choice (assumption 30). -/
def fieldRange (b : StationField) : Option Refused :=
  firstRefusal
    [above b.station 63,
     if b.defined = 0 then none else aboveOrNone b.line 7,
     if (fieldTarget b).isSome then above b.position 15 else none,
     if (fieldTarget b).isSome then carriedAbove b.pace 15 else none]

/-- The presence bytes of a DEFINE-STATION that names a line (R178). -/
def fieldPresence (b : StationField) : Option Refused :=
  let p1 := 4 + carriedSize b.run
  let p2 := p1 + carriedSize b.fault
  let p3 := p2 + carriedSize b.block
  let p4 := p3 + carriedSize b.starve
  firstRefusal
    [presenceBad b.run 4, presenceBad b.fault p1, presenceBad b.block p2, presenceBad b.starve p3,
     presenceBad b.pace p4]

/-- A point is held as a role by a station other than `k` (R49). -/
def State.pointHeld (s : State) (k : StationId) (p : PointId) : Bool :=
  allStations.any fun m => m != k && match s.stationDef m with
    | some d => d.points.contains p
    | none => false

/-- A point of a request cannot be taken: it is named twice, or held by another station (R49). -/
def State.pointTaken (s : State) (k : StationId) (points : List PointId) (p : PointId) : Bool :=
  2 ≤ points.count p || s.pointHeld k p

/-- An input has a role other than PACE of station `k` (R49). -/
def State.inputTaken (s : State) (k : StationId) (i : InputId) : Bool :=
  match s.roleOf i with
  | .none => false
  | .pace m => m != k
  | .output _ => true
  | .reject _ => true

/-- The IN-USE refusals of a DEFINE-STATION that places station `k` in line `n` (R49). -/
def fieldInUse (b : StationField) (k : StationId) (n : LineId) (s : State) :
    Option Refused :=
  let others := (s.members n).filter fun m => m != k
  firstRefusal
    [refuseIf (Config.memberCapacity ≤ others.length) .inUse b.line,
     refuseIf (others.any fun m => s.positionIn n m == some (Fin.ofNat 16 b.position.toNat)) .inUse
       b.position,
     ((fieldPoints b).find? fun p => s.pointTaken k (fieldPoints b) p).map fun p => ⟨.inUse, idByte p⟩,
     ((carriedInput b.pace).filter (s.inputTaken k)).map fun i => ⟨.inUse, idByte i⟩]

/-- The refusals of DEFINE-STATION after its range, in the order of R49. When the station's present line
and the line the request names are both in service, the present line is the detail: the model's
choice (assumption 30). -/
def fieldRefusal (b : StationField) (s : State) : Option Refused :=
  let k := stationOfByte b.station
  let old : Option Refused := match s.lineOf k with
    | some n => s.lineBusyService n
    | none => none
  match fieldTarget b with
  | none => old
  | some n => firstRefusal [fieldPresence b, old, s.lineBusyService n, fieldInUse b k n s]

/-- The definition a DEFINE-STATION takes (R49, R50). -/
def fieldTaken (b : StationField) : Option StationDef :=
  if b.defined = 0 then none
  else
    let stall := clamp 0 600 b.stall.toNat
    match fieldTarget b with
    | none =>
      some { place := none, run := none, fault := none, block := none, starve := none, pace := none,
             stall }
    | some n =>
      some { place := some { line := n, position := Fin.ofNat 16 b.position.toNat }
             run := carriedPoint b.run
             fault := carriedPoint b.fault
             block := carriedPoint b.block
             starve := carriedPoint b.starve
             pace := carriedInput b.pace
             stall }

/-- The reply to a DEFINE-STATION (R50, R179). An undefined station has no line, and the bytes of
its position and its stall timeout are not stated (assumption 6). -/
def State.definedBytes (s : State) (k : StationId) (d : Option StationDef) : List Byte :=
  match d with
  | some d => [idByte k, 1] ++ s.stationDefBytes k d
  | none =>
    [idByte k, 0, 0xFF, s.unstated k 0, 0, 0, 0, 0, 0, s.unstated k 1, s.unstated k 2]

/-- A station takes a definition, and its live state is rebuilt (R50). -/
def State.defineStation (s : State) (k : StationId) (d : Option StationDef) : State :=
  (s.modSettings fun g => { g with stations := Tab.set g.stations k d }).rebuildStation k

/-- DEFINE_STATION (R49, R50). -/
def execDefineStation (body : StationField) (s : State) : Host.Outcome State Fault Refusal :=
  .next (s.serve .defineStation none (fieldRange body) (checked (fieldRefusal body) fun s =>
    let k := stationOfByte body.station
    let s := s.defineStation k (fieldTaken body)
    (s, s.definedBytes k (fieldTaken body))))

/-- The refusals of STATION-FAULT after its range (R56). -/
def stationFaultRefusal (station cause : Byte) (s : State) : Option Refused :=
  let k := stationOfByte station
  firstRefusal
    [refuseIf (!s.stationServed k) .notInService station,
     refuseIf (!faultCauseOk s.settings k cause) .cause cause]

/-- An accepted STATION-FAULT acts by the station's state (R57). -/
def StationLive.report (v : StationLive) (cause : CauseCode) (stamp now : Nat) : StationLive :=
  if cause = 0 then { v with reported := none, armed := none }
  else match v.state with
    | .faulted | .halted => { v with reported := some { cause, stamp } }
    | .unmonitored | .running | .stalled | .blocked | .starved =>
      { v with armed := some { cause, expiry := now + Config.armedLife } }

/-- A cause is forwarded for a station, and its line takes a changed current cause (R57, R59). -/
def State.reportFault (s : State) (k : StationId) (cause : CauseCode) : State :=
  let stamp := s.hall
  State.settleLines s (s.modStation k fun v => v.report cause stamp s.now)

/-- STATION_FAULT (R56, R57). -/
def execStationFault (station cause : Byte) (s : State) : Host.Outcome State Fault Refusal :=
  .next (s.serve .stationFault none (above station 63)
    (checked (stationFaultRefusal station cause) fun s =>
      let k := stationOfByte station
      let s := s.reportFault k cause
      let v := s.station k
      (s, [station, v.state.code, causeOrNone (v.reported.map Reported.cause),
        causeOrNone (v.armed.map Armed.cause)])))

/-- READ_STATION (R64). -/
def execReadStation (station : Byte) (s : State) : Host.Outcome State Fault Refusal :=
  .next (s.serve .readStation none (above station 63) (reading accepted fun s =>
    s.stationBytes (stationOfByte station)))

/-- The shift serial of a station's line (R65). -/
def State.serialOf (s : State) (k : StationId) : Nat :=
  match s.lineOf k with
  | some n => (s.line n).serial
  | none => 0

/-- READ_STATION_TALLY (R65). -/
def execReadStationTally (station : Byte) (s : State) : Host.Outcome State Fault Refusal :=
  .next (s.serve .readStationTally none (above station 63)
    (reading
      (fun s => refuseIf (!s.stationServed (stationOfByte station)) .notInService station)
      fun s =>
        let k := stationOfByte station
        station :: field 4 (s.serialOf k)
          ++ (((s.station k).tallyAt s.now).getD StationTally.zero).bytes))

/-- STALL_TIMER_EXPIRY (R53), when the station's stall timer has reached its expiry. That none is taken
between a failure instant and the start, main power being present, is the model's choice
(assumption 40). -/
def execStallTimerExpiry (station : StationId) (s : State) : Host.Outcome State Fault Refusal :=
  .next (if s.power.running && s.stallDue station then
      State.settleLines s (s.changeStation station .stalled)
    else s)

/-- ARMED_REPORT_EXPIRY (R58), when the armed report has reached its expiry instant. That none is taken
between a failure instant and the start, main power being present, is the model's choice
(assumption 40). -/
def execArmedReportExpiry (station : StationId) (s : State) : Host.Outcome State Fault Refusal :=
  .next (if s.power.running && s.armedDue station then
      s.modStation station fun v => { v with armed := none }
    else s)

end Sys2Proof.Machine
end

