-- ==== Sys2Proof/Machine/Store.lean ====
section
/-! DEFINITION. The commands of the settings store and of the alert set (chapters 09 and 10):
IDENTIFY, READ_ALERTS, STORE_SETTINGS, RECALL_SETTINGS, SET_GUARD, SETTINGS_WRITE_COMPLETE. -/

namespace Sys2Proof.Machine

/-- Code of a stored guard mode (R178). -/
def StoredGuard.code (m : StoredGuard) : Byte := m.mode.code

/-- What IDENTIFY reports that is fixed in the part (R177): vendor code 0046h, "TC6408", revision
"A", 8 lines, 64 stations, 256 points, 16 inputs, 192 journal records. -/
def identity : List Byte :=
  [0x00, 0x46, 0x54, 0x43, 0x36, 0x34, 0x30, 0x38, 0x41, 8, 64, 1, 0, 16, 192]

/-- IDENTIFY (R177). -/
def execIdentify (s : State) : Host.Outcome State Fault Refusal :=
  .next (s.serve .identify none none (reading accepted fun s =>
    identity ++ [s.link.address, s.guardMode.code, s.settings.storedGuard.code, flag s.pins.key,
      s.imageStatus.code]))

/-- READ_ALERTS (R165). -/
def execReadAlerts (s : State) : Host.Outcome State Fault Refusal :=
  .next (s.serve .readAlerts none none (checked accepted fun s =>
    let cleared : State := { s with alerts := 0 }
    (cleared, [s.alerts, flag cleared.holdsSettled, flag cleared.attn])))

/-- A settings write joins the write queue; the items ahead of it are kept for the reply (R170). -/
def State.storeSettings (s : State) : State :=
  State.queueJoin { s with link := { s.link with ahead := s.queue.length } } .settings

/-- STORE_SETTINGS (R170). The reply is formed at the completion of the write. -/
def execStoreSettings (s : State) : Host.Outcome State Fault Refusal :=
  .next (s.serve .storeSettings none none fun s => (s.storeSettings, .later))

/-- The status that examining the image gives (R169). -/
def imageExamined (image : Option Image) : ImageStatus :=
  match image with
  | none => .blank
  | some i => if i.damaged then .damaged else .good

/-- The refusals of RECALL-SETTINGS (R173). -/
def recallRefusal (s : State) : Option Refused :=
  firstRefusal
    [(allLines.find? s.inService).map fun n => ⟨.inService, idByte n⟩,
     refuseIf (imageExamined s.image ≠ .good) .notFound 0]

/-- Every working setting is replaced, the guard mode in force with it; acquisition restarts, the
samples from the next frame on, the stations are rebuilt and the next boundary is formed afresh
(R173, R36). -/
def State.recall (s : State) (g : Settings) : State :=
  let s : State := { s with settings := g, guardMode := g.storedGuard.mode }
  let s : State := { s.restartAcquisition with awaitsFrame := true }
  s.rebuildStations.formBoundary

/-- The owner's part of RECALL-SETTINGS: the examination updates the image status unless a line is
in service, even where the request is then refused (R173). -/
def recallOwner (s : State) : State × Answer :=
  if allLines.any s.inService then checked recallRefusal (fun s => (s, [])) s
  else
    let s : State := { s with imageStatus := imageExamined s.image }
    checked recallRefusal
      (fun s => match s.image with
        | some i => (s.recall i.contents, [s.imageStatus.code])
        | none => (s, [s.imageStatus.code])) s

/-- RECALL_SETTINGS (R173). -/
def execRecallSettings (s : State) : Host.Outcome State Fault Refusal :=
  .next (s.serve .recallSettings none none recallOwner)

/-- The stored guard mode a SET-GUARD leaves (R175): SEALED leaves it unchanged. -/
def GuardMode.storedAfter (m : GuardMode) (old : StoredGuard) : StoredGuard :=
  match m with
  | .opened => .opened
  | .keyed => .keyed
  | .sealed => old

/-- A guard mode is taken (R175). -/
def State.setGuard (s : State) (m : GuardMode) : State :=
  (State.modSettings { s with guardMode := m } fun g =>
    { g with storedGuard := m.storedAfter g.storedGuard })

/-- SET_GUARD (R175). -/
def execSetGuard (mode : Byte) (s : State) : Host.Outcome State Fault Refusal :=
  .next (s.serve .setGuard none none
    (checked (fun _ => refuseIf (GuardMode.ofByte mode).isNone .malformed 0) fun s =>
      let s := s.setGuard ((GuardMode.ofByte mode).getD .opened)
      (s, [s.guardMode.code, s.settings.storedGuard.code])))

/-- The settings write completes: the image holds the copy and is GOOD, and the queue goes on
(R170). -/
def State.settingsWritten (s : State) : State :=
  let contents := s.settingsCopy.getD s.settings
  State.queuePop
    { s with image := some { contents, check := imageCheck contents }, imageStatus := .good }

/-- The reply to STORE-SETTINGS is formed and its transmission begins, when one is owed (R159,
R170; assumption 21). None is owed before a warm start (R153). -/
def State.replyStored (s : State) : State :=
  if s.power.running && s.link.serving == .serving && s.link.reply.isNone then
    { s with link := { s.link with
        serving := .replying
        reply := (Answer.done [s.imageStatus.code, BitVec.ofNat 8 s.link.ahead]).reply
          .storeSettings } }
  else s

/-- SETTINGS_WRITE_COMPLETE (R170), when a settings write is at the head of the queue. -/
def execSettingsWriteComplete (s : State) : Host.Outcome State Fault Refusal :=
  .next (if s.serves then
      match s.queue with
      | .settings :: _ => s.settingsWritten.replyStored
      | .bank _ :: _ => s
      | [] => s
    else s)

end Sys2Proof.Machine
end

