-- ==== Sys2Proof/Machine/LinkCommands.lean ====
section
/-! DEFINITION. The commands of the link controller (chapter 09): CHARACTER_RECEIVED,
FRAME_COMPLETE, FRAME_GAP_TIMEOUT, REPLY_START, REPLY_COMPLETE; and the judging of a frame. -/

namespace Sys2Proof.Machine

/-! ### Frames -/

/-- The start byte of a frame (R156). -/
def startByte : Byte := 0xC5

/-- The fields of a complete frame after its start byte (R156). -/
structure Frame where
  address : Byte
  kind : Byte
  body : List Byte
  check : BitVec 16
deriving DecidableEq, Repr

/-- How many bytes a frame holds after its start byte, from the bytes received so far; none before
its length byte (R156, R157). -/
def frameSize : List Byte → Option Nat
  | _ :: length :: _ => some (5 + length.toNat)
  | _ => none

/-- The bytes of a frame that its check covers: address, length, kind and body (R156). -/
def Frame.covered (f : Frame) : List Byte :=
  f.address :: BitVec.ofNat 8 f.body.length :: f.kind :: f.body

/-- The bytes of a frame on the bus (R156). -/
def Frame.bytes (f : Frame) : List Byte := startByte :: (f.covered ++ bytes16 f.check)

/-- A frame's check is good (R156). -/
def Frame.good (f : Frame) : Bool := f.check == crc16 f.covered

/-- A complete frame from the bytes after its start byte. -/
def readFrame : List Byte → Option Frame
  | address :: length :: kind :: rest =>
    match rest.drop length.toNat with
    | [a, b] => some { address, kind, body := rest.take length.toNat, check := join16 a b }
    | _ => none
  | _ => none

/-- The frame of a reply (R156, R161): addressed 80h plus the part address, with its check. -/
def Reply.frame (r : Reply) (address : Byte) : Frame :=
  { address := address + 0x80
    kind := r.kind
    body := r.body
    check := crc16 ((address + 0x80) :: BitVec.ofNat 8 r.body.length :: r.kind :: r.body) }

/-- What the part sends on TXD: while it transmits, the frame of its reply (R159). -/
def State.transmits (s : State) : Option (List Byte) :=
  if s.dir then s.link.reply.map fun r => (r.frame s.link.address).bytes else none

/-! ### The receiver -/

/-- The receiver after a character, and the bytes of a frame it completes (R157). -/
def Receiver.character (r : Receiver) (b : Byte) (good : Bool) : Receiver × Option (List Byte) :=
  match r with
  | .hunt => if good && b == startByte then (.receiving [], none) else (.hunt, none)
  | .skip => (.skip, none)
  | .receiving bytes =>
    if !good then (.skip, none)
    else if bytes.length = 1 ∧ Config.bodyLimit < b.toNat then (.skip, none)
    else
      let bytes := bytes ++ [b]
      if frameSize bytes = some bytes.length then (.hunt, some bytes)
      else (.receiving bytes, none)

/-- The receiver takes characters: the part runs, and does not drive the bus (R157, R159, R167). -/
def State.listens (s : State) : Bool := s.power.running && !s.dir

/-! ### Judging -/

/-- A taken request is handed to its owner, by its kind (R160, R163). An event is not a request. -/
def takeRequest (i : Instr) (s : State) : Host.Outcome State Fault Refusal :=
  match i with
  | .identify => execIdentify s
  | .readAlerts => execReadAlerts s
  | .setClock broadcast hallTime => execSetClock broadcast hallTime s
  | .readClock => execReadClock s
  | .setSchedule values => execSetSchedule values s
  | .defineStation body => execDefineStation body s
  | .defineLine line constraint output rejects => execDefineLine line constraint output rejects s
  | .setPointMode point polarity debounce mode limit =>
    execSetPointMode point polarity debounce mode limit s
  | .setCountInput input edge debounce limit qual =>
    execSetCountInput input edge debounce limit qual s
  | .setSlots entries => execSetSlots entries s
  | .setCause code defined category scope => execSetCause code defined category scope s
  | .setLineTimers line threshold lookback deadline =>
    execSetLineTimers line threshold lookback deadline s
  | .setMonitor window => execSetMonitor window s
  | .storeSettings => execStoreSettings s
  | .recallSettings => execRecallSettings s
  | .setGuard mode => execSetGuard mode s
  | .enableLine line => execEnableLine line s
  | .disableLine line => execDisableLine line s
  | .closeShift line => execCloseShift line s
  | .setRate line rate => execSetRate line rate s
  | .planBegin line cause expected => execPlanBegin line cause expected s
  | .planEnd line => execPlanEnd line s
  | .stationFault station cause => execStationFault station cause s
  | .classify key cause => execClassify key cause s
  | .holdRecord key => execHoldRecord key s
  | .releaseRecord key => execReleaseRecord key s
  | .fetchRecords count => execFetchRecords count s
  | .readLine line => execReadLine line s
  | .readStation station => execReadStation station s
  | .readPoints first count => execReadPoints first count s
  | .readCountInput input => execReadCountInput input s
  | .readTally line => execReadTally line s
  | .readStationTally station => execReadStationTally station s
  | .readOpen line => execReadOpen line s
  | .readJournalStatus => execReadJournalStatus s
  | .readArchive line depth part => execReadArchive line depth part s
  | .readCause code => execReadCause code s
  | .frameComplete _ | .frameGapTimeout | .replyStart | .replyComplete | .matrixScan _ _
  | .chatterWindowEnd | .slotTableInstall | .countSample _ _ | .windowClose _
  | .stallTimerExpiry _ | .armedReportExpiry _ | .thresholdExpiry _ | .planOverrun _
  | .deadlineExpiry _ | .boundaryReached | .shiftLengthLimit _ | .archiveWriteComplete
  | .settingsWriteComplete | .powerFail | .resetAssert | .powerReturn | .resetRelease
  | .warmStart | .coldStart | .characterReceived _ _ => .next s

/-- The refusal of a request whose body has the wrong length: the detail is the length received
(R161, R162). -/
def lengthRefusal (body : List Byte) : Refused := ⟨.malformed, BitVec.ofNat 8 body.length⟩

/-- The REFUSED reply to a kind byte that is no request kind (R161, R162). -/
def unknownKindReply (kind : Byte) : Reply :=
  { kind := 0xFF, body := [kind, Reason.unknownKind.code, 0] }

/-- A request addressed to the part is taken (R158 case 6, R160, R162 checks 1 and 2). -/
def takeAddressed (f : Frame) (s : State) : Host.Outcome State Fault Refusal :=
  match RequestKind.ofByte f.kind with
  | none => .next (s.owe (some (unknownKindReply f.kind)))
  | some kind =>
    match readRequest kind f.body with
    | none => .next (s.owe ((Answer.refused (lengthRefusal f.body)).reply kind))
    | some i => takeRequest i s

/-- A broadcast SET-CLOCK is taken with no reply owed; one of the wrong length changes nothing
(R158 case 5). -/
def takeBroadcast (f : Frame) (s : State) : Host.Outcome State Fault Refusal :=
  match readRequest .setClock f.body with
  | some (.setClock _ hallTime) => execSetClock true hallTime s
  | _ => .next s

/-- A complete frame is judged (R158). -/
def judgeFrame (f : Frame) (s : State) : Host.Outcome State Fault Refusal :=
  if !f.good then .next s
  else if s.link.serving ≠ .ready then .next s
  else if f.address = s.link.address then takeAddressed f s
  else if f.address ≠ 0 then .next s
  else if f.kind = RequestKind.setClock.code then takeBroadcast f s
  else .next s

/-- A character that the receiver takes (R157), and the frame it completes (R158). -/
def takeCharacter (b : Byte) (good : Bool) (s : State) : Host.Outcome State Fault Refusal :=
  let r := s.link.receiver.character b good
  let s : State := { s with link := { s.link with receiver := r.1 } }
  match r.2.bind readFrame with
  | some f => judgeFrame f s
  | none => .next s

/-- The frame in reception lacks its second check byte only. -/
def Receiver.lastAwaited : Receiver → Bool
  | .receiving bytes => frameSize bytes == some (bytes.length + 1)
  | .hunt => false
  | .skip => false

/-! ### Commands -/

/-- CHARACTER_RECEIVED (R157). -/
def execCharacterReceived (byte : Byte) (stopGood : Bool) (s : State) :
    Host.Outcome State Fault Refusal :=
  if s.listens then takeCharacter byte stopGood s else .next s

/-- FRAME_COMPLETE (R157, R158): the second check byte of the frame in reception is received, and
the frame is judged. -/
def execFrameComplete (check2 : Byte) (s : State) : Host.Outcome State Fault Refusal :=
  if s.listens && s.link.receiver.lastAwaited then takeCharacter check2 true s else .next s

/-- FRAME_GAP_TIMEOUT (R157): a gap of more than 2 ms returns the receiver to HUNT. -/
def execFrameGapTimeout (s : State) : Host.Outcome State Fault Refusal :=
  .next (if s.listens then { s with link := { s.link with receiver := .hunt } } else s)

/-- REPLY_START (R159): a formed reply begins to be transmitted. -/
def execReplyStart (s : State) : Host.Outcome State Fault Refusal :=
  .next (if s.power.running && s.link.serving == .serving && s.link.reply.isSome then
      { s with link := { s.link with serving := .replying } }
    else s)

/-- REPLY_COMPLETE (R159): DIR is released, the receiver is in HUNT, and the controller is READY. -/
def execReplyComplete (s : State) : Host.Outcome State Fault Refusal :=
  .next (if s.power.running && s.dir then
      { s with link := { s.link with receiver := .hunt, serving := .ready, reply := none } }
    else s)

end Sys2Proof.Machine
end

