-- ==== Sys2Proof/Machine/Starts.lean ====
section
/-! DEFINITION. Failures and starts (chapters 05, 08, 09, 10): POWER_FAIL, RESET_ASSERT,
POWER_RETURN, RESET_RELEASE, WARM_START, COLD_START. -/

namespace Sys2Proof.Machine

/-! ### The failure instant -/

/-- A plan stops growing at `t` (R86). -/
def Plan.pause (p : Plan) (t : Nat) : Plan := { p with elapsed := p.elapsedAt t, since := none }

/-- A plan grows again from `t` (R86, R93). -/
def Plan.resume (p : Plan) (t : Nat) : Plan := { p with since := some t }

/-- At the failure instant a line's running segment is credited, its booking passes to X, and its
plan stops growing (R86, R93, R119, R124, R131). That a plan stops growing at RESET as at a failure of
main power is the model's choice (assumption 32). -/
def LineLive.atFailure (l : LineLive) (t rate : Nat) : LineLive :=
  { l with
    bank := l.bank.map fun b => (b.credit t rate).switch t .x
    plan := l.plan.map fun p => p.pause t }

/-- The link at a failure and at a start: the frame in reception is abandoned, and a reply not yet
sent is never sent (R167). -/
def Link.idle (k : Link) : Link := { k with receiver := .hunt, serving := .ready, reply := none }

/-- The failure instant: the lines stop, the state segments of the stations end, and the link is
dropped (R67, R93, R119, R167). -/
def State.fail (s : State) : State :=
  let now := s.now
  let rate := s.rate
  { s with
    lines := Tab.mapAll (fun n l => l.atFailure now (rate n)) s.lines
    stations := Tab.mapAll (fun _ v => v.bookAt now) s.stations
    link := s.link.idle
    power := { s.power with running := false, failure := some now } }

/-- The failure instant is fixed unless the lines have not resumed since the first one (R153). A shift
that reaches its limit at that instant has closed there (R146; assumption 16). -/
def State.failOnce (s : State) : State := if s.power.running then s.takeLimits.fail else s

/-- POWER_FAIL (R93, R166, R167). -/
def execPowerFail (s : State) : Host.Outcome State Fault Refusal :=
  .next (if s.power.main then
      let s := s.failOnce
      { s with power := { s.power with main := false, powerLost := true } }
    else s)

/-- RESET_ASSERT (R93, R166, R167). -/
def execResetAssert (s : State) : Host.Outcome State Fault Refusal :=
  .next (if s.power.reset then s
    else
      let s := s.failOnce
      { s with power := { s.power with reset := true } })

/-- The write in progress is restarted from its beginning, once the part has power and RESET is
released (R153, R171). That it waits for both, where main power returns while RESET is still asserted,
is the model's choice (assumption 36). -/
def State.restartWrite (s : State) : State :=
  if s.serves && !s.power.running then s.serveHead else s

/-- POWER_RETURN (R153), with retained memory valid. -/
def execPowerReturn (s : State) : Host.Outcome State Fault Refusal :=
  .next (if s.power.main then s
    else State.restartWrite { s with power := { s.power with main := true } })

/-- RESET_RELEASE (R153), with retained memory valid. -/
def execResetRelease (s : State) : Host.Outcome State Fault Refusal :=
  .next (if s.power.reset then State.restartWrite { s with power := { s.power with reset := false } }
    else s)

/-! ### The warm start -/

/-- Line `n` is placed in RESUMING (R93). Its booking has been X since the failure instant, and goes
on (R124). -/
def State.placeResuming (s : State) (n : LineId) : State :=
  let stamp := s.hall
  s.modLine n fun l => { l with state := .resuming, stamp }

/-- Line `n` is treated at the failure instant `f` by its state there (R93). -/
def State.resumeLine (s : State) (f : Nat) (n : LineId) : State :=
  match (s.line n).state with
  | .running => s.placeResuming n
  | .pendingStop => (s.endMicro n f).placeResuming n
  | .down => (s.closeRecord n .outage f).placeResuming n
  | .resuming => s
  | .planned => s
  | .outOfService => s

/-- The bound that boundaries passed must exceed: the hall clock at the failure instant and the last
boundary taken (R154). -/
def State.passedAfter (s : State) (f : Nat) : Nat :=
  max (s.hallAt f) (s.clock.lastBoundary.getD 0)

/-- How many boundary instants passed in the outage that began at `f` (R154). -/
def State.passedCount (s : State) (f : Nat) : Nat :=
  if s.clock.isSet then
    boundariesBy s.settings.schedule s.hall
      - boundariesBy s.settings.schedule (s.passedAfter f)
  else 0

/-- The first boundary instant passed, as an interval counter value. -/
def State.firstPassed (s : State) (f : Nat) : Nat :=
  f + ((firstBoundaryAfter s.settings.schedule (s.passedAfter f)).getD 0 - s.hallAt f)

/-- The last boundary instant passed, as a hall stamp. -/
def State.lastPassedHall (s : State) (f : Nat) : Option Nat :=
  if s.passedCount f = 0 then none else lastBoundaryBy s.settings.schedule s.hall

/-- The last boundary instant passed, as an interval counter value. -/
def State.lastPassed (s : State) (f : Nat) : Nat :=
  f + ((s.lastPassedHall f).getD 0 - s.hallAt f)

/-- The boundaries passed for line `n`: a deferred boundary pending at the failure is the first
(R154). -/
def State.passedFor (s : State) (f : Nat) (n : LineId) : Nat :=
  s.passedCount f + if (s.line n).deferred then 1 else 0

/-- The length instant of line `n`, when it falls after the failure instant and by now (R154). -/
def State.lengthInstant (s : State) (f : Nat) (n : LineId) : Option Nat :=
  match (s.line n).bank with
  | some b =>
    let t := b.openCount + Config.shiftLimit
    if f < t ∧ t ≤ s.now then some t else none
  | none => none

/-- How a line's shift closes and the next opens at a warm start (R154): instants on the interval
counter, and how many shifts on the new serial lies. -/
structure OutageTurn where
  closeAt : Nat
  reason : CloseReason
  deferred : Bool
  openAt : Nat
  serials : Nat
deriving DecidableEq, Repr

/-- The table of R154 for line `n`. The table makes no second close: that a shift opened at `f` by a
deferral alone, and at its own limit before the start, stays open until SHIFT_LENGTH_LIMIT closes it
after the start is the model's choice (assumption 39). -/
def State.outageTurn (s : State) (f : Nat) (n : LineId) : Option OutageTurn :=
  let m := s.passedFor f n
  let pending := (s.line n).deferred
  let b1 := if pending then f else s.firstPassed f
  let bm := if s.passedCount f = 0 then f else s.lastPassed f
  match s.lengthInstant f n with
  | none =>
    if m = 0 then none
    else some { closeAt := b1, reason := .outageBoundary, deferred := pending, openAt := bm,
                serials := m }
  | some t =>
    if m = 0 then
      some { closeAt := t, reason := .length, deferred := false, openAt := s.now, serials := 1 }
    else if t < b1 then
      some { closeAt := t, reason := .length, deferred := false, openAt := bm, serials := m }
    else some { closeAt := b1, reason := .outageBoundary, deferred := pending, openAt := bm,
                serials := m }

/-- A line's old shift closes in the outage, and its new shift opens with X as its booking (R154). -/
def State.turnOutage (s : State) (n : LineId) (o : OutageTurn) : State :=
  let serial := serialAfter (s.line n).serial o.serials
  let s := s.closeShift n o.reason o.deferred o.closeAt
  let s := s.openShift n serial o.openAt
  s.modLine n fun l =>
    { l with deferred := false, bank := l.bank.map fun b => { b with booking := .x } }

/-- Line `n` takes the closes that fell in the outage (R154). -/
def State.outageLine (f : Nat) (s : State) (n : LineId) : State :=
  if !s.inService n then s
  else match s.outageTurn f n with
    | none => s
    | some o =>
      (s.turnOutage n o).latchIf (1 < s.passedFor f n) .boundarySkipped

/-- A PLANNED line goes on with its plan from the warm start (R86, R93, R124). -/
def State.resumePlan (s : State) (n : LineId) : State :=
  if (s.line n).state = .planned then
    let now := s.now
    (s.modLine n fun l => { l with plan := l.plan.map fun p => p.resume now }).rebook n now
  else s

/-- A RESUMING line whose constraint has already left UNMONITORED is evaluated (R94). -/
def State.settleLine (s : State) (n : LineId) : State :=
  if (s.line n).state = .resuming ∧ s.constraintState n ≠ .unmonitored then s.evaluate n else s

/-- The part address of the straps (R167). -/
def addressOf (straps : BitVec 5) : BitVec 8 :=
  if straps = 0 then 1 else straps.setWidth 8

/-- The guard mode after a warm start (R176). -/
def State.guardAfter (s : State) : GuardMode :=
  if s.power.powerLost then s.settings.storedGuard.mode else s.guardMode

/-- The lines and the journal are settled over the outage from `f` (R93, R102, R154). The stations
count as UNMONITORED from the failure instant (R67). -/
def State.settleOutage (s : State) (f : Nat) : State :=
  let s : State := { s with
    stations := Tab.mapAll (fun _ v => { v with state := .unmonitored }) s.stations }
  let s := allLines.foldl (fun s n => s.resumeLine f n) s
  let s := s.lapseDue s.now
  let last := s.lastPassedHall f
  let s := allLines.foldl (State.outageLine f) s
  let s : State := { s with clock := { s.clock with lastBoundary := last.or s.clock.lastBoundary } }
  s.formBoundary

/-- Acquisition restarts, the stations are rebuilt, and the lines go on (R17, R36, R67, R94). -/
def State.resume (s : State) : State :=
  let s := s.restartAcquisition.rebuildStations
  let s := allLines.foldl State.resumePlan s
  allLines.foldl State.settleLine s

/-- The link, the guard and the power at a warm start (R153, R167, R176). -/
def State.restart (s : State) : State :=
  { s with
    guardMode := s.guardAfter
    link := { s.link.idle with address := addressOf s.pins.straps }
    power := { s.power with running := true, failure := none, powerLost := false } }

/-- WARM_START (R153), at the instant the write queue is empty, with main power and without RESET
(assumption 36). -/
def execWarmStart (s : State) : Host.Outcome State Fault Refusal :=
  .next (if s.serves && !s.power.running && s.queue.isEmpty then
      match s.power.failure with
      | some f => ((s.settleOutage f).restart.resume).latch .outage
      | none => s
    else s)

/-! ### The cold start -/

/-- The first undamaged entry of a line, newest first, and whether a damaged one was passed over
(R155). -/
def recover : List Stored → Nat × Bool
  | [] => (0, false)
  | e :: rest => if e.damaged then ((recover rest).1, true) else (e.bank.serial, false)

/-- The check that an interrupted write leaves over contents whose check would be `agreeing`: one of
the others, and the manual does not say which (R151, R171; assumption 25). -/
def tornCheck (agreeing : BitVec 16) (count : Nat) : BitVec 16 :=
  agreeing + 1 + BitVec.ofNat 16 (Config.checkGap count % 65535)

/-- The place of an entry whose overwriting was interrupted: its check does not agree with its
contents, of which the manual says no more (R151; assumption 25). -/
def Stored.torn (e : Stored) (count : Nat) : Stored :=
  let bank := Config.leftover ⟨e.bank⟩ count
  { bank, check := tornCheck (crc16 bank.contents) count }

/-- The places of a line's archive after a write into it was interrupted: the oldest entry of eight is
torn, and an empty place stays empty (R151). -/
def tearOldest (count : Nat) (es : List Stored) : List Stored :=
  if es.length < Config.archiveCapacity then es
  else es.dropLast ++ es.getLast?.toList.map fun e => e.torn count

/-- The archive as a cold start finds it (R151). -/
def State.archiveFound (s : State) : Vector (List Stored) 8 :=
  match s.queue with
  | .bank n :: _ => Tab.modify s.archive n (tearOldest s.now)
  | .settings :: _ => s.archive
  | [] => s.archive

/-- The records of a table that are new where `written` says so, and else old. -/
def Tab.mix {α : Type} {n : Nat} (written : Nat → Bool) (new old : Vector α n) : Vector α n :=
  Tab.mapAll (fun i x => if written i.val then x else Tab.get old i) new

/-- Settings part new and part old, item by item (R171): `written` gives, by the row of an item in the
table of R168 and the number of its object, whether it is new. -/
def Settings.mix (written : Nat → Nat → Bool) (new old : Settings) : Settings :=
  let definitions := Tab.mix (written 5) new.lines old.lines
  let rates := Tab.mix (written 6) new.lines old.lines
  let timers := Tab.mix (written 7) new.lines old.lines
  { points := Tab.mix (written 0) new.points old.points
    window := if written 1 0 then new.window else old.window
    inputs := Tab.mix (written 2) new.inputs old.inputs
    slots := if written 3 0 then new.slots else old.slots
    stations := Tab.mix (written 4) new.stations old.stations
    lines := Tab.mapAll (fun n d =>
      let t := Tab.get timers n
      { d with
        rate := (Tab.get rates n).rate
        threshold := t.threshold
        lookback := t.lookback
        deadline := t.deadline }) definitions
    causes := Tab.mix (written 8) new.causes old.causes
    schedule := if written 9 0 then new.schedule else old.schedule
    storedGuard := if written 10 0 then new.storedGuard else old.storedGuard }

/-- The image region after a settings write of `new` into it was interrupted: part of the new copy and
part of the old, with a check that does not agree (R171). Which items are new, what the rest of an
erased region reads as, and the check are free values (assumption 25). -/
def tornImage (new : Settings) (old : Option Image) (count : Nat) : Image :=
  let before : Settings :=
    match old with
    | some i => i.contents
    | none => Config.leftover ⟨Settings.default⟩ count
  let contents := new.mix (fun row place => Config.itemWritten row place count) before
  { contents, check := tornCheck (imageCheck contents) count }

/-- The image as a cold start finds it: torn where a settings write was interrupted (R171). -/
def State.imageFound (s : State) : Option Image :=
  match s.queue with
  | .settings :: _ => some (tornImage (s.settingsCopy.getD s.settings) s.image s.now)
  | .bank _ :: _ => s.image
  | [] => s.image

/-- The working settings a cold start takes from the image (R172). -/
def settingsFound (image : Option Image) : Settings :=
  match image with
  | none => Settings.default
  | some i => if i.damaged then Settings.default else i.contents

/-- The alerts a cold start latches (R164, R172, R155). -/
def coldAlerts (settingsDamaged archiveDamaged : Bool) : BitVec 8 :=
  Alert.clockLost.bit ||| (if settingsDamaged then Alert.settingsDamaged.bit else 0)
    ||| (if archiveDamaged then Alert.archiveDamaged.bit else 0)

/-- The state a cold start makes, before the stations derive (R17, R36, R92, R116, R138, R155,
R164, R167, R172, R176). -/
def State.cold (s : State) : State :=
  let archive := s.archiveFound
  let image := s.imageFound
  let status := imageExamined image
  let g := settingsFound image
  { settings := g
    points := Vector.replicate 256 PointAcq.restarted
    inputs := Vector.replicate 16 InputAcq.cold
    installed := g.slots
    awaitsFrame := false
    stations := Vector.replicate 64 StationLive.cold
    lines := Tab.mapAll (fun _ es => LineLive.cold (recover es).1) archive
    journal := []
    lost := 0
    clock := Clock.cold g.window
    archive
    queue := []
    settingsCopy := none
    image
    imageStatus := status
    guardMode := g.storedGuard.mode
    link := { receiver := .hunt, serving := .ready, reply := none, ahead := 0,
              address := addressOf s.pins.straps }
    alerts := coldAlerts (status = .damaged) (archive.toList.any fun es => (recover es).2)
    power := { main := true, reset := false, running := true, failure := none, powerLost := false }
    pins := s.pins
    pending := s.pending }

/-- COLD_START (R155): main power comes up with retained memory not valid. -/
def execColdStart (s : State) : Host.Outcome State Fault Refusal :=
  .next (if !s.power.main && !s.power.reset then s.cold.rebuildStations else s)

end Sys2Proof.Machine
end

