-- ==== Sys2Proof/Machine/Dispatch.lean ====
section
/-! DEFINITION. The dispatch: one arm per command. -/

namespace Sys2Proof.Machine

def exec (i : Instr) (s : State) : Host.Outcome State Fault Refusal :=
  match i with
  | .frameComplete check2 => Sys2Proof.Machine.execFrameComplete check2 s
  | .frameGapTimeout => Sys2Proof.Machine.execFrameGapTimeout s
  | .replyStart => Sys2Proof.Machine.execReplyStart s
  | .replyComplete => Sys2Proof.Machine.execReplyComplete s
  | .identify => Sys2Proof.Machine.execIdentify s
  | .readAlerts => Sys2Proof.Machine.execReadAlerts s
  | .setClock broadcast hallTime => Sys2Proof.Machine.execSetClock broadcast hallTime s
  | .readClock => Sys2Proof.Machine.execReadClock s
  | .setSchedule values => Sys2Proof.Machine.execSetSchedule values s
  | .defineStation body => Sys2Proof.Machine.execDefineStation body s
  | .defineLine line constraint output rejects => Sys2Proof.Machine.execDefineLine line constraint output rejects s
  | .setPointMode point polarity debounce mode limit => Sys2Proof.Machine.execSetPointMode point polarity debounce mode limit s
  | .setCountInput input edge debounce limit qual => Sys2Proof.Machine.execSetCountInput input edge debounce limit qual s
  | .setSlots entries => Sys2Proof.Machine.execSetSlots entries s
  | .setCause code defined category scope => Sys2Proof.Machine.execSetCause code defined category scope s
  | .setLineTimers line threshold lookback deadline => Sys2Proof.Machine.execSetLineTimers line threshold lookback deadline s
  | .setMonitor window => Sys2Proof.Machine.execSetMonitor window s
  | .storeSettings => Sys2Proof.Machine.execStoreSettings s
  | .recallSettings => Sys2Proof.Machine.execRecallSettings s
  | .setGuard mode => Sys2Proof.Machine.execSetGuard mode s
  | .enableLine line => Sys2Proof.Machine.execEnableLine line s
  | .disableLine line => Sys2Proof.Machine.execDisableLine line s
  | .closeShift line => Sys2Proof.Machine.execCloseShift line s
  | .setRate line rate => Sys2Proof.Machine.execSetRate line rate s
  | .planBegin line cause expected => Sys2Proof.Machine.execPlanBegin line cause expected s
  | .planEnd line => Sys2Proof.Machine.execPlanEnd line s
  | .stationFault station cause => Sys2Proof.Machine.execStationFault station cause s
  | .classify key cause => Sys2Proof.Machine.execClassify key cause s
  | .holdRecord key => Sys2Proof.Machine.execHoldRecord key s
  | .releaseRecord key => Sys2Proof.Machine.execReleaseRecord key s
  | .fetchRecords count => Sys2Proof.Machine.execFetchRecords count s
  | .readLine line => Sys2Proof.Machine.execReadLine line s
  | .readStation station => Sys2Proof.Machine.execReadStation station s
  | .readPoints first count => Sys2Proof.Machine.execReadPoints first count s
  | .readCountInput input => Sys2Proof.Machine.execReadCountInput input s
  | .readTally line => Sys2Proof.Machine.execReadTally line s
  | .readStationTally station => Sys2Proof.Machine.execReadStationTally station s
  | .readOpen line => Sys2Proof.Machine.execReadOpen line s
  | .readJournalStatus => Sys2Proof.Machine.execReadJournalStatus s
  | .readArchive line depth part => Sys2Proof.Machine.execReadArchive line depth part s
  | .readCause code => Sys2Proof.Machine.execReadCause code s
  | .matrixScan drive sense => Sys2Proof.Machine.execMatrixScan drive sense s
  | .chatterWindowEnd => Sys2Proof.Machine.execChatterWindowEnd s
  | .slotTableInstall => Sys2Proof.Machine.execSlotTableInstall s
  | .countSample slot active => Sys2Proof.Machine.execCountSample slot active s
  | .windowClose input => Sys2Proof.Machine.execWindowClose input s
  | .stallTimerExpiry station => Sys2Proof.Machine.execStallTimerExpiry station s
  | .armedReportExpiry station => Sys2Proof.Machine.execArmedReportExpiry station s
  | .thresholdExpiry line => Sys2Proof.Machine.execThresholdExpiry line s
  | .planOverrun line => Sys2Proof.Machine.execPlanOverrun line s
  | .deadlineExpiry key => Sys2Proof.Machine.execDeadlineExpiry key s
  | .boundaryReached => Sys2Proof.Machine.execBoundaryReached s
  | .shiftLengthLimit line => Sys2Proof.Machine.execShiftLengthLimit line s
  | .archiveWriteComplete => Sys2Proof.Machine.execArchiveWriteComplete s
  | .settingsWriteComplete => Sys2Proof.Machine.execSettingsWriteComplete s
  | .powerFail => Sys2Proof.Machine.execPowerFail s
  | .resetAssert => Sys2Proof.Machine.execResetAssert s
  | .powerReturn => Sys2Proof.Machine.execPowerReturn s
  | .resetRelease => Sys2Proof.Machine.execResetRelease s
  | .warmStart => Sys2Proof.Machine.execWarmStart s
  | .coldStart => Sys2Proof.Machine.execColdStart s
  | .characterReceived byte stopGood => Sys2Proof.Machine.execCharacterReceived byte stopGood s

end Sys2Proof.Machine
end

