-- ==== Sys2Proof/Machine/Idle.lean ====
section
/-! DEFINITION. What the part does while no command waits: the events of its own timers that are
due, and otherwise one slot of time (assumption 2). -/

namespace Sys2Proof.Machine

/-- A qualification window of an input has reached its close instant (R28). -/
def State.windowDue (s : State) (i : InputId) : Bool :=
  (s.input i).windows.any fun w => w.closes ≤ s.moment

/-- The key of a journal record (R179). -/
def JournalRecord.key (r : JournalRecord) : Key :=
  { line := idByte r.line, serial := BitVec.ofNat 32 r.serial, number := BitVec.ofNat 32 r.number }

/-- The part waits for its warm start, and the write queue is empty (R153). -/
def State.warmDue (s : State) : Bool :=
  s.power.main && !s.power.reset && !s.power.running && s.queue.isEmpty && s.power.failure.isSome

/-- The events of the timers that are due while the part runs, in the order in which an idle part
takes them (assumption 2). -/
def State.dueEvents (s : State) : List Instr :=
  (allInputs.filter s.windowDue).map Instr.windowClose
    ++ (allStations.filter s.stallDue).map Instr.stallTimerExpiry
    ++ (allStations.filter s.armedDue).map Instr.armedReportExpiry
    ++ (allLines.filter s.thresholdDue).map Instr.thresholdExpiry
    ++ (allLines.filter s.overrunDue).map Instr.planOverrun
    ++ ((s.journal.filter fun r => r.due s.now).map fun r => Instr.deadlineExpiry r.key)
    ++ (allLines.filter s.lengthDue).map Instr.shiftLengthLimit
    ++ (if s.boundaryDue.isSome then [Instr.boundaryReached] else [])
    ++ (if s.clock.windowEnd ≤ s.now then [Instr.chatterWindowEnd] else [])

/-- The event an idle part takes next, if one is due. That between a failure instant and the warm start
none of the timers' events is, also while main power is present, is the model's choice where the manual
leaves it open: deadlines (R100, R102), stall timers, armed reports and windows (assumption 40), and
chatter windows (assumption 37). -/
def State.dueEvent (s : State) : Option Instr :=
  if s.power.running then s.dueEvents.head?
  else if s.warmDue then some .warmStart
  else none

/-- An idle part: a due event, or one slot of time (assumption 2). -/
def idle (s : State) : Host.Outcome State Fault Refusal :=
  match s.dueEvent with
  | some i => exec i s
  | none => .next s.tick

end Sys2Proof.Machine
end

