-- ==== Sys2Proof/Safety.lean ====
section
/-! DEFINITION. What a sound state of the part is, in the terms the claims use: its capacities, its
lines and their slots, and the accounts of its banks; and what the claims say of shift closes and of
outages. -/

namespace Sys2Proof.Machine

/-! ### Capacities -/

/-- Settings that the part can hold: a schedule of rising centiseconds of the day (R143), and no line
with one REJECT input named twice (R68). -/
structure Settings.Sound (g : Settings) : Prop where
  values : ∀ v ∈ g.schedule, v < 8640000
  rising : g.schedule.Pairwise (· < ·)
  rejects : ∀ n, (Tab.get g.lines n).rejects.Nodup

/-- Nothing holds more than the part has room for: the journal (R95), the window queues (R28), the
archive (R151), the activity and glitch counts (R2, R21), the lost count (R99); and the settings the
part holds, in force, in a settings write or in an image whose check agrees, are sound. A damaged
image yields no part of its contents (R172). -/
structure State.WithinCapacity (s : State) : Prop where
  journal : s.journal.length ≤ 192
  archive : ∀ n, (Tab.get s.archive n).length ≤ 8
  windows : ∀ i, (s.input i).windows.length ≤ 8
  activity : ∀ p, (s.point p).activity ≤ 255
  glitches : ∀ i, (s.input i).glitches ≤ 255
  lost : s.lost ≤ 4294967295
  settings : s.settings.Sound
  copy : ∀ g, s.settingsCopy = some g → g.Sound
  image : ∀ i, s.image = some i → i.damaged = false → i.contents.Sound

/-! ### Lines -/

/-- A line's slot, plan and bank are those of its state: a candidate in PENDING-STOP and an open
record in DOWN, and no stoppage elsewhere (R74); a plan exactly in PLANNED (R69); a bank exactly in
service (R117), and no deferred boundary out of service (R145). -/
def LineLive.coherent (l : LineLive) : Bool :=
  match l.state with
  | .outOfService => l.slot.isNone && l.plan.isNone && l.bank.isNone && !l.deferred
  | .resuming | .running => l.slot.isNone && l.plan.isNone && l.bank.isSome
  | .pendingStop => (l.slot.any fun r => match r.kind with
      | .candidate _ => true
      | .record _ => false) && l.plan.isNone && l.bank.isSome
  | .down => l.openRecord.isSome && l.plan.isNone && l.bank.isSome
  | .planned => l.slot.isNone && l.plan.isSome && l.bank.isSome

/-- Every line is coherent. -/
def State.Coherent (s : State) : Prop := ∀ n, (s.line n).coherent = true

/-! ### Accounts -/

/-- The time a bank has booked, in all its buckets. -/
def Bank.booked (b : Bank) : Nat := b.times.toList.sum

/-- A bank's buckets account for its shift up to the segment in progress, which began at or before
`t`; its ideal remainder is a fraction (R118, R120, R131). -/
def Bank.accounted (b : Bank) (t : Nat) : Bool :=
  b.openCount + b.booked = b.segStart && b.segStart ≤ t && b.counts.remainder < 360000

/-- The instant up to which the banks are kept: the failure instant in an outage, else now. -/
def State.keptTo (s : State) : Nat := s.power.failure.getD s.now

/-- The part runs exactly when no outage is in progress, and every bank accounts for its shift
(R120). -/
structure State.Accounted (s : State) : Prop where
  outage : s.power.running = s.power.failure.isNone
  kept : s.keptTo ≤ s.now
  banks : ∀ n b, (s.line n).bank = some b → b.accounted s.keptTo = true

/-- The tally of every member of a line with a bank accounts for the line's shift: its seven state
times reach from the opening to the beginning of the station's present segment (R62, R120). -/
def State.Tallied (s : State) : Prop :=
  ∀ n b k, (s.line n).bank = some b → s.lineOf k = some n →
    ∃ y, (s.station k).tally = some y ∧
      b.openCount + y.times.toList.sum = (s.station k).since ∧ (s.station k).since ≤ s.keptTo

/-! ### What the claims say of stations and stoppages -/

/-- What the entry into another state makes of a station's causes and memory, from `v` before it to
`w` after it, at an instant (R58 to R60). -/
structure StationLive.Entered (v w : StationLive) (hall count : Nat) : Prop where
  stamped : w.stamp = hall
  running : w.state = .running → w.reported = none ∧ w.armed = v.armed ∧
    ((v.state = .faulted ∨ v.state = .halted ∨ v.state = .stalled) →
      w.memory = some ⟨.own, v.currentCause, hall, count⟩) ∧
    (v.state = .starved → w.memory = some ⟨.starved, 0, hall, count⟩) ∧
    (v.state = .blocked → w.memory = some ⟨.blocked, 0, hall, count⟩) ∧
    (v.state = .unmonitored → w.memory = none)
  stopped : (w.state = .faulted ∨ w.state = .halted) → w.armed = none ∧
    (∀ a, v.armed = some a → w.reported = some ⟨a.cause, hall⟩) ∧
    (v.armed = none → w.reported = v.reported)
  waiting : w.state ≠ .running → w.state ≠ .faulted → w.state ≠ .halted →
    w.reported = v.reported ∧ w.armed = v.armed
  kept : w.state ≠ .running → w.memory = v.memory ∧ w.stallExpiry = none

/-- An event from `old` to `s` changed the state or the current cause of station `k` (R59). -/
def State.Moved (old s : State) (k : StationId) : Prop :=
  (old.station k).state ≠ (s.station k).state ∨
    (old.station k).currentCause ≠ (s.station k).currentCause

/-- Two states agree outside the stations, the lines, the journal, the alerts and the link: what an
event of a station or a line may change. -/
structure State.SameButLines (s t : State) : Prop where
  settings : t.settings = s.settings
  points : t.points = s.points
  inputs : t.inputs = s.inputs
  installed : t.installed = s.installed
  awaitsFrame : t.awaitsFrame = s.awaitsFrame
  clock : t.clock = s.clock
  archive : t.archive = s.archive
  image : t.image = s.image
  imageStatus : t.imageStatus = s.imageStatus
  guardMode : t.guardMode = s.guardMode
  power : t.power = s.power
  pins : t.pins = s.pins
  pending : t.pending = s.pending

/-- The stations take, from `s` to `u`, the changes of their points that one event made: one whose
effective levels changed takes the state they give (R10, R51), with the causes and the memory of the
entry (R58 to R60), the segment of its old state booked (R62), and the stall timer of one that enters
RUNNING (R53); every other station, and one whose state stays, keeps its record; and every degraded
flag is formed (R61). -/
structure State.StationsMove (s u : State) : Prop where
  derived : ∀ k d, u.stationDef k = some d → (∃ p ∈ d.points, u.effective p ≠ s.effective p) →
    (u.station k).state = u.derivedState k
  kept : ∀ k, ((∀ d, u.stationDef k = some d → ∀ p ∈ d.points, u.effective p = s.effective p) ∨
      (u.station k).state = (s.station k).state) →
    u.station k = { s.station k with degraded := u.degradedNow k }
  entered : ∀ k, (u.station k).state ≠ (s.station k).state →
    (s.station k).Entered (u.station k) s.hall s.clock.count ∧
    (u.station k).tally = (s.station k).tallyAt s.clock.count ∧
    (u.station k).since = s.clock.count
  timer : ∀ k d, u.stationDef k = some d → (u.station k).state = .running →
    (s.station k).state ≠ .running → (u.station k).stallExpiry =
      if s.stationServed k = true ∧ d.stall ≠ 0 ∧ s.paceSource k ≠ none then
        some (s.clock.count + d.stall * 100)
      else none
  degraded : ∀ k, (u.station k).degraded = u.degradedNow k

/-- The lines take, from `u` to `t`, the changes of their members that one event made since `old`
(R59, R61, R73). Each line takes them once, from a state `w` that is `u` but for what the lines before
it made of the tallies, the journal and the alerts, and a record it enters into the journal is there in
`t`. The lines take one event in line-number order (assumption 31). -/
structure State.LinesTake (old u t : State) : Prop where
  settled : t = State.settleLines old u
  same : u.SameButLines t
  stations : ∀ k, t.station k = { u.station k with tally := (t.station k).tally }
  each : ∀ n, ∃ w, w.line n = u.line n ∧ u.SameButLines w ∧
    (∀ k, w.station k = { u.station k with tally := (w.station k).tally }) ∧
    t.line n = (State.lineNews old w n).line n ∧
    ∀ j, (State.lineNews old w n).journal.getLast? = some j → j ∈ t.journal

/-- What a pace edge makes of the station `k` that receives it, from `s` to `t`: it counts, restarts
the full stall timer of a RUNNING station, and returns a STALLED one to RUNNING (R52, R53, R60), whose
lines take the change from `x`, the state in which the edge is counted (R59, R73). -/
structure State.Paced (s x t : State) (k : StationId) : Prop where
  counted : ∀ y, (s.station k).tally = some y → ∃ z, (t.station k).tally = some z ∧
    z.pace = min (y.pace + 1) 4294967295
  timer : ∀ d, s.stationDef k = some d →
    ((s.station k).state = .running ∨ (s.station k).state = .stalled) →
    (t.station k).state = .running ∧
    (t.station k).stallExpiry = if d.stall = 0 then none else some (s.clock.count + d.stall * 100)
  returned : (s.station k).state = .stalled →
    (s.station k).Entered (t.station k) s.hall s.clock.count
  lines : (s.station k).state = .stalled → ∃ u, u = { x with stations := u.stations } ∧
    u.station k = { s.station k with
      state := .running
      stamp := s.hall
      reported := none
      memory := some ⟨.own, 3, s.hall, s.clock.count⟩
      stallExpiry := (t.station k).stallExpiry
      tally := ((s.station k).tallyAt s.clock.count).map fun y =>
        { y with pace := min (y.pace + 1) 4294967295 }
      since := s.clock.count } ∧
    (∀ m, m ≠ k → u.station m = s.station m) ∧ State.LinesTake x u t
  others : (s.station k).state ≠ .running → (s.station k).state ≠ .stalled →
    (t.station k).state = (s.station k).state ∧
    (t.station k).stallExpiry = (s.station k).stallExpiry ∧
    (t.station k).memory = (s.station k).memory

/-- The time that contributors of a stoppage give to station `k` (R63). -/
def rootTime (k : StationId) (cs : List Contributor) : Nat :=
  ((cs.filter fun c => c.station == k).map Contributor.duration).sum

/-- 1 for the station of contributor 1, and 0 for any other (R63). -/
def rootCount (k : StationId) (cs : List Contributor) : Nat :=
  match cs with
  | [] => 0
  | c :: _ => if c.station = k then 1 else 0

/-- What a record that closed makes of the tally of station `k`, from `y` to `z` (R63). -/
def StationTally.CreditedDown (y z : StationTally) (k : StationId) (cs : List Contributor) : Prop :=
  z = { y with
    rootDown := y.rootDown + rootTime k cs
    rootDownCount := z.rootDownCount } ∧
  z.rootDownCount = if rootCount k cs = 0 then y.rootDownCount
    else min (y.rootDownCount + 1) 4294967295

/-- The tallies of all stations are credited with the contributors of a record that closed (R63). -/
def State.CreditedDown (s t : State) (cs : List Contributor) : Prop :=
  ∀ k y, (s.station k).tally = some y →
    ∃ z, (t.station k).tally = some z ∧ y.CreditedDown z k cs

/-- The tallies of all stations are credited with the contributors of a micro-stop (R63). -/
def State.CreditedMicro (s t : State) (cs : List Contributor) : Prop :=
  ∀ k y, (s.station k).tally = some y → ∃ z, (t.station k).tally = some z ∧
    z = { y with
      rootMicro := y.rootMicro + rootTime k cs
      rootMicroCount := z.rootMicroCount } ∧
    z.rootMicroCount = if rootCount k cs = 0 then y.rootMicroCount
      else min (y.rootMicroCount + 1) 4294967295

/-- The running segment of the bank `b`, where one is open, has been credited to the ideal output of
`b'` up to `now` at the rated rate; no ideal output is credited otherwise (R131). -/
structure Bank.RunCredited (b b' : Bank) (rate : Option Nat) (now : Nat) : Prop where
  segment : ∀ r q total, b.runStart = some r → rate = some q →
    total = b.counts.remainder + q * (now - r) →
    b'.counts.ideal = b.counts.ideal + total / 360000 ∧ b'.counts.remainder = total % 360000
  kept : b.runStart = none →
    b'.counts.ideal = b.counts.ideal ∧ b'.counts.remainder = b.counts.remainder

/-- A bank whose stop ended as a micro-stop while it read `b`: all of N is in M, and every other
bucket is as it was (R121). -/
def Bank.MicroStopped (b b' : Bank) : Prop :=
  b'.time .n = 0 ∧ b'.time .m = b.time .m + b.time .n ∧
    ∀ k, k ≠ .n → k ≠ .m → b'.time k = b.time k

/-- A bank in which an amount moved from one bucket to another while it read `b` (R107, R122). The
bucket it moved from holds the amount (R107; were it to hold less, assumption 10). -/
def Bank.Moved (b b' : Bank) (source target : Bucket) (amount : Nat) : Prop :=
  (amount ≤ b.time source →
    b'.time source = b.time source - amount ∧ b'.time target = b.time target + amount) ∧
    ∀ k, k ≠ source → k ≠ target → b'.time k = b.time k

/-- A bank in which the durations of contributors moved from N, while it read `b`, to the buckets of
their categories (R121); N holds them all (R121; were it to hold less, assumption 10). -/
def Bank.Promoted (b b' : Bank) (cs : List Contributor) : Prop :=
  b'.time .n = b.time .n - (cs.map Contributor.duration).sum ∧
    ((cs.map Contributor.duration).sum ≤ b.time .n → ∀ c, b'.time (.cat c) = b.time (.cat c) +
      ((cs.filter fun x => x.category == c).map Contributor.duration).sum) ∧
    ∀ k, k = .u ∨ k = .m ∨ k = .o ∨ k = .x → b'.time k = b.time k

/-! ### What the claims say of shift closes -/

/-- The contributors of the stoppage in the slot of line `n` as of now; none for an empty slot. -/
def State.slotContributors (s : State) (n : LineId) : List Contributor :=
  match (s.line n).slot with
  | none => []
  | some r => r.contributorsAt s.clock.count

/-- The record `j` that the stoppage `r` of line `n` is in the journal after a shift close now (R83,
R97, R147). -/
structure State.ShiftRecord (s : State) (n : LineId) (r : Stoppage) (j : JournalRecord) : Prop where
  line : j.line = n
  serial : j.serial = r.serial
  number : j.number = match r.kind with
    | .candidate _ => (s.line n).nextNumber
    | .record m => m
  start : j.startStamp = r.startStamp
  duration : j.duration = s.clock.count - r.startCount
  entry : j.entryState = r.entryState
  cause : j.operatorCause = r.operatorCause
  state : j.state = if r.operatorCause = none then .lapsed else .confirmed
  markers : j.markers = { r.markers with shiftEnd := true }
  contributors : j.contributors = r.contributorsAt s.clock.count

/-- The view `v` of the bank `b` of line `n` closed now: the reading of the bank, but that a candidate
in the slot has been promoted, its time in the buckets of its contributors' categories (R137, R147,
R121). -/
structure State.ClosedReading (s : State) (n : LineId) (b : Bank) (v : BankView) : Prop where
  kept : (∀ r e, (s.line n).slot = some r → r.kind ≠ .candidate e) →
    v = s.bankView n b s.clock.count
  promoted : ∀ r e, (s.line n).slot = some r → r.kind = .candidate e →
    v.counts = { (s.bankView n b s.clock.count).counts with
      stoppage := min (b.counts.stoppage + 1) 4294967295 } ∧
    v.scheduled = s.clock.count - b.openCount ∧ v.countNoisy = b.countNoisy ∧
    v.degraded = b.degraded ∧
    v.figures = figures v.scheduled v.times v.counts (s.lineDef n).output.isSome ∧
    ∃ b', (b.book s.clock.count).Promoted b' (r.contributorsAt s.clock.count) ∧
      ∀ k, timeOf v.times k = b'.time k

/-- The closed bank `c` of line `n` holds the tally of station `k` closed now, credited with the
stoppage in the slot (R62, R63, R137). -/
def State.ClosedTally (s : State) (n : LineId) (c : ClosedBank) (k : StationId) : Prop :=
  ∀ y, (s.station k).tallyAt s.clock.count = some y →
    ∃ z, c.tallyOf k = some z ∧ y.CreditedDown z k (s.slotContributors n)

/-- A shift close of line `n`, whose bank was `b`, made now from `s` to `t`: its closed bank `c` is
staged, the stoppage in the slot is in the journal, and every record of the shift is settled (R101,
R147, R148). -/
structure State.ClosedShift (s t : State) (n : LineId) (b : Bank) (c : ClosedBank) : Prop where
  staged : (t.line n).staging = some c
  line : c.line = n
  serial : c.serial = (s.line n).serial
  opened : c.openStamp = (s.line n).openStamp.getD 0
  closed : c.closeStamp = s.hall
  reading : s.ClosedReading n b c.view
  record : ∀ r, (s.line n).slot = some r → ∃ j ∈ t.journal, s.ShiftRecord n r j
  settled : ∀ r ∈ t.journal, r.line = n → r.serial = (s.line n).serial → r.state.settled = true

/-- A shift close of line `n` made alone: its record is the last of the journal, and the tallies of its
members are closed (R95, R137). -/
structure State.ClosedAlone (s t : State) (n : LineId) (c : ClosedBank) : Prop where
  record : ∀ r, (s.line n).slot = some r →
    ∃ j, t.journal.getLast? = some j ∧ s.ShiftRecord n r j
  unrecorded : (s.line n).slot = none → t.journal.length = s.journal.length
  tallies : ∀ k ∈ s.members n, s.ClosedTally n c k

/-- The continuation `q` of the stoppage `r` of line `n` in a shift opened now (R148, R42). -/
structure State.Continues (s t : State) (n : LineId) (r q : Stoppage) : Prop where
  kind : q.kind = .record 1
  start : q.startStamp = s.hall ∧ q.startCount = s.clock.count ∧ q.lastSince = s.clock.count
  serial : q.serial = (t.line n).serial
  cause : q.operatorCause = none
  entry : ∀ k, (s.lineDef n).constraint = some k → q.entryState = (s.station k).state
  markers : q.markers.continued = true ∧
    ∀ k, (s.lineDef n).constraint = some k → q.markers = { RecordMarkers.clear with
      continued := true
      degraded := (s.station k).degraded || (s.station r.walkStation).degraded }
  single : q.contributors.length = 1
  contributor : ∀ last, r.contributors.getLast? = some last →
    q.contributors = [⟨last.station, last.cause, contributorCategory s.settings last.cause, 0⟩]

/-- The next shift of line `n` opened now, from `s` to `t`, with the bank `b`: in the state the line
was in, or with the continuation of the stoppage in the slot (R117, R123, R148). -/
structure State.OpenedNext (s t : State) (n : LineId) (b : Bank) : Prop where
  serial : (t.line n).serial = if (s.line n).serial = 4294967295 then 1 else (s.line n).serial + 1
  stamp : (t.line n).openStamp = some s.hall
  plan : (t.line n).plan = (s.line n).plan
  bank : (t.line n).bank = some b
  opened : b.openCount = s.clock.count ∧ b.booked = 0 ∧ b.counts = Counts.zero
  plain : (s.line n).slot = none → (t.line n).slot = none ∧
    (t.line n).state = (s.line n).state ∧ (t.line n).nextNumber = 1 ∧
    ((s.line n).state = .running → b.booking = .u ∧ b.runStart = some s.clock.count) ∧
    ((s.line n).state = .resuming → b.booking = .x) ∧
    ∀ p, (s.line n).state = .planned → (s.line n).plan = some p →
      b.booking = if p.overrun then .o else .cat p.category
  continued : ∀ r, (s.line n).slot = some r → (t.line n).state = .down ∧
    (t.line n).nextNumber = 2 ∧
    (∃ q, (t.line n).slot = some q ∧ s.Continues t n r q) ∧
    ∀ last, r.contributors.getLast? = some last →
      b.booking = .cat (contributorCategory s.settings last.cause)

/-! ### What the claims say of outages -/

/-- What became, in an outage, of the times and of the micro-stop count of a bank `b` whose line had the
stoppage `r` in its slot at the failure: a candidate ended there as a micro-stop, a record closed,
and nothing but X grew since (R93, R75, R121, R124). -/
structure Bank.EndedInOutage (b : Bank) (r : Stoppage) (time : Bucket → Nat) (micro : Nat) :
    Prop where
  candidate : ∀ e, r.kind = .candidate e → time .n = 0 ∧ time .m = b.time .m + b.time .n ∧
    (∀ k, k ≠ .n → k ≠ .m → k ≠ .x → time k = b.time k) ∧
    micro = min (b.counts.micro + 1) 4294967295
  record : ∀ m, r.kind = .record m → (∀ k, k ≠ .x → time k = b.time k) ∧
    micro = b.counts.micro

/-- The root times and counts of the tally of station `k`, from `y` to `z`, when the stoppage `r` with
the contributors `cs` has ended (R63, R93). -/
structure StationTally.Charged (y z : StationTally) (r : Stoppage) (k : StationId)
    (cs : List Contributor) : Prop where
  candidate : ∀ e, r.kind = .candidate e → z.rootMicro = y.rootMicro + rootTime k cs ∧
    z.rootMicroCount = (if rootCount k cs = 0 then y.rootMicroCount
      else min (y.rootMicroCount + 1) 4294967295) ∧
    z.rootDown = y.rootDown ∧ z.rootDownCount = y.rootDownCount
  record : ∀ m, r.kind = .record m → z.rootDown = y.rootDown + rootTime k cs ∧
    z.rootDownCount = (if rootCount k cs = 0 then y.rootDownCount
      else min (y.rootDownCount + 1) 4294967295) ∧
    z.rootMicro = y.rootMicro ∧ z.rootMicroCount = y.rootMicroCount

/-- No stoppage of a line other than `n` charges time to station `k`. Contributors of a line are
members of it (R78), so this is so of each member of `n`. -/
def State.ChargedOnlyBy (s : State) (n : LineId) (k : StationId) : Prop :=
  ∀ m r c, m ≠ n → (s.line m).slot = some r → c ∈ r.contributors → c.station ≠ k

/-- A warm start from `s` to `t` closed the shift of line `n`, whose bank was `b`, at `closeAt` in the
outage that began at `f`, and opened the shift `m` serials on at `openAt` (R154). -/
structure State.TurnedInOutage (s t : State) (f : Nat) (n : LineId) (b : Bank) (reason : CloseReason)
    (deferred : Bool) (closeAt openAt m : Nat) : Prop where
  closed : ∃ c, (t.line n).staging = some c ∧ c.line = n ∧ c.serial = (s.line n).serial ∧
    c.reason = reason ∧ c.deferred = deferred ∧ c.openStamp = (s.line n).openStamp.getD 0 ∧
    c.closeStamp = s.hallAt closeAt ∧ c.view.scheduled = closeAt - b.openCount ∧
    (b.booking = .x → b.segStart = f →
      timeOf c.view.times .x = b.time .x + (closeAt - f))
  queued : .bank n ∈ t.queue
  serial : (t.line n).serial = ((s.line n).serial + m - 1) % 4294967295 + 1
  opened : (t.line n).openStamp = some (s.hallAt openAt)
  bank : ∃ b', (t.line n).bank = some b' ∧ b'.openCount = openAt
  deferral : (t.line n).deferred = false

/-! ### What the claims say of interrupted writes -/

/-- The settings `g` are part of `new` and part of `old`, item by item of the table of R168 (R171). -/
structure Settings.PartOf (g new old : Settings) : Prop where
  points : ∀ p, Tab.get g.points p = Tab.get new.points p ∨ Tab.get g.points p = Tab.get old.points p
  window : g.window = new.window ∨ g.window = old.window
  inputs : ∀ i, Tab.get g.inputs i = Tab.get new.inputs i ∨ Tab.get g.inputs i = Tab.get old.inputs i
  slots : g.slots = new.slots ∨ g.slots = old.slots
  stations : ∀ k, Tab.get g.stations k = Tab.get new.stations k ∨
    Tab.get g.stations k = Tab.get old.stations k
  definitions : ∀ n d, d = Tab.get g.lines n →
    (∃ e, (e = Tab.get new.lines n ∨ e = Tab.get old.lines n) ∧
      d.constraint = e.constraint ∧ d.output = e.output ∧ d.rejects = e.rejects) ∧
    (∃ e, (e = Tab.get new.lines n ∨ e = Tab.get old.lines n) ∧ d.rate = e.rate) ∧
    ∃ e, (e = Tab.get new.lines n ∨ e = Tab.get old.lines n) ∧
      d.threshold = e.threshold ∧ d.lookback = e.lookback ∧ d.deadline = e.deadline
  causes : ∀ c, Tab.get g.causes c = Tab.get new.causes c ∨ Tab.get g.causes c = Tab.get old.causes c
  schedule : g.schedule = new.schedule ∨ g.schedule = old.schedule
  storedGuard : g.storedGuard = new.storedGuard ∨ g.storedGuard = old.storedGuard

/-! ### Conditions and frames of claims -/

/-- One scan of the point with the settings `d` raises its activity count to its chatter limit: it
accepts a transition, or a run breaks (R2, R5). -/
def PointAcq.ReachesLimit (a : PointAcq) (d : PointSettings) (raw : Bool) : Prop :=
  (∃ level : Bool, a.accepted = (if level then .on else .off) ∧
    (raw ≠ level ∧ a.run + 1 = d.debounce ∨ raw = level ∧ a.run ≠ 0)) ∧
  a.activity < 255 ∧ d.limit = a.activity + 1

/-- An input has a role of line `n`: its OUTPUT, a REJECT, or the PACE of a member (R70). -/
def State.HasRoleOf (s : State) (i : InputId) (n : LineId) : Prop :=
  s.roleOf i = .output n ∨ s.roleOf i = .reject n ∨
    ∃ k, s.roleOf i = .pace k ∧ s.lineOf k = some n

/-- The part takes a request of a kind now: it runs, owes no reply, and the guard accepts the kind
(R158, R174). -/
structure State.Takes (s : State) (kind : RequestKind) : Prop where
  running : s.power.running = true
  ready : s.link.serving = .ready
  guard : kind.guarded = true → guardRefusal s.guardMode s.pins.key = none

/-- Two states agree but for the record of a key in the journal, and the link. -/
structure State.SameButRecord (s t : State) (k : Key) : Prop where
  rest : t = { s with journal := t.journal, link := t.link }
  length : t.journal.length = s.journal.length
  others : ∀ (place : Nat) (r : JournalRecord), s.journal[place]? = some r → r.hasKey k = false →
    t.journal[place]? = some r

end Sys2Proof.Machine
end

