-- ==== Sys2Proof/Certificates/Slice0/Obligations.lean ====
section
/-! DEFINITION. The statements for the provers. -/

open Sys2Proof Sys2Proof.Machine

/-! ### Steps and reset -/

/-- A step with a command at the front of the queue is that command on the rest of the queue. -/
def Obligations.StepRunsTheFrontCommand : Prop :=
  ∀ (s : State) (c : Instr) (rest : List Instr), s.pending = c :: rest →
    step s = exec c { s with pending := rest }

/-- An idle part with nothing due lets one slot of 31.25 µs pass, and the interval counter counts
one centisecond every 320 slots (the model's choice, assumption 2). -/
def Obligations.IdleStepPassesOneSlot : Prop :=
  ∀ s : State, s.pending = [] → s.dueEvent = none →
    step s = .next { s with clock := { s.clock with
      sub := if s.clock.sub + 1 < 320 then s.clock.sub + 1 else 0
      count := if s.clock.sub + 1 < 320 then s.clock.count
        else (s.clock.count + 1) % 2 ^ 48 } }

/-- Every command answers a next state in every state: none faults and none is refused by the model.
None touches the queue of commands that wait. -/
def Obligations.EveryCommandAnswersAState : Prop :=
  ∀ (i : Instr) (s : State), ∃ t, exec i s = .next t ∧ t.pending = s.pending

/-- The values a cold start with an erased image gives: acquisition (R17, R18, R36), stations and
lines (R67, R92), journal (R116), clock (R139, R140, R155), alerts (R164), guard (R176). That a
frame begins at a start is read from R19 (assumption 35). -/
def Obligations.ResetHoldsTheColdStartValues : Prop :=
  (∀ p, State.reset.pointDef p =
      { polarity := .normal, debounce := 5, mode := .holdOnNoise, limit := 40 }) ∧
  (∀ p, (State.reset.point p).accepted = .unsettled ∧ (State.reset.point p).run = 0 ∧
      (State.reset.point p).activity = 0 ∧ (State.reset.point p).noisy = false ∧
      (State.reset.point p).held = none) ∧
  State.reset.settings.window = 10 ∧
  (∀ i, State.reset.inputDef i = { edge := .leading, debounce := 3, limit := 0, qual := none }) ∧
  (∀ i, (State.reset.input i).accepted = .unsettled ∧ (State.reset.input i).run = 0 ∧
      (State.reset.input i).raw = 0 ∧ (State.reset.input i).glitches = 0 ∧
      (State.reset.input i).noisy = false ∧ (State.reset.input i).windows = []) ∧
  (∀ j : SlotId, (Tab.get State.reset.installed j).map Fin.val = some (j.val % 16)) ∧
  State.reset.awaitsFrame = false ∧
  (∀ k, State.reset.stationDef k = none) ∧
  (∀ n, State.reset.lineDef n =
      { constraint := none, output := none, rejects := [], rate := none, threshold := 30,
        lookback := 120, deadline := 600 }) ∧
  (∀ n, (State.reset.line n).state = .outOfService ∧ (State.reset.line n).stamp = 0 ∧
      (State.reset.line n).serial = 0 ∧ (State.reset.line n).slot = none ∧
      (State.reset.line n).plan = none ∧ (State.reset.line n).bank = none ∧
      (State.reset.line n).staging = none) ∧
  State.reset.journal = [] ∧ State.reset.lost = 0 ∧ State.reset.queue = [] ∧
  State.reset.clock.count = 0 ∧ State.reset.clock.offset = 0 ∧ State.reset.clock.isSet = false ∧
  State.reset.clock.lastBoundary = none ∧ State.reset.clock.nextBoundary = none ∧
  State.reset.settings.schedule = [] ∧ State.reset.guardMode = .opened ∧
  State.reset.alerts = 0x40 ∧ State.reset.attn = true ∧
  State.reset.link.receiver = .hunt ∧ State.reset.link.serving = .ready

/-- The state after reset is sound: within capacity, coherent, with the accounts of its banks and
station tallies in order. -/
def Obligations.ResetIsSound : Prop :=
  State.reset.WithinCapacity ∧ State.reset.Coherent ∧ State.reset.Accounted ∧ State.reset.Tallied

/-! ### Invariants -/

/-- Every step keeps what the part holds within its capacity: 192 journal records (R95, R99), 8
entries of a line's archive (R151), 8 windows of an input (R28), counts that stop at 255 (R2, R21)
and at 2^32 − 1 (R99), settings with rising schedules of centiseconds of the day (R143) and REJECT
inputs named once (R68), in force, in a settings write, and in an image whose check agrees. -/
def Obligations.StepKeepsCapacity : Prop :=
  ∀ s t : State, s.WithinCapacity → step s = .next t → t.WithinCapacity

/-- Every step keeps each line's slot, plan and bank those of its state (R69, R74, R117). -/
def Obligations.StepKeepsLinesCoherent : Prop :=
  ∀ s t : State, s.Coherent → step s = .next t → t.Coherent

/-- Every step keeps the accounts of the banks: every centisecond of a shift is in one bucket, and
the ideal remainder stays below 360,000 (R118, R120, R131). It keeps those of the station tallies
with them: every centisecond of a shift is in one state time of each member (R62, R120). The
interval counter is not at its wrap (R139). -/
def Obligations.StepKeepsAccounts : Prop :=
  ∀ s t : State, s.Accounted → s.Coherent → s.WithinCapacity → s.clock.count + 1 < 2 ^ 48 →
    step s = .next t → t.Accounted ∧ (s.Tallied → t.Tallied)

/-- Every reading of a bank balances: S is the time since the shift opened and the sum of the
buckets (R120, R132). The bucket being booked has the segment in progress with what it stores, and
every other bucket what it stores; the counts are as stored, but that the ideal output has the running
segment credited up to the reading (R131, R132). Its figures are those of the manual, each division
rounding down, and none exceeds 10,000 (R133 to R135). -/
def Obligations.ReadingsBalanceAndFigure : Prop :=
  ∀ (s : State) (n : LineId) (b : Bank) (t0 t : Nat) (v : BankView), b.accounted t0 = true →
    t0 ≤ t → v = s.bankView n b t →
    v.scheduled = t - b.openCount ∧ v.times.toList.sum = v.scheduled ∧
    (∀ k, timeOf v.times k = b.time k + if k = b.booking then t - b.segStart else 0) ∧
    v.counts = { b.counts with ideal := v.counts.ideal, remainder := v.counts.remainder } ∧
    (b.runStart = none → v.counts = b.counts) ∧
    (∀ r rate total, b.runStart = some r → (s.lineDef n).rate = some rate →
      total = b.counts.remainder + rate * (t - r) →
      v.counts.ideal = b.counts.ideal + total / 360000 ∧ v.counts.remainder = total % 360000) ∧
    v.countNoisy = b.countNoisy ∧ v.degraded = b.degraded ∧
    v.figures.loading = v.scheduled - (Tab.get v.times 7 + Tab.get v.times 8 + Tab.get v.times 9
      + Tab.get v.times 10 + Tab.get v.times 11) ∧
    v.figures.good = v.counts.t - v.counts.j ∧
    v.figures.availability = (if v.figures.loading = 0 then none
      else some (10000 * Tab.get v.times 0 / v.figures.loading)) ∧
    v.figures.performance = (if (s.lineDef n).output = none ∨ v.counts.ideal = 0 then none
      else some (min 10000 (10000 * v.counts.t / v.counts.ideal))) ∧
    (v.figures.overspeed = true ↔
      (s.lineDef n).output ≠ none ∧ v.counts.ideal ≠ 0 ∧ v.counts.ideal < v.counts.t) ∧
    v.figures.quality = (if (s.lineDef n).output = none ∨ v.counts.t = 0 then none
      else some (10000 * v.figures.good / v.counts.t)) ∧
    (v.figures.rejectExcess = true ↔ v.counts.t < v.counts.j) ∧
    (∀ a p q, v.figures.availability = some a → v.figures.performance = some p →
      v.figures.quality = some q → v.figures.oee = some (a * p * q / 100000000)) ∧
    ((v.figures.availability = none ∨ v.figures.performance = none ∨ v.figures.quality = none) →
      v.figures.oee = none) ∧
    (∀ x, (v.figures.availability = some x ∨ v.figures.performance = some x ∨
      v.figures.quality = some x ∨ v.figures.oee = some x) → x ≤ 10000)

/-! ### Requests and the link -/

/-- Every request reads back from its own body, whatever its operands: no field is dropped or moved
(R178, R179), and its kind code names its kind (R163). -/
def Obligations.RequestBodiesReadBack : Prop :=
  ∀ (i : Instr) (kind : RequestKind), i.request? = some kind → i.wellFormed = true →
    (∀ h, i ≠ .setClock true h) →
    readRequest kind i.body = some i ∧ RequestKind.ofByte kind.code = some kind ∧
      i.body.length ≤ 240

/-- A request that comes while the part is not running or owes a reply changes nothing (R158 case 2,
R167). -/
def Obligations.RequestsAreDiscardedUnlessReady : Prop :=
  ∀ (i : Instr) (kind : RequestKind) (s : State), i.request? = some kind →
    (s.power.running = false ∨ s.link.serving ≠ .ready) → exec i s = .next s

/-- The guard refuses each guarded kind by the mode in force and KEY, before its fields are looked
at (R162 check 3, R174). -/
def Obligations.GuardRefusesGuardedKinds : Prop :=
  ∀ (i : Instr) (kind : RequestKind) (s : State), i.request? = some kind → i.wellFormed = true →
    kind.guarded = true → s.power.running = true → s.link.serving = .ready →
    (s.guardMode = .keyed → s.pins.key = false →
      exec i s = .next (s.owe (some ⟨0xFF, [kind.code, 0x04, 1]⟩))) ∧
    (s.guardMode = .sealed → exec i s = .next (s.owe (some ⟨0xFF, [kind.code, 0x04, 2]⟩)))

/-- A refused request changes no state but the reply owed, whichever check refused it (R161); a
refused RECALL-SETTINGS may have renewed the image status (R173). An identifier out of range is
refused OUT-OF-RANGE with its value, before the owner looks at the request (R162 check 4); of
several the earliest in body order is the detail (the model's choice, assumption 30). -/
def Obligations.RefusedRequestsChangeNothing : Prop :=
  (∀ (i : Instr) (kind : RequestKind) (s t : State) (r : Reply), i.request? = some kind →
    (∀ h, i ≠ .setClock true h) → s.power.running = true → s.link.serving = .ready →
    exec i s = .next t → t.link.reply = some r → r.kind = 0xFF →
    t = s.owe (some r) ∨
      kind = .recallSettings ∧
        t = State.owe { s with imageStatus := imageExamined s.image } (some r)) ∧
  (∀ (s : State) (i : Instr) (kind : RequestKind) (line cause depth part : Byte) (rate : BitVec 32)
      (threshold lookback deadline : BitVec 16) (expected : Carried (BitVec 32))
      (serial number : BitVec 32),
    i ∈ [Instr.enableLine line, .disableLine line, .closeShift line, .setRate line rate,
      .setLineTimers line threshold lookback deadline, .planBegin line cause expected,
      .planEnd line, .readLine line, .readTally line, .readOpen line, .readArchive line depth part,
      .classify ⟨line, serial, number⟩ cause, .holdRecord ⟨line, serial, number⟩,
      .releaseRecord ⟨line, serial, number⟩] → i.request? = some kind → s.Takes kind →
    7 < line.toNat → exec i s = .next (s.owe (some ⟨0xFF, [kind.code, 0x03, line]⟩))) ∧
  (∀ (s : State) (i : Instr) (kind : RequestKind) (station input cause edge debounce limit : Byte)
      (qual : Carried QualField), i.request? = some kind → s.Takes kind →
    (i ∈ [Instr.stationFault station cause, .readStation station, .readStationTally station] →
      63 < station.toNat → exec i s = .next (s.owe (some ⟨0xFF, [kind.code, 0x03, station]⟩))) ∧
    (i ∈ [Instr.setCountInput input edge debounce limit qual, .readCountInput input] →
      15 < input.toNat → exec i s = .next (s.owe (some ⟨0xFF, [kind.code, 0x03, input]⟩)))) ∧
  (∀ (s : State) (b : StationField), s.Takes .defineStation →
    (63 < b.station.toNat → exec (.defineStation b) s =
      .next (s.owe (some ⟨0xFF, [0x20, 0x03, b.station]⟩))) ∧
    (b.station.toNat ≤ 63 → b.defined ≠ 0 →
      (b.line ≠ 0xFF → 7 < b.line.toNat → exec (.defineStation b) s =
        .next (s.owe (some ⟨0xFF, [0x20, 0x03, b.line]⟩))) ∧
      (b.line.toNat ≤ 7 →
        (15 < b.position.toNat → exec (.defineStation b) s =
          .next (s.owe (some ⟨0xFF, [0x20, 0x03, b.position]⟩))) ∧
        (b.position.toNat ≤ 15 → b.pace.presence ≠ 0 → 15 < b.pace.value.toNat →
          exec (.defineStation b) s =
            .next (s.owe (some ⟨0xFF, [0x20, 0x03, b.pace.value]⟩)))))) ∧
  (∀ (s : State) (line constraint : Byte) (output : Carried Byte) (rejects : List Byte),
    s.Takes .defineLine → rejects.length ≤ 2 →
    (7 < line.toNat → exec (.defineLine line constraint output rejects) s =
      .next (s.owe (some ⟨0xFF, [0x21, 0x03, line]⟩))) ∧
    (line.toNat ≤ 7 →
      (constraint ≠ 0xFF → 63 < constraint.toNat →
        exec (.defineLine line constraint output rejects) s =
          .next (s.owe (some ⟨0xFF, [0x21, 0x03, constraint]⟩))) ∧
      ((constraint = 0xFF ∨ constraint.toNat ≤ 63) →
        (output.presence ≠ 0 → 15 < output.value.toNat →
          exec (.defineLine line constraint output rejects) s =
            .next (s.owe (some ⟨0xFF, [0x21, 0x03, output.value]⟩))) ∧
        (∀ before b after, (output.presence ≠ 0 → output.value.toNat ≤ 15) →
          rejects = before ++ b :: after → (∀ x ∈ before, x.toNat ≤ 15) → 15 < b.toNat →
          exec (.defineLine line constraint output rejects) s =
            .next (s.owe (some ⟨0xFF, [0x21, 0x03, b]⟩)))))) ∧
  (∀ (s : State) (before after : List Byte) (b : Byte), s.Takes .setSlots →
    before.length + 1 + after.length = 32 → (∀ x ∈ before, x = 0xFF ∨ x.toNat ≤ 15) → b ≠ 0xFF →
    15 < b.toNat → exec (.setSlots (before ++ b :: after)) s =
      .next (s.owe (some ⟨0xFF, [0x24, 0x03, b]⟩))) ∧
  (∀ (s : State) (code defined category : Byte) (scope : Carried Byte), s.Takes .setCause →
    10 ≤ code.toNat → defined ≠ 0 → scope.presence ≠ 0 → 63 < scope.value.toNat →
    exec (.setCause code defined category scope) s =
      .next (s.owe (some ⟨0xFF, [0x25, 0x03, scope.value]⟩))) ∧
  (∀ (s : State) (line depth part : Byte), s.Takes .readArchive → line.toNat ≤ 7 →
    (7 < depth.toNat → exec (.readArchive line depth part) s =
      .next (s.owe (some ⟨0xFF, [0x68, 0x03, depth]⟩))) ∧
    (depth.toNat ≤ 7 → part ≠ 0xFF → 63 < part.toNat → exec (.readArchive line depth part) s =
      .next (s.owe (some ⟨0xFF, [0x68, 0x03, part]⟩)))) ∧
  ∀ s : State, s.Takes .readCause →
    exec (.readCause 0) s = .next (s.owe (some ⟨0xFF, [0x69, 0x03, 0]⟩))

/-- The receiver acts on each character as the table of R157 says. -/
def Obligations.ReceiverFollowsItsTable : Prop :=
  ∀ (s : State) (b : Byte) (good : Bool), s.power.running = true → s.link.serving ≠ .replying →
    (s.link.receiver = .hunt → b = 0xC5 → good = true →
      exec (.characterReceived b good) s =
        .next { s with link := { s.link with receiver := .receiving [] } }) ∧
    (s.link.receiver = .hunt → (b ≠ 0xC5 ∨ good = false) →
      exec (.characterReceived b good) s = .next s) ∧
    (s.link.receiver = .skip → exec (.characterReceived b good) s = .next s) ∧
    (∀ bytes, s.link.receiver = .receiving bytes → good = false →
      exec (.characterReceived b good) s =
        .next { s with link := { s.link with receiver := .skip } }) ∧
    (∀ address, s.link.receiver = .receiving [address] → 240 < b.toNat →
      exec (.characterReceived b good) s =
        .next { s with link := { s.link with receiver := .skip } }) ∧
    (∀ bytes, s.link.receiver = .receiving bytes → good = true →
      (bytes.length = 1 → b.toNat ≤ 240) →
      frameSize (bytes ++ [b]) ≠ some (bytes.length + 1) →
      exec (.characterReceived b good) s =
        .next { s with link := { s.link with receiver := .receiving (bytes ++ [b]) } }) ∧
    exec .frameGapTimeout s = .next { s with link := { s.link with receiver := .hunt } }

/-- The second check byte of a frame completes it (R157, R158): a bad check, an owed reply, another
address, or a broadcast of another kind is ignored; a broadcast SET-CLOCK acts as its own command,
and changes nothing with a body of the wrong length; an unknown kind and a body of the wrong length
are refused (R162); and an addressed request acts as its own command. -/
def Obligations.CompleteFramesAreJudged : Prop :=
  ∀ (s : State) (f : Frame) (c1 c2 : Byte) (idle : State), s.power.running = true →
    s.link.serving ≠ .replying → f.body.length ≤ 240 → f.check = c1 ++ c2 →
    s.link.receiver = .receiving (f.covered ++ [c1]) →
    idle = { s with link := { s.link with receiver := .hunt } } →
    (f.check ≠ crc16 f.covered → exec (.frameComplete c2) s = .next idle) ∧
    (s.link.serving = .serving → exec (.frameComplete c2) s = .next idle) ∧
    (f.address ≠ 0 → f.address ≠ s.link.address → exec (.frameComplete c2) s = .next idle) ∧
    (s.link.address ≠ 0 → f.address = 0 → f.kind ≠ 0x10 →
      exec (.frameComplete c2) s = .next idle) ∧
    (f.check = crc16 f.covered → s.link.serving = .ready → s.link.address ≠ 0 → f.address = 0 →
      f.kind = 0x10 →
      (∀ hall : BitVec 48, f.body = bytes48 hall →
        exec (.frameComplete c2) s = exec (.setClock true hall) idle) ∧
      (f.body.length ≠ 6 → exec (.frameComplete c2) s = .next idle)) ∧
    (f.check = crc16 f.covered → s.link.serving = .ready → f.address = s.link.address →
      (RequestKind.ofByte f.kind = none →
        exec (.frameComplete c2) s = .next (idle.owe (some ⟨0xFF, [f.kind, 0x01, 0]⟩))) ∧
      (∀ kind, RequestKind.ofByte f.kind = some kind → readRequest kind f.body = none →
        exec (.frameComplete c2) s =
          .next (idle.owe (some ⟨0xFF, [kind.code, 0x02, BitVec.ofNat 8 f.body.length]⟩))) ∧
      (∀ kind i, RequestKind.ofByte f.kind = some kind → readRequest kind f.body = some i →
        exec (.frameComplete c2) s = exec i idle))

/-- A formed reply begins, and its end makes the controller READY with the receiver in HUNT (R159);
DIR is asserted in between. -/
def Obligations.RepliesAreTransmitted : Prop :=
  ∀ (s : State) (r : Reply), s.power.running = true → s.link.reply = some r →
    (s.link.serving = .serving →
      exec .replyStart s = .next { s with link := { s.link with serving := .replying } } ∧
      State.dir { s with link := { s.link with serving := .replying } } = true) ∧
    (s.link.serving = .replying →
      exec .replyComplete s = .next { s with
        link := { s.link with receiver := .hunt, serving := .ready, reply := none } })

/-! ### Alerts, guard, identification -/

/-- READ-ALERTS (R165). -/
def Obligations.ReadAlertsReturnsAndEmptiesTheSet : Prop :=
  ∀ s : State, s.Takes .readAlerts →
    exec .readAlerts s = .next (State.owe { s with alerts := 0 }
      (some ⟨0x82, [s.alerts, if s.journal.any fun r => r.state.settled then 1 else 0,
        if s.journal.any fun r => r.state.settled then 1 else 0]⟩))

/-- An alert stays latched through every command but READ-ALERTS, a cold start, and the characters
that may carry a READ-ALERTS (R164); and ATTN is asserted exactly while the part runs and an alert
is latched or a settled record is in the journal (R166). That ATTN is released between the return
of main power, or the release of RESET, and the start is the model's choice (assumption 34). -/
def Obligations.AlertsStayLatchedAndDriveAttn : Prop :=
  (∀ (i : Instr) (s t : State) (a : Alert), i ≠ .readAlerts → i ≠ .coldStart →
    (∀ c, i ≠ .frameComplete c) → (∀ b g, i ≠ .characterReceived b g) →
    exec i s = .next t → s.latched a = true → t.latched a = true) ∧
  ∀ s : State, s.attn = true ↔
    s.power.running = true ∧ (s.alerts ≠ 0 ∨ ∃ r ∈ s.journal, r.state.settled = true)

/-- IDENTIFY (R177). -/
def Obligations.IdentifyReports : Prop :=
  ∀ s : State, s.Takes .identify →
    exec .identify s = .next (s.owe (some ⟨0x81,
      [0x00, 0x46, 0x54, 0x43, 0x36, 0x34, 0x30, 0x38, 0x41, 8, 64, 1, 0, 16, 192,
        s.link.address,
        match s.guardMode with
          | .opened => 0
          | .keyed => 1
          | .sealed => 2,
        match s.settings.storedGuard with
          | .opened => 0
          | .keyed => 1,
        if s.pins.key then 1 else 0,
        match s.imageStatus with
          | .blank => 0
          | .good => 1
          | .damaged => 2]⟩))

/-- SET-GUARD (R174, R175): the mode in force and the stored mode, or the refusal. -/
def Obligations.SetGuardSetsBothModes : Prop :=
  ∀ (s : State) (m : Byte), s.power.running = true → s.link.serving = .ready →
    (s.guardMode = .sealed →
      exec (.setGuard m) s = .next (s.owe (some ⟨0xFF, [0x2A, 0x04, 2]⟩))) ∧
    (s.guardMode = .keyed → s.pins.key = false →
      exec (.setGuard m) s = .next (s.owe (some ⟨0xFF, [0x2A, 0x04, 1]⟩))) ∧
    ((s.guardMode = .opened ∨ s.guardMode = .keyed ∧ s.pins.key = true) →
      (m = 0 → exec (.setGuard m) s = .next (State.owe { s with
        guardMode := .opened, settings := { s.settings with storedGuard := .opened } }
        (some ⟨0xAA, [0, 0]⟩))) ∧
      (m = 1 → exec (.setGuard m) s = .next (State.owe { s with
        guardMode := .keyed, settings := { s.settings with storedGuard := .keyed } }
        (some ⟨0xAA, [1, 1]⟩))) ∧
      (m = 2 → exec (.setGuard m) s = .next (State.owe { s with guardMode := .sealed }
        (some ⟨0xAA, [2, if s.settings.storedGuard = .opened then 0 else 1]⟩))) ∧
      (2 < m.toNat → exec (.setGuard m) s = .next (s.owe (some ⟨0xFF, [0x2A, 0x02, 0]⟩))))

/-! ### Readings -/

/-- The reading requests reply with their layouts, field by field (R179, R180), and change nothing
else (R16, R35, R46, R64, R65, R90, R91, R115, R136, R142). The position of a station without a
line is a free value (assumption 6). -/
def Obligations.ReadingsReplyAndChangeNothing : Prop :=
  ∀ (s : State) (line station input code first count : Byte), s.power.running = true →
    s.link.serving = .ready → line.toNat ≤ 7 → station.toNat ≤ 63 → input.toNat ≤ 15 → code ≠ 0 →
    exec .readClock s = .next (s.owe (some ⟨0x91, stamp s.hall ++ stamp s.clock.count ++
      [flag s.clock.isSet] ++ BitVec.ofNat 8 s.settings.schedule.length ::
      s.settings.schedule.flatMap (field 4) ++ optional stamp s.clock.lastBoundary ++
      optional stamp s.clock.nextBoundary⟩)) ∧
    (∀ (d : LineSettings) (l : LineLive), d = s.lineDef (lineOfByte line) →
      l = s.line (lineOfByte line) → exec (.readLine line) s = .next (s.owe (some ⟨0xE0,
        [line, match d.constraint with
          | none => 0xFF
          | some k => idByte k] ++ optional (fun i => [idByte i]) d.output ++
        BitVec.ofNat 8 d.rejects.length :: d.rejects.map idByte ++ field 4 (d.rate.getD 0) ++
        field 2 d.threshold ++ field 2 d.lookback ++ field 2 d.deadline ++
        l.state.code :: stamp l.stamp ++ field 4 l.serial ++ optional stamp l.openStamp ++
        field 4 l.nextNumber ++
        (match l.slot.map Stoppage.kind with
          | none => 0 :: field 4 0
          | some (.candidate _) => 1 :: field 4 0
          | some (.record m) => 2 :: field 4 m) ++
        optional (fun p : Plan => [p.cause, p.category.code] ++ stamp p.startStamp ++
          optional (field 4) p.expected ++ field 4 (p.elapsedAt s.clock.count) ++
          [flag p.overrun]) l.plan⟩))) ∧
    exec (.readOpen line) s = .next (s.owe (some ⟨0xE6,
      match (s.line (lineOfByte line)).slot with
        | none => [0]
        | some r => 1 :: r.bytes s.clock.count⟩)) ∧
    (s.stationDef (stationOfByte station) = none →
      exec (.readStation station) s = .next (s.owe (some ⟨0xE1, [station, 0]⟩))) ∧
    (∀ (d : StationDef) (v : StationLive), s.stationDef (stationOfByte station) = some d →
      v = s.station (stationOfByte station) → ∃ position : Byte,
        (∀ p, d.place = some p → position = idByte p.position) ∧
        exec (.readStation station) s = .next (s.owe (some ⟨0xE1,
          [station, 1, match d.place with
            | none => 0xFF
            | some p => idByte p.line, position] ++
          optional (fun p => [idByte p]) d.run ++ optional (fun p => [idByte p]) d.fault ++
          optional (fun p => [idByte p]) d.block ++ optional (fun p => [idByte p]) d.starve ++
          optional (fun i => [idByte i]) d.pace ++ field 2 d.stall ++
          v.state.code :: stamp v.stamp ++ [v.currentCause] ++
          optional (fun r : Reported => r.cause :: stamp r.stamp) v.reported ++
          optional (fun a : Armed => a.cause :: field 2 (a.expiry - s.clock.count)) v.armed ++
          optional (fun m : StopMemory => [m.kind.code, m.cause] ++ stamp m.endStamp ++
            field 4 (s.clock.count - m.endCount)) v.memory ++ [flag v.degraded] ++
          optional StationTally.bytes (if s.stationServed (stationOfByte station) then
            v.tallyAt s.clock.count else none)⟩))) ∧
    (∀ taken : Nat, taken = min (max 1 (min 64 count.toNat)) (256 - first.toNat) →
      exec (.readPoints first count) s = .next (s.owe (some ⟨0xE2,
        [first, BitVec.ofNat 8 taken] ++ (List.range taken).flatMap fun j =>
          [(s.effective (Fin.ofNat 256 (first.toNat + j))).code,
            (s.point (Fin.ofNat 256 (first.toNat + j))).accepted.code,
            flag (s.point (Fin.ofNat 256 (first.toNat + j))).noisy]⟩))) ∧
    (∀ (d : InputSettings) (a : InputAcq), d = s.inputDef (inputOfByte input) →
      a = s.input (inputOfByte input) → exec (.readCountInput input) s = .next (s.owe (some ⟨0xE3,
        [input, d.edge.code, BitVec.ofNat 8 d.debounce, BitVec.ofNat 8 d.limit] ++
        optional (fun q : Qualification => field 2 q.offset ++ field 2 q.width) d.qual ++
        (match s.roleOf (inputOfByte input) with
          | .none => [0, 0xFF]
          | .output n => [1, idByte n]
          | .reject n => [2, idByte n]
          | .pace k => [3, idByte k]) ++
        [BitVec.ofNat 8 (slotCount s.settings.slots (inputOfByte input)), a.accepted.code] ++
        bytes32 a.raw ++ [BitVec.ofNat 8 a.glitches, flag a.noisy,
          BitVec.ofNat 8 a.windows.length]⟩))) ∧
    (code.toNat < 10 → exec (.readCause code) s =
      .next (s.owe (some ⟨0xE9, [code, 1, 1, 1, 5, 0]⟩))) ∧
    (10 ≤ code.toNat →
      (hostEntry s.settings code = none → exec (.readCause code) s =
        .next (s.owe (some ⟨0xE9, [code, 0, 0, 0, 0]⟩))) ∧
      (∀ c scope, hostEntry s.settings code = some ⟨c, scope⟩ → exec (.readCause code) s =
        .next (s.owe (some ⟨0xE9, [code, 0, 1, 1, c.code] ++
          optional (fun k => [idByte k]) scope⟩)))) ∧
    exec .readJournalStatus s = .next (s.owe (some ⟨0xE7,
      [BitVec.ofNat 8 s.journal.length,
        BitVec.ofNat 8 (s.journal.countP fun r => r.state.settled)] ++ field 4 s.lost ++
      optional JournalRecord.keyBytes s.journal.head? ++
      optional JournalRecord.keyBytes s.journal.getLast?⟩)) ∧
    (∀ b, s.inService (lineOfByte line) = true → (s.line (lineOfByte line)).bank = some b →
      exec (.readTally line) s = .next (s.owe (some ⟨0xE4,
        s.tallyBytes (lineOfByte line) (s.bankView (lineOfByte line) b s.clock.count)⟩))) ∧
    (s.inService (lineOfByte line) = false →
      exec (.readTally line) s = .next (s.owe (some ⟨0xFF, [0x64, 0x07, line]⟩))) ∧
    (∀ y, s.stationServed (stationOfByte station) = true →
      (s.station (stationOfByte station)).tallyAt s.clock.count = some y →
      exec (.readStationTally station) s = .next (s.owe (some ⟨0xE5,
        station :: field 4 (s.serialOf (stationOfByte station)) ++ y.bytes⟩))) ∧
    (s.stationServed (stationOfByte station) = false →
      exec (.readStationTally station) s = .next (s.owe (some ⟨0xFF, [0x65, 0x07, station]⟩)))

/-- The layouts hold the fields the manual gives, in its order, most significant byte first (R178,
R180, R181), and have the sizes it gives: a record is 25 bytes, 7 for each contributor and 4 while
its deadline is present (R180); a bank is 117 bytes and a station tally 48 (R181). The enumerations
have the codes of R178. -/
def Obligations.LayoutsHaveTheirSizes : Prop :=
  (∀ (r : JournalRecord) (t : Nat), (r.bytes t).length = 25 + 7 * r.contributors.length +
    (match r.state with
      | .unconfirmed _ => 4
      | .held _ => 4
      | .confirmed => 0
      | .lapsed => 0)) ∧
  (∀ v : BankView, v.bytes.length = 117) ∧ (∀ y : StationTally, y.bytes.length = 48) ∧
  (∀ (s : State) (n : LineId) (v : BankView), (s.tallyBytes n v).length = 135) ∧
  (∀ b : ClosedBank, b.header.length = 19) ∧
  (∀ w n : Nat, (field w n).length = w ∧
    (n < 256 ^ w → (field w n).foldl (fun a b => 256 * a + b.toNat) 0 = n)) ∧
  (∀ (r : JournalRecord) (t : Nat), r.bytes t =
    idByte r.line :: field 4 r.serial ++ field 4 r.number ++ field 6 r.startStamp ++
    field 4 r.duration ++ [r.entryState.code, r.state.code, r.operatorCause.getD 0] ++
    (match r.state with
      | .unconfirmed e => 1 :: field 4 (e - t)
      | .held left => 1 :: field 4 left
      | .confirmed => [0]
      | .lapsed => [0]) ++ [r.markers.byte, BitVec.ofNat 8 r.contributors.length] ++
    r.contributors.flatMap fun c => [idByte c.station, c.cause, c.category.code] ++
      field 4 c.duration) ∧
  (∀ (r : Stoppage) (t : Nat), r.bytes t =
    (match r.kind with
      | .candidate _ => 1 :: field 4 0
      | .record m => 2 :: field 4 m) ++ field 4 r.serial ++ field 6 r.startStamp ++
    [r.entryState.code] ++ field 4 (t - r.startCount) ++
    [r.operatorCause.getD 0, r.markers.byte] ++
    (match r.kind with
      | .candidate e => field 4 (e - t)
      | .record _ => field 4 0) ++ [BitVec.ofNat 8 r.contributors.length] ++
    (r.contributorsAt t).flatMap fun c => [idByte c.station, c.cause, c.category.code] ++
      field 4 c.duration) ∧
  (∀ (p : Plan) (t : Nat), p.bytes t = [p.cause, p.category.code] ++ field 6 p.startStamp ++
    (match p.expected with
      | none => [0]
      | some e => 1 :: field 4 e) ++ field 4 (p.elapsedAt t) ++ [if p.overrun then 1 else 0]) ∧
  (∀ v : BankView, v.bytes = field 4 v.scheduled ++
    ([.u, .cat .equipment, .cat .material, .cat .operational, .cat .quality, .cat .external,
      .cat .unassigned, .m, .o, .cat .changeover, .cat .cleaning, .cat .breakPeriod, .cat .noDemand,
      .cat .maintenance, .x, .n].flatMap fun k => field 4 (timeOf v.times k)) ++
    field 4 v.counts.t ++ field 4 v.counts.j ++ field 4 v.counts.c ++ field 4 v.counts.stray ++
    field 4 v.counts.micro ++ field 4 v.counts.stoppage ++ field 4 v.counts.ideal ++
    field 4 v.counts.remainder ++ field 4 v.figures.loading ++ field 4 v.figures.good ++
    ([v.figures.availability, v.figures.performance, v.figures.quality, v.figures.oee].flatMap
      fun f => match f with
        | none => [0xFF, 0xFF]
        | some x => field 2 x) ++ [v.markerByte]) ∧
  (∀ v : BankView, v.markerByte.getLsbD 0 = v.countNoisy ∧ v.markerByte.getLsbD 1 = v.degraded ∧
    v.markerByte.getLsbD 2 = v.figures.overspeed ∧
    v.markerByte.getLsbD 3 = v.figures.rejectExcess ∧ v.markerByte.toNat < 16) ∧
  (∀ m : RecordMarkers, m.byte.getLsbD 0 = m.degraded ∧ m.byte.getLsbD 1 = m.capped ∧
    m.byte.getLsbD 2 = m.plan ∧ m.byte.getLsbD 3 = m.outage ∧ m.byte.getLsbD 4 = m.shiftEnd ∧
    m.byte.getLsbD 5 = m.continued ∧ m.byte.toNat < 64) ∧
  (∀ (s : State) (n : LineId) (v : BankView), s.tallyBytes n v =
    [idByte n, (s.line n).state.code] ++ field 4 (s.line n).serial ++
    field 6 ((s.line n).openStamp.getD 0) ++ field 6 s.hall ++ v.bytes) ∧
  (∀ y : StationTally, y.bytes =
    ([.unmonitored, .running, .stalled, .faulted, .halted, .blocked, .starved].flatMap
      fun st : StationState => field 4 (Tab.get y.times st.index)) ++ field 4 y.rootDown ++
    field 4 y.rootDownCount ++ field 4 y.rootMicro ++ field 4 y.rootMicroCount ++
    field 4 y.pace) ∧
  (∀ b : ClosedBank, b.header = idByte b.line :: field 4 b.serial ++ field 6 b.openStamp ++
    field 6 b.closeStamp ++ [b.reason.code, if b.deferred then 1 else 0]) ∧
  [Level.off, .on, .unsettled].map Level.code = [0, 1, 2] ∧
  [StationState.unmonitored, .running, .stalled, .faulted, .halted, .blocked, .starved].map
    StationState.code = [0, 1, 2, 3, 4, 5, 6] ∧
  [LineState.outOfService, .resuming, .running, .pendingStop, .down, .planned].map
    LineState.code = [0, 1, 2, 3, 4, 5] ∧
  (∀ e, [RecordState.unconfirmed e, .held e, .confirmed, .lapsed].map RecordState.code =
    [0x11, 0x12, 0x13, 0x14]) ∧
  [Category.equipment, .material, .operational, .quality, .external, .unassigned, .changeover,
    .cleaning, .breakPeriod, .noDemand, .maintenance].map Category.code =
    [0, 1, 2, 3, 4, 5, 6, 7, 8, 9, 10] ∧
  [MemoryKind.own, .starved, .blocked].map MemoryKind.code = [0, 1, 2] ∧
  [CloseReason.boundary, .request, .disable, .length, .outageBoundary].map CloseReason.code =
    [0, 1, 2, 3, 4] ∧
  [Polarity.normal, .inverted].map Polarity.code = [0, 1] ∧
  [PointMode.live, .holdOnNoise, .forceOn, .forceOff].map PointMode.code = [0, 1, 2, 3] ∧
  [Edge.leading, .trailing].map Edge.code = [0, 1]

/-- READ-ARCHIVE (R152): a staged bank stands at depth 0, marked PENDING-WRITE, and the stored
entries behind it, newest first; the part asked for is the bank, or the tally of a station that the
entry holds, else NOT-FOUND; a damaged entry is answered with its mark alone, and latches
ARCHIVE-DAMAGED; a depth with no entry is NOT-FOUND. -/
def Obligations.ReadArchiveServesTheDepths : Prop :=
  ∀ (s : State) (line depth part : Byte) (missing : State), s.Takes .readArchive →
    line.toNat ≤ 7 → depth.toNat ≤ 7 → (part = 0xFF ∨ part.toNat ≤ 63) →
    missing = s.owe (some ⟨0xFF, [0x68, 0x0A, 0]⟩) →
    (∀ b, (s.line (lineOfByte line)).staging = some b → depth = 0 →
      (part = 0xFF → exec (.readArchive line depth part) s =
        .next (s.owe (some ⟨0xE8, [line, 0, 1, 0] ++ b.header ++ b.view.bytes⟩))) ∧
      (part ≠ 0xFF →
        (∀ y, b.tallyOf (stationOfByte part) = some y → exec (.readArchive line depth part) s =
          .next (s.owe (some ⟨0xE8, [line, 0, 1, 0] ++ b.header ++ part :: y.bytes⟩))) ∧
        (b.tallyOf (stationOfByte part) = none →
          exec (.readArchive line depth part) s = .next missing))) ∧
    (∀ place : Nat,
      ((s.line (lineOfByte line)).staging = none ∧ place = depth.toNat ∨
        (s.line (lineOfByte line)).staging ≠ none ∧ place + 1 = depth.toNat) →
      ((Tab.get s.archive (lineOfByte line))[place]? = none →
        exec (.readArchive line depth part) s = .next missing) ∧
      (∀ e, (Tab.get s.archive (lineOfByte line))[place]? = some e →
        (e.check ≠ crc16 e.bank.contents → exec (.readArchive line depth part) s =
          .next (State.owe { s with alerts := s.alerts ||| 0x08 }
            (some ⟨0xE8, [line, depth, 0, 1]⟩))) ∧
        (e.check = crc16 e.bank.contents →
          (part = 0xFF → exec (.readArchive line depth part) s = .next (s.owe
            (some ⟨0xE8, [line, depth, 0, 0] ++ e.bank.header ++ e.bank.view.bytes⟩))) ∧
          (part ≠ 0xFF →
            (∀ y, e.bank.tallyOf (stationOfByte part) = some y →
              exec (.readArchive line depth part) s = .next (s.owe
                (some ⟨0xE8, [line, depth, 0, 0] ++ e.bank.header ++ part :: y.bytes⟩))) ∧
            (e.bank.tallyOf (stationOfByte part) = none →
              exec (.readArchive line depth part) s = .next missing)))))

/-! ### Points -/

/-- The effective level of a point, by its mode and its noisy flag (R7). -/
def Obligations.EffectiveLevelFollowsTheTable : Prop :=
  ∀ (d : PointSettings) (a : PointAcq),
    (d.mode = .live → effectiveLevel d a = a.accepted) ∧
    (d.mode = .holdOnNoise → a.noisy = false → effectiveLevel d a = a.accepted) ∧
    (∀ b, d.mode = .holdOnNoise → a.noisy = true → a.held = some b →
      effectiveLevel d a = if b then .on else .off) ∧
    (d.mode = .forceOn → effectiveLevel d a = .on) ∧
    (d.mode = .forceOff → effectiveLevel d a = .off)

/-- MATRIX-SCAN: each point of the drive line counts its run, accepts a level, or glitches (R2), or
settles (R3); the others are not read. A point becomes noisy, and POINT-NOISY is latched, exactly
where a raised activity count reaches the chatter limit; every other point keeps its flag (R5). Only
points, stations, lines, journal and alerts may change: what the stations and the lines make of the scan
is `StationsFollowTheirPoints`. -/
def Obligations.MatrixScanReadsItsDrive : Prop :=
  ∀ (s : State) (drive : DriveId) (sense : BitVec 16), s.power.running = true →
    ∃ t, exec (.matrixScan drive sense) s = .next t ∧
      (∀ p : PointId, p.val / 16 ≠ drive.val → t.point p = s.point p) ∧
      (∀ (p : PointId) (raw : Bool), p.val / 16 = drive.val →
        raw = (sense.getLsbD (p.val % 16) != ((s.pointDef p).polarity == .inverted)) →
        (∀ level, (s.point p).accepted = (if level then .on else .off) →
          (raw ≠ level → (s.point p).run + 1 ≠ (s.pointDef p).debounce →
            (t.point p).accepted = (s.point p).accepted ∧
            (t.point p).run = (s.point p).run + 1 ∧
            (t.point p).activity = (s.point p).activity) ∧
          (raw ≠ level → (s.point p).run + 1 = (s.pointDef p).debounce →
            (t.point p).accepted = (if raw then .on else .off) ∧ (t.point p).run = 0 ∧
            (t.point p).activity = if (s.point p).activity < 255 then (s.point p).activity + 1
              else (s.point p).activity) ∧
          (raw = level → (s.point p).run = 0 →
            (t.point p).accepted = (s.point p).accepted ∧ (t.point p).run = 0 ∧
            (t.point p).activity = (s.point p).activity) ∧
          (raw = level → (s.point p).run ≠ 0 →
            (t.point p).accepted = (s.point p).accepted ∧ (t.point p).run = 0 ∧
            (t.point p).activity = if (s.point p).activity < 255 then (s.point p).activity + 1
              else (s.point p).activity)) ∧
        ((s.point p).accepted = .unsettled →
          (t.point p).activity = (s.point p).activity ∧
          ∀ run, run = (if (s.point p).lastRaw = some raw then (s.point p).run + 1 else 1) →
            (run < (s.pointDef p).debounce →
              (t.point p).accepted = .unsettled ∧ (t.point p).run = run) ∧
            ((s.pointDef p).debounce ≤ run →
              (t.point p).accepted = (if raw then .on else .off) ∧ (t.point p).run = 0)) ∧
        ((s.point p).ReachesLimit (s.pointDef p) raw →
          (t.point p).noisy = true ∧ t.latched .pointNoisy = true) ∧
        (¬ (s.point p).ReachesLimit (s.pointDef p) raw →
          (t.point p).noisy = (s.point p).noisy ∧ (t.point p).held = (s.point p).held)) ∧
      ((∀ (p : PointId) (raw : Bool), p.val / 16 = drive.val →
          raw = (sense.getLsbD (p.val % 16) != ((s.pointDef p).polarity == .inverted)) →
          ¬ (s.point p).ReachesLimit (s.pointDef p) raw) →
        t.latched .pointNoisy = s.latched .pointNoisy) ∧
      t.settings = s.settings ∧ t.inputs = s.inputs ∧ t.installed = s.installed ∧
      t.awaitsFrame = s.awaitsFrame ∧ t.clock = s.clock ∧ t.archive = s.archive ∧
      t.queue = s.queue ∧ t.settingsCopy = s.settingsCopy ∧ t.image = s.image ∧
      t.imageStatus = s.imageStatus ∧ t.guardMode = s.guardMode ∧ t.link = s.link ∧
      t.power = s.power ∧ t.pins = s.pins ∧ t.pending = s.pending

/-- A point whose activity count reaches its chatter limit becomes noisy, POINT-NOISY is latched,
and in HOLD-ON-NOISE the point holds its newly accepted level (R5, R9). A scan that leaves the count
below the limit or above it, or does not raise it, or of a point whose limit is 0, leaves the noisy
flag, the held level and the alerts as they were (R5, R14). -/
def Obligations.PointAtItsLimitBecomesNoisy : Prop :=
  (∀ (s : State) (p : PointId) (conducting : Bool) (d : PointSettings) (a : PointAcq),
    d = s.pointDef p → a = s.point p →
    (d.limit = 0 ∨ d.limit ≠ a.activity + 1 ∨ 255 ≤ a.activity ∨ a.accepted = .unsettled ∨
      ∃ level : Bool, a.accepted = (if level then .on else .off) ∧
        (rawLevel d.polarity conducting = level ∧ a.run = 0 ∨
          rawLevel d.polarity conducting ≠ level ∧ a.run + 1 ≠ d.debounce)) →
    (State.point (s.scanPoint p conducting) p).noisy = a.noisy ∧
    (State.point (s.scanPoint p conducting) p).held = a.held ∧
    (s.scanPoint p conducting).alerts = s.alerts) ∧
  ∀ (s : State) (p : PointId) (conducting : Bool) (d : PointSettings) (a : PointAcq) (level : Bool),
    d = s.pointDef p → a = s.point p → a.accepted = (if level then .on else .off) →
    (rawLevel d.polarity conducting ≠ level ∧ a.run + 1 = d.debounce ∨
      rawLevel d.polarity conducting = level ∧ a.run ≠ 0) →
    a.activity < 255 → d.limit = a.activity + 1 →
    (State.point (s.scanPoint p conducting) p).noisy = true ∧
    (s.scanPoint p conducting).latched .pointNoisy = true ∧
    (a.noisy = false → d.mode = .holdOnNoise →
      (State.point (s.scanPoint p conducting) p).held =
        some (rawLevel d.polarity conducting))

/-- CHATTER-WINDOW-END: the clearing test is made on the window's count, then the count returns to
0, for every point and every input (R4, R6, R26); a point whose noisy flag is cleared discards its held
level (R9); and the stations take the changes of their points, and the lines those of their members
(R10, R51, R59, R61, R73). SET-MONITOR takes W within its limits, and the
window in progress ends at the first multiple of the new W later than now (R15); that a window end due
at this count and not yet taken is then dropped is the model's choice (assumption 38). -/
def Obligations.ChatterWindowsEndAndAreSet : Prop :=
  (∀ s : State, s.power.running = true → s.clock.windowEnd ≤ s.clock.count →
    ∃ t u, exec .chatterWindowEnd s = .next t ∧
      u = { s with
        points := t.points, inputs := t.inputs, clock := t.clock, stations := u.stations } ∧
      s.StationsMove u ∧ s.LinesTake u t ∧
      (∀ p, (t.point p).activity = 0 ∧ (t.point p).accepted = (s.point p).accepted ∧
        (t.point p).run = (s.point p).run ∧
        (t.point p).noisy =
          ((s.point p).noisy && !decide ((s.point p).activity < (s.pointDef p).limit)) ∧
        (t.point p).held = (if (s.point p).noisy = true ∧
          (s.point p).activity < (s.pointDef p).limit then none else (s.point p).held)) ∧
      (∀ i, (t.input i).glitches = 0 ∧ (t.input i).accepted = (s.input i).accepted ∧
        (t.input i).run = (s.input i).run ∧ (t.input i).raw = (s.input i).raw ∧
        (t.input i).windows = (s.input i).windows ∧
        (t.input i).noisy =
          ((s.input i).noisy && !decide ((s.input i).glitches < (s.inputDef i).limit))) ∧
      t.clock = { s.clock with windowEnd :=
        (s.clock.count / (s.settings.window * 100) + 1) * (s.settings.window * 100) } ∧
      t.settings = s.settings ∧ t.archive = s.archive ∧ t.queue = s.queue ∧ t.link = s.link ∧
      t.power = s.power ∧ t.guardMode = s.guardMode) ∧
  ∀ (s : State) (w : Byte) (taken : Nat), s.Takes .setMonitor → taken = max 1 (min 60 w.toNat) →
    exec (.setMonitor w) s = .next (State.owe { s with
      settings := { s.settings with window := taken }
      clock := { s.clock with
        windowEnd := (s.clock.count / (taken * 100) + 1) * (taken * 100) } }
      (some ⟨0xA7, [BitVec.ofNat 8 taken]⟩)) ∧
    s.clock.count < (s.clock.count / (taken * 100) + 1) * (taken * 100) ∧
    (s.clock.count / (taken * 100) + 1) * (taken * 100) ≤ s.clock.count + taken * 100

/-- SET-POINT-MODE (R11 to R14, R9): the settings taken, with debounce 0 taken as 1 and above 250
as 250; a changed polarity restarts acquisition of the point; a changed debounce accepts a pending
level that has held as long, which may bring the activity count to the limit (R5), a changed limit
clears the noisy flag or sets it and latches POINT-NOISY, and a changed mode takes or discards the
held level; what does neither leaves flag and alert; no other point changes. The stations take the
change of the effective level and of the degraded condition that results, and the lines those of their
members (R10, R51, R59, R61, R73). That of a polarity and a mode both outside their enumerations the earlier field, the polarity, is the detail is the
model's choice (assumption 22). -/
def Obligations.SetPointModeWritesOnePoint : Prop :=
  ∀ (s : State) (point polarity debounce mode limit : Byte), s.Takes .setPointMode →
    (1 < polarity.toNat →
      exec (.setPointMode point polarity debounce mode limit) s =
        .next (s.owe (some ⟨0xFF, [0x22, 0x02, 1]⟩))) ∧
    (polarity.toNat ≤ 1 → 3 < mode.toNat →
      exec (.setPointMode point polarity debounce mode limit) s =
        .next (s.owe (some ⟨0xFF, [0x22, 0x02, 3]⟩))) ∧
    (polarity.toNat ≤ 1 → mode.toNat ≤ 3 →
      ∃ t u, exec (.setPointMode point polarity debounce mode limit) s = .next t ∧
        u = { s with
          settings := t.settings, points := t.points, stations := u.stations
          alerts := u.alerts } ∧
        (u.alerts = s.alerts ∨ u.alerts = s.alerts ||| 0x01) ∧
        s.StationsMove u ∧ s.LinesTake u { t with link := s.link } ∧
        (t.pointDef (pointOfByte point)).polarity.code = polarity ∧
        (t.pointDef (pointOfByte point)).debounce = max 1 (min 250 debounce.toNat) ∧
        (t.pointDef (pointOfByte point)).mode.code = mode ∧
        (t.pointDef (pointOfByte point)).limit = limit.toNat ∧
        ((s.pointDef (pointOfByte point)).polarity.code ≠ polarity →
          (t.point (pointOfByte point)).accepted = .unsettled ∧
          (t.point (pointOfByte point)).run = 0 ∧ (t.point (pointOfByte point)).activity = 0 ∧
          (t.point (pointOfByte point)).noisy = false ∧
          (t.point (pointOfByte point)).held = none) ∧
        (t.pointDef (pointOfByte point) = s.pointDef (pointOfByte point) →
          t.point (pointOfByte point) = s.point (pointOfByte point)) ∧
        (∀ (d e : PointSettings) (a a' : PointAcq), d = s.pointDef (pointOfByte point) →
          e = t.pointDef (pointOfByte point) → a = s.point (pointOfByte point) →
          a' = t.point (pointOfByte point) → e.polarity = d.polarity →
          (e.debounce ≠ d.debounce → a.run < e.debounce →
            a'.accepted = a.accepted ∧ a'.run = a.run ∧ a'.activity = a.activity) ∧
          (e.debounce ≠ d.debounce → e.debounce ≤ a.run →
            (∀ level : Bool, a.accepted = (if level then .on else .off) →
              a'.accepted = (if level then .off else .on) ∧ a'.run = 0 ∧
              a'.activity = if a.activity < 255 then a.activity + 1 else a.activity) ∧
            (∀ raw : Bool, a.accepted = .unsettled → a.lastRaw = some raw →
              a'.accepted = (if raw then .on else .off) ∧ a'.run = 0 ∧
              a'.activity = a.activity)) ∧
          (e.debounce = d.debounce → a'.accepted = a.accepted ∧ a'.run = a.run ∧
            a'.activity = a.activity ∧
            (e.limit ≠ d.limit → e.limit = 0 → a'.noisy = false) ∧
            (e.limit ≠ d.limit → e.limit ≠ 0 → e.limit ≤ a.activity →
              a'.noisy = true ∧ t.latched .pointNoisy = true ∧
              (a.noisy = false → e.mode = .holdOnNoise → d.mode = .holdOnNoise →
                ∀ level : Bool, a.accepted = (if level then .on else .off) →
                  a'.held = some level)) ∧
            (e.limit ≠ d.limit → a.activity < e.limit → a'.noisy = a.noisy) ∧
            (e.limit = d.limit → a'.noisy = a.noisy ∧
              (e.mode ≠ d.mode → e.mode = .holdOnNoise → a.noisy = true → a.held = none →
                ∀ level : Bool, a.accepted = (if level then .on else .off) →
                  a'.held = some level))) ∧
          (e.mode ≠ d.mode → e.mode ≠ .holdOnNoise → a'.held = none) ∧
          (e.limit = d.limit → e.debounce ≠ d.debounce → e.debounce ≤ a.run →
            a.accepted ≠ .unsettled → a.activity < 255 → e.limit = a.activity + 1 →
            a'.noisy = true ∧ t.latched .pointNoisy = true) ∧
          (e.limit = d.limit → (e.debounce = d.debounce ∨ a.run < e.debounce ∨
              a.accepted = .unsettled ∨ 255 ≤ a.activity ∨ e.limit ≠ a.activity + 1) →
            a'.noisy = a.noisy ∧ t.latched .pointNoisy = s.latched .pointNoisy) ∧
          (e.debounce = d.debounce → (e.limit = 0 ∨ a.activity < e.limit) →
            t.latched .pointNoisy = s.latched .pointNoisy)) ∧
        (∀ p, p ≠ pointOfByte point → t.pointDef p = s.pointDef p ∧ t.point p = s.point p) ∧
        t.settings.stations = s.settings.stations ∧ t.settings.lines = s.settings.lines ∧
        t.settings.inputs = s.settings.inputs ∧ t.settings.causes = s.settings.causes ∧
        t.inputs = s.inputs ∧ t.installed = s.installed ∧ t.clock = s.clock ∧
        t.archive = s.archive ∧ t.queue = s.queue ∧ t.guardMode = s.guardMode ∧
        t.power = s.power ∧
        t.link = { s.link with serving := .serving, reply := some ⟨0xA2, [point, polarity,
          BitVec.ofNat 8 (max 1 (min 250 debounce.toNat)), mode, limit]⟩ })

/-! ### Count inputs -/

/-- COUNT-SAMPLE of an input whose sample makes no accepted change changes that input's record
alone: a run goes on, breaks off as a glitch, or the input settles (R21, R22); a slot that names no
input samples none (R19). A glitch that reaches the glitch limit makes the input noisy, latches
COUNT-NOISY, and marks the bank of the role's line (R25, R26, R129). After a recall no sample is
taken before the next frame, which slot 0 begins (R36; how a frame is seen to begin is the model's
choice, assumption 35). -/
def Obligations.CountSampleWithoutAChange : Prop :=
  ∀ (s : State) (slot : SlotId) (active : Bool), s.power.running = true →
    (s.awaitsFrame = true →
      (slot ≠ 0 → exec (.countSample slot active) s = .next s) ∧
      (slot = 0 → exec (.countSample slot active) s =
        exec (.countSample slot active) { s with awaitsFrame := false })) ∧
    (s.awaitsFrame = false → Tab.get s.installed slot = none →
      exec (.countSample slot active) s = .next s) ∧
    (∀ (i : InputId) (level : Bool), s.awaitsFrame = false → Tab.get s.installed slot = some i →
      (s.input i).accepted = (if level then .on else .off) →
      (active = level → (s.input i).run = 0 →
        exec (.countSample slot active) s = .next { s with
          inputs := Tab.set s.inputs i { s.input i with lastSample := some active } }) ∧
      (active ≠ level → (s.input i).run + 1 ≠ (s.inputDef i).debounce →
        exec (.countSample slot active) s = .next { s with
          inputs := Tab.set s.inputs i
            { s.input i with run := (s.input i).run + 1, lastSample := some active } }) ∧
      (active = level → (s.input i).run ≠ 0 → 255 ≤ (s.input i).glitches →
        exec (.countSample slot active) s = .next { s with
          inputs := Tab.set s.inputs i
            { s.input i with run := 0, lastSample := some active } }) ∧
      (active = level → (s.input i).run ≠ 0 → (s.input i).glitches < 255 →
        (s.inputDef i).limit ≠ (s.input i).glitches + 1 →
        exec (.countSample slot active) s = .next { s with
          inputs := Tab.set s.inputs i { s.input i with
            run := 0, glitches := (s.input i).glitches + 1, lastSample := some active } }) ∧
      (active = level → (s.input i).run ≠ 0 → (s.input i).glitches < 255 →
        (s.inputDef i).limit = (s.input i).glitches + 1 →
        ∃ lines, exec (.countSample slot active) s = .next { s with
            inputs := Tab.set s.inputs i { s.input i with
              run := 0, glitches := (s.input i).glitches + 1, noisy := true,
              lastSample := some active }
            alerts := s.alerts ||| 0x02
            lines := lines } ∧
          ((s.servedLine i = none ∨ (s.input i).noisy = true) → lines = s.lines) ∧
          (∀ n, s.servedLine i = some n → (s.input i).noisy = false →
            lines = Tab.set s.lines n { s.line n with
              bank := (s.line n).bank.map fun b => { b with countNoisy := true } }))) ∧
    (∀ (i : InputId) (run : Nat), s.awaitsFrame = false → Tab.get s.installed slot = some i →
      (s.input i).accepted = .unsettled →
      run = (if (s.input i).lastSample = some active then (s.input i).run + 1 else 1) →
      (run < (s.inputDef i).debounce →
        exec (.countSample slot active) s = .next { s with
          inputs := Tab.set s.inputs i
            { s.input i with run := run, lastSample := some active } }) ∧
      ((s.inputDef i).debounce ≤ run →
        exec (.countSample slot active) s = .next { s with
          inputs := Tab.set s.inputs i { s.input i with
            accepted := if active then .on else .off, run := 0, lastSample := some active } }))

/-- An accepted change against the edge setting changes the input's record alone (R23). A counting
edge raises its input's raw counter, wrapping, and is handed on by the input's role (R23, R24): to
no one for an input of no role or of a line out of service; for the OUTPUT input of a line in
service to T, or to C in PLANNED (R125), and to the constraint when it paces it; for a PACE input
to its station (R52, R53). The lines take the return of a STALLED station to RUNNING (R59, R73). -/
def Obligations.CountingEdgesAreHandedOnByRole : Prop :=
  ∀ (s : State) (slot : SlotId) (i : InputId) (active : Bool) (changed sampled : InputAcq),
    s.power.running = true → s.awaitsFrame = false → Tab.get s.installed slot = some i →
    (s.input i).accepted = (if active then .off else .on) →
    (s.input i).run + 1 = (s.inputDef i).debounce →
    changed = { s.input i with
      accepted := if active then .on else .off, run := 0, lastSample := some active } →
    sampled = { changed with raw := (s.input i).raw + 1 } →
    ((s.inputDef i).edge = (if active then .trailing else .leading) →
      exec (.countSample slot active) s =
        .next { s with inputs := Tab.set s.inputs i changed }) ∧
    ((s.inputDef i).edge = (if active then .leading else .trailing) →
      exec (.countSample slot active) s =
        .next (State.countingEdge { s with inputs := Tab.set s.inputs i changed } i) ∧
      ((s.roleOf i = .none ∨
          (∃ n, (s.roleOf i = .output n ∨ s.roleOf i = .reject n) ∧ s.inService n = false) ∨
          ∃ k, s.roleOf i = .pace k ∧ s.stationServed k = false) →
        exec (.countSample slot active) s =
          .next { s with inputs := Tab.set s.inputs i sampled }) ∧
      (∀ (n : LineId) (b : Bank) (k : StationId), s.roleOf i = .output n → s.inService n = true →
        (s.line n).bank = some b → (s.lineDef n).constraint = some k →
        ∃ t b', exec (.countSample slot active) s = .next t ∧ (t.line n).bank = some b' ∧
          (t.input i).raw = (s.input i).raw + 1 ∧
          ((s.line n).state ≠ .planned →
            b'.counts.t = min (b.counts.t + 1) 4294967295 ∧ b'.counts.c = b.counts.c) ∧
          ((s.line n).state = .planned →
            b'.counts.c = min (b.counts.c + 1) 4294967295 ∧ b'.counts.t = b.counts.t) ∧
          b'.counts.j = b.counts.j ∧ b'.counts.stray = b.counts.stray ∧
          t.settings = s.settings ∧ t.clock = s.clock ∧
          (s.paceSource k ≠ some i ∨ (s.station k).state ≠ .stalled →
            b' = { b with counts := b'.counts } ∧ b'.counts.ideal = b.counts.ideal ∧
            b'.counts.remainder = b.counts.remainder ∧ b'.counts.micro = b.counts.micro ∧
            b'.counts.stoppage = b.counts.stoppage ∧
            t.lines = Tab.set s.lines n { s.line n with bank := some b' } ∧
            t = { s with inputs := t.inputs, lines := t.lines, stations := t.stations }) ∧
          (s.paceSource k ≠ some i → t.stations = s.stations) ∧
          (s.paceSource k = some i → s.stationServed k = true →
            (∀ counts, counts = (if (s.line n).state = .planned
                then { b.counts with c := min (b.counts.c + 1) 4294967295 }
                else { b.counts with t := min (b.counts.t + 1) 4294967295 }) →
              s.Paced { s with
                inputs := t.inputs
                lines := Tab.set s.lines n
                  { s.line n with bank := some { b with counts := counts } } } t k) ∧
            ∀ m, m ≠ k → (s.station k).state ≠ .stalled → t.station m = s.station m)) ∧
      (∀ k : StationId, s.roleOf i = .pace k → s.stationServed k = true →
        ∃ t, exec (.countSample slot active) s = .next t ∧
          s.Paced { s with inputs := t.inputs } t k ∧ t.inputs = Tab.set s.inputs i sampled ∧ t.settings = s.settings ∧ t.clock = s.clock ∧
          ((s.station k).state ≠ .stalled → (∀ m, m ≠ k → t.station m = s.station m) ∧
            t = { s with inputs := t.inputs, stations := t.stations })))

/-- A reject edge under qualification consumes the oldest open window and counts in J, or is a stray
(R29, R126); in PLANNED it does neither. One not under qualification counts in J (R126). An output
edge appends to the queue of each qualified REJECT input of its line a window that opens the offset
later and closes the width after that, and the oldest of eight makes room for it (R27, R28). -/
def Obligations.RejectEdgesAreQualified : Prop :=
  (∀ (s : State) (i : InputId) (n : LineId) (q : Qualification) (b : Bank),
    s.qualified i = some q → (s.line n).bank = some b →
    ((s.line n).state = .planned → s.rejectEdge i n = s) ∧
    ((s.line n).state ≠ .planned →
      (∀ w before rest, (s.input i).windows = before ++ w :: rest →
        (∀ x ∈ before, x.openAt s.moment = false) → w.openAt s.moment = true →
        ((s.rejectEdge i n).input i).windows = before ++ rest ∧
        ((s.rejectEdge i n).line n).bank = some { b with counts := { b.counts with
          j := min (b.counts.j + 1) 4294967295 } }) ∧
      ((∀ x ∈ (s.input i).windows, x.openAt s.moment = false) →
        (s.rejectEdge i n).inputs = s.inputs ∧
        ((s.rejectEdge i n).line n).bank = some { b with counts := { b.counts with
          stray := min (b.counts.stray + 1) 4294967295 } }))) ∧
  (∀ (s : State) (i : InputId) (n : LineId) (b : Bank), s.qualified i = none →
    (s.line n).bank = some b →
    ((s.line n).state = .planned → s.rejectEdge i n = s) ∧
    ((s.line n).state ≠ .planned → s.rejectEdge i n = { s with
      lines := Tab.set s.lines n { s.line n with
        bank := some { b with counts := { b.counts with
          j := min (b.counts.j + 1) 4294967295 } } } })) ∧
  (∀ (s : State) (slot : SlotId) (i : InputId) (n : LineId) (b : Bank) (k : StationId)
      (active : Bool), s.power.running = true → s.awaitsFrame = false →
    Tab.get s.installed slot = some i → (s.input i).accepted = (if active then .off else .on) →
    (s.input i).run + 1 = (s.inputDef i).debounce →
    (s.inputDef i).edge = (if active then .leading else .trailing) → s.inService n = true →
    (s.line n).bank = some b → (s.lineDef n).constraint = some k → s.settings.Sound →
    (s.roleOf i = .reject n → ∃ t, exec (.countSample slot active) s = .next t ∧
      (t.input i).raw = (s.input i).raw + 1 ∧
      ∃ u, u = (s.modInput i fun a => { a with
          accepted := if active then .on else .off, run := 0, lastSample := some active
          raw := a.raw + 1 }) ∧ t = u.rejectEdge i n) ∧
    (s.roleOf i = .output n → ∃ t, exec (.countSample slot active) s = .next t ∧
      (∀ j q, j ∈ (s.lineDef n).rejects → s.qualified j = some q →
        (t.input j).windows = (if (s.input j).windows.length < 8 then (s.input j).windows
          else (s.input j).windows.tail) ++
            [⟨s.moment + q.offset * 32, s.moment + q.offset * 32 + q.width * 32⟩]) ∧
      (∀ j, j ∉ (s.lineDef n).rejects ∨ s.qualified j = none →
        (t.input j).windows = (s.input j).windows) ∧
      ∀ j, j ≠ i → t.input j = { s.input j with windows := (t.input j).windows }))

/-- WINDOW-CLOSE removes the windows of the input that have reached their close instants, and
nothing else (R28); SLOT-TABLE-INSTALL makes sampling follow the table last set, and an input that
gains or loses all its slots becomes UNSETTLED (R33); as it comes at the beginning of a frame, a
recall waits for no other (R36; assumption 35). -/
def Obligations.WindowsCloseAndSlotsInstall : Prop :=
  ∀ s : State, s.power.running = true →
    (∀ i, exec (.windowClose i) s = .next { s with
      inputs := Tab.set s.inputs i { s.input i with
        windows := (s.input i).windows.filter fun w =>
          s.clock.count * 320 + s.clock.sub < w.closes } }) ∧
    ∃ t, exec .slotTableInstall s = .next t ∧ t.installed = s.settings.slots ∧
      t.awaitsFrame = false ∧
      (∀ i, (slotCount s.installed i = 0 ↔ slotCount s.settings.slots i = 0) →
        t.input i = s.input i) ∧
      (∀ i, ¬ (slotCount s.installed i = 0 ↔ slotCount s.settings.slots i = 0) →
        t.input i = { s.input i with accepted := .unsettled, run := 0, lastSample := none }) ∧
      t = { s with installed := t.installed, awaitsFrame := false, inputs := t.inputs }

/-- SET-COUNT-INPUT takes quantities at the nearest limit, or is refused (R30; that a bad edge is
named before a bad presence byte, and either before the line in service, is the model's choice,
assumption 22). A changed debounce accepts a pending level that has held as long, as a counting edge
where it goes with the edge setting, or settles the input; a changed limit clears the noisy flag, or
sets it, latches COUNT-NOISY and marks the bank of the role's line (R31, R26, R129); a changed
qualification empties the window queue (R32); unchanged settings have no effect. In what order
several changes act is the model's choice (assumption 12), and nothing here rests on it. SET-SLOTS
replaces the slot table, which sampling does not yet follow, or is refused IN-USE with the first
input that would be left without a slot (R33; the first is the one of the lowest number,
assumption 22). -/
def Obligations.InputSettingsAreWritten : Prop :=
  ∀ s : State, s.power.running = true → s.link.serving = .ready →
    guardRefusal s.guardMode s.pins.key = none →
    (∀ (input edge debounce limit : Byte) (qual : Carried QualField) (i : InputId),
      input.toNat ≤ 15 → i = inputOfByte input →
      (1 < edge.toNat → exec (.setCountInput input edge debounce limit qual) s =
        .next (s.owe (some ⟨0xFF, [0x23, 0x02, 1]⟩))) ∧
      (edge.toNat ≤ 1 → 1 < qual.presence.toNat →
        exec (.setCountInput input edge debounce limit qual) s =
          .next (s.owe (some ⟨0xFF, [0x23, 0x02, 4]⟩))) ∧
      (∀ n, edge.toNat ≤ 1 → qual.presence.toNat ≤ 1 → s.servedLine i = some n →
        edge ≠ (s.inputDef i).edge.code →
        exec (.setCountInput input edge debounce limit qual) s =
          .next (s.owe (some ⟨0xFF, [0x23, 0x06, idByte n]⟩))) ∧
      (edge.toNat ≤ 1 → qual.presence.toNat ≤ 1 →
        (∀ n, s.servedLine i = some n → edge = (s.inputDef i).edge.code) →
        ∃ t, exec (.setCountInput input edge debounce limit qual) s = .next t ∧
          (t.inputDef i).edge.code = edge ∧
          (t.inputDef i).debounce = max 1 (min 15 debounce.toNat) ∧
          (t.inputDef i).limit = limit.toNat ∧
          (qual.presence = 0 → (t.inputDef i).qual = none) ∧
          (qual.presence = 1 → (t.inputDef i).qual =
            some ⟨min 4095 qual.value.offset.toNat, max 1 (min 4095 qual.value.width.toNat)⟩) ∧
          t.settings = { s.settings with
            inputs := Tab.set s.settings.inputs i (t.inputDef i) } ∧
          (∀ j, j ≠ i → t.input j = { s.input j with windows := (t.input j).windows }) ∧
          t.points = s.points ∧ t.installed = s.installed ∧ t.awaitsFrame = s.awaitsFrame ∧
          t.clock = s.clock ∧
          t.link = { s.link with
            serving := .serving
            reply := some ⟨0xA3, [input, edge, BitVec.ofNat 8 (max 1 (min 15 debounce.toNat)),
              limit] ++ if qual.presence = 0 then [0] else
                1 :: field 2 (min 4095 qual.value.offset.toNat) ++
                  field 2 (max 1 (min 4095 qual.value.width.toNat))⟩ } ∧
          ∀ (d e : InputSettings) (a a' : InputAcq), d = s.inputDef i → e = t.inputDef i →
            a = s.input i → a' = t.input i →
            (e = d → t = { s with link := t.link }) ∧
            a'.glitches = a.glitches ∧ a'.lastSample = a.lastSample ∧
            (e.qual ≠ d.qual → a'.windows = []) ∧
            (e.limit ≠ d.limit → e.limit = 0 → a'.noisy = false) ∧
            (e.limit ≠ d.limit → e.limit ≠ 0 → e.limit ≤ a.glitches →
              a'.noisy = true ∧ t.latched .countNoisy = true) ∧
            ((e.limit = d.limit ∨ a.glitches < e.limit) → a'.noisy = a.noisy) ∧
            ((e.debounce = d.debounce ∨ a.run < e.debounce) →
              a'.accepted = a.accepted ∧ a'.run = a.run) ∧
            (∀ raw : Bool, e.debounce ≠ d.debounce → e.debounce ≤ a.run →
              a.accepted = .unsettled → a.lastSample = some raw →
              a'.accepted = (if raw then .on else .off) ∧ a'.run = 0) ∧
            (∀ level : Bool, e.debounce ≠ d.debounce → e.debounce ≤ a.run →
              a.accepted = (if level then .on else .off) →
              a'.accepted = (if level then .off else .on) ∧ a'.run = 0 ∧
              (e.edge = (if level then .trailing else .leading) → a'.raw = a.raw + 1 ∧
                (e.limit = d.limit → e.qual = d.qual → t = { State.countingEdge { s with
                  settings := t.settings
                  inputs := Tab.set s.inputs i
                    { a with accepted := if level then .off else .on, run := 0 } } i with
                  link := t.link }))) ∧
            ((e.debounce = d.debounce ∨ a.run < e.debounce ∨ a.accepted = .unsettled ∨
                a.accepted = (if e.edge = .leading then .on else .off)) →
              a'.raw = a.raw ∧ (e.qual = d.qual → a'.windows = a.windows) ∧
              t = { s with
                settings := t.settings, inputs := Tab.set s.inputs i a', lines := t.lines
                alerts := t.alerts, link := t.link } ∧
              ((e.limit = d.limit ∨ e.limit = 0 ∨ a.glitches < e.limit) →
                t.lines = s.lines ∧ t.alerts = s.alerts) ∧
              (e.limit ≠ d.limit → e.limit ≠ 0 → e.limit ≤ a.glitches →
                t.alerts = s.alerts ||| 0x02 ∧
                ((s.servedLine i = none ∨ a.noisy = true) → t.lines = s.lines) ∧
                ∀ n, s.servedLine i = some n → a.noisy = false →
                  t.lines = Tab.set s.lines n { s.line n with
                    bank := (s.line n).bank.map fun b => { b with countNoisy := true } })))) ∧
    (∀ entries : List Byte, entries.length = 32 → (∀ b ∈ entries, b = 0xFF ∨ b.toNat ≤ 15) →
      ((∀ i n, s.servedLine i = some n → idByte i ∈ entries) →
        exec (.setSlots entries) s = .next (State.owe { s with
          settings := { s.settings with
            slots := Vector.ofFn fun j : Fin 32 =>
              if entries.getD j.val 0xFF = 0xFF then none
              else some (inputOfByte (entries.getD j.val 0xFF)) } } (some ⟨0xA4, entries⟩))) ∧
      ∀ i n, s.servedLine i = some n → idByte i ∉ entries →
        (∀ j m, j < i → s.servedLine j = some m → idByte j ∈ entries) →
        exec (.setSlots entries) s = .next (s.owe (some ⟨0xFF, [0x24, 0x08, idByte i]⟩)))


/-! ### Clock, schedule, settings -/

/-- SET-CLOCK (R141, R144): the hall clock reads the time given, the interval counter goes on, and
the next boundary is formed afresh; a set clock carried to or past the next boundary takes one
boundary. The broadcast form does the same without a reply (R158 case 5). That a boundary due at this
count and not yet taken is dropped by a jump back before it is the model's choice (assumption 38). -/
def Obligations.ClockIsSet : Prop :=
  ∀ (s : State) (h : BitVec 48), s.Takes .setClock →
    ∃ u, exec (.setClock true h) s = .next u ∧
      exec (.setClock false h) s =
        .next (u.owe (some ⟨0x90, stamp h.toNat ++ stamp s.clock.count ++ [1]⟩)) ∧
      (u.clock.count + u.clock.offset) % 2 ^ 48 = h.toNat ∧ u.clock.isSet = true ∧
      u.clock.count = s.clock.count ∧ u.clock.sub = s.clock.sub ∧
      u.clock.windowEnd = s.clock.windowEnd ∧
      u.clock.nextBoundary = firstBoundaryAfter s.settings.schedule
        (max h.toNat (u.clock.lastBoundary.getD 0)) ∧
      ((s.clock.isSet = false ∨ ∀ b, s.clock.nextBoundary = some b → h.toNat < b) →
        u = { s with clock := u.clock } ∧ u.clock.lastBoundary = s.clock.lastBoundary) ∧
      (∀ b v, s.clock.isSet = true → s.clock.nextBoundary = some b → b ≤ h.toNat →
        lastBoundaryBy s.settings.schedule h.toNat = some v →
        u.clock.lastBoundary = some v ∧
        ∀ n, (s.inService n = false → u.line n = s.line n) ∧
          (s.inService n = true → (s.line n).staging ≠ none →
            u.line n = { s.line n with deferred := true }) ∧
          (s.inService n = true → (s.line n).staging = none → (s.line n).bank ≠ none →
            ∃ c, (u.line n).staging = some c ∧ c.serial = (s.line n).serial ∧
              c.reason = .boundary ∧ c.closeStamp = h.toNat)) ∧
      u.settings = s.settings ∧ u.points = s.points ∧ u.inputs = s.inputs ∧
      u.archive = s.archive ∧ u.image = s.image ∧ u.guardMode = s.guardMode ∧ u.link = s.link ∧
      u.power = s.power

/-- SET-SCHEDULE replaces the schedule and forms the next boundary afresh, or is refused (R143); and
boundary instants are what R144 calls them: the first one later than an instant, and the last one
at or before it. That a boundary due at this count and not yet taken is dropped is the model's choice
(assumption 38). -/
def Obligations.ScheduleIsReplaced : Prop :=
  (∀ (s : State) (values : List (BitVec 32)) (taken : List Nat), s.Takes .setSchedule →
    taken = values.map (fun v => min v.toNat 863999) →
    (4 < values.length → exec (.setSchedule values) s =
      .next (s.owe (some ⟨0xFF, [0x12, 0x02, BitVec.ofNat 8 (1 + 4 * values.length)]⟩))) ∧
    (values.length ≤ 4 → taken.Pairwise (· < ·) →
      exec (.setSchedule values) s = .next (State.owe { s with
        settings := { s.settings with schedule := taken.map (10 * ·) }
        clock := { s.clock with
          nextBoundary := if s.clock.isSet then
              firstBoundaryAfter (taken.map (10 * ·)) (max s.hall (s.clock.lastBoundary.getD 0))
            else none } }
        (some ⟨0x92, BitVec.ofNat 8 taken.length :: taken.flatMap (field 4)⟩))) ∧
    (values.length ≤ 4 → ¬ taken.Pairwise (· < ·) →
      ∃ place, exec (.setSchedule values) s =
        .next (s.owe (some ⟨0xFF, [0x12, 0x02, place]⟩)))) ∧
  (∀ (schedule : List Nat) (t : Nat), schedule.Pairwise (· < ·) → (∀ v ∈ schedule, v < 8640000) →
    (schedule ≠ [] → (firstBoundaryAfter schedule t).isSome = true) ∧
    (∀ b, firstBoundaryAfter schedule t = some b →
      t < b ∧ b % 8640000 ∈ schedule ∧ ∀ x, t < x → x % 8640000 ∈ schedule → b ≤ x) ∧
    (∀ b, lastBoundaryBy schedule t = some b →
      b ≤ t ∧ b % 8640000 ∈ schedule ∧ ∀ x, x ≤ t → x % 8640000 ∈ schedule → x ≤ b))

/-- STORE-SETTINGS joins the write queue, and its reply waits (R160, R170); SETTINGS-WRITE-COMPLETE
replaces the image by the copy the write began with, with the CRC-16 over its contents as its check
(R169; the contents' layout is a free value, assumption 8), and begins the reply. -/
def Obligations.SettingsAreStored : Prop :=
  ∀ s : State,
    (s.Takes .storeSettings →
      exec .storeSettings s = .next { s with
        queue := s.queue ++ [.settings]
        settingsCopy := if s.queue = [] then some s.settings else s.settingsCopy
        link := { s.link with
          serving := .serving, reply := none, ahead := s.queue.length } }) ∧
    (∀ rest g, s.power.main = true → s.power.reset = false → s.queue = .settings :: rest →
      s.settingsCopy = some g →
      exec .settingsWriteComplete s = .next { s with
        queue := rest
        image := some ⟨g, crc16 (Config.imageLayout g)⟩
        imageStatus := .good
        settingsCopy := if rest.head? = some .settings then some s.settings else none
        link := if s.power.running = true ∧ s.link.serving = .serving ∧ s.link.reply = none then
            { s.link with
              serving := .replying
              reply := some ⟨0xA8, [1, BitVec.ofNat 8 s.link.ahead]⟩ }
          else s.link })

/-- RECALL-SETTINGS (R173): refused while a line is in service or the image is not GOOD; else every
working setting and the guard mode are the image's, and acquisition and the stations start anew. -/
def Obligations.SettingsAreRecalled : Prop :=
  ∀ s : State, s.Takes .recallSettings →
    (∀ n : LineId, s.inService n = true → (∀ m, m < n → s.inService m = false) →
      exec .recallSettings s = .next (s.owe (some ⟨0xFF, [0x29, 0x06, idByte n]⟩))) ∧
    ((∀ n, s.inService n = false) →
      (s.image = none → exec .recallSettings s =
        .next (State.owe { s with imageStatus := .blank } (some ⟨0xFF, [0x29, 0x0A, 0]⟩))) ∧
      (∀ g check, s.image = some ⟨g, check⟩ → check ≠ crc16 (Config.imageLayout g) →
        exec .recallSettings s =
          .next (State.owe { s with imageStatus := .damaged } (some ⟨0xFF, [0x29, 0x0A, 0]⟩))) ∧
      (∀ g, s.image = some ⟨g, crc16 (Config.imageLayout g)⟩ →
        ∃ t, exec .recallSettings s = .next t ∧
        t.settings = g ∧ t.imageStatus = .good ∧ t.guardMode = g.storedGuard.mode ∧
        t.installed = g.slots ∧ t.awaitsFrame = true ∧
        (∀ p, (t.point p).accepted = .unsettled ∧ (t.point p).run = 0 ∧
          (t.point p).activity = 0 ∧ (t.point p).noisy = false) ∧
        (∀ i, (t.input i).accepted = .unsettled ∧ (t.input i).run = 0 ∧
          (t.input i).raw = (s.input i).raw ∧ (t.input i).windows = []) ∧
        (∀ k, (t.station k).reported = none ∧ (t.station k).armed = none ∧
          (t.station k).memory = none ∧ (t.station k).stallExpiry = none ∧
          (t.station k).state = t.derivedState k) ∧
        t.lines = s.lines ∧ t.journal = s.journal ∧ t.archive = s.archive ∧ t.queue = s.queue ∧
        t.image = s.image ∧ t.alerts = s.alerts ∧ t.power = s.power ∧
        t.clock.count = s.clock.count ∧ t.clock.offset = s.clock.offset ∧
        t.clock.lastBoundary = s.clock.lastBoundary ∧
        t.link = { s.link with serving := .serving, reply := some ⟨0xA9, [1]⟩ }))

/-- SET-CAUSE (R40, R42): an entry written or removed, or the refusal, with the place in the body of a
category of no entry or of a presence byte that is neither 0 nor 1 (R161, R178); of the two the earlier
field is the detail (the model's choice, assumption 22). That the code is the detail where
both the code and a scope carried with the flag set are out of range is the model's choice
(assumption 30). -/
def Obligations.CausesAreWritten : Prop :=
  ∀ (s : State) (code defined category : Byte) (scope : Carried Byte), s.Takes .setCause →
    (code.toNat < 10 → exec (.setCause code defined category scope) s =
      .next (s.owe (some ⟨0xFF, [0x25, 0x03, code]⟩))) ∧
    (10 ≤ code.toNat → defined = 0 → ∃ t, exec (.setCause code defined category scope) s = .next t ∧
      hostEntry t.settings code = none ∧
      (∀ x, x ≠ code → hostEntry t.settings x = hostEntry s.settings x) ∧
      t = State.owe
        { s with settings := { s.settings with causes := t.settings.causes } }
        (some ⟨0xA5, [code, 0, 0, 0]⟩)) ∧
    (10 ≤ code.toNat → defined ≠ 0 → (scope.presence ≠ 0 → scope.value.toNat ≤ 63) →
      (10 < category.toNat → exec (.setCause code defined category scope) s =
        .next (s.owe (some ⟨0xFF, [0x25, 0x02, 2]⟩))) ∧
      (category.toNat ≤ 10 → 1 < scope.presence.toNat →
        exec (.setCause code defined category scope) s =
          .next (s.owe (some ⟨0xFF, [0x25, 0x02, 3]⟩)))) ∧
    (∀ c, 10 ≤ code.toNat → defined ≠ 0 → c.code = category → scope.presence.toNat ≤ 1 →
      (scope.presence = 1 → scope.value.toNat ≤ 63) →
      ((c = .unassigned ∨ c.planned = true ∧ scope.presence = 1) →
        exec (.setCause code defined category scope) s =
          .next (s.owe (some ⟨0xFF, [0x25, 0x0E, code]⟩))) ∧
      (c ≠ .unassigned → (c.planned = true → scope.presence = 0) →
        ∃ t, exec (.setCause code defined category scope) s = .next t ∧
          hostEntry t.settings code = some ⟨c, if scope.presence = 0 then none
            else some (stationOfByte scope.value)⟩ ∧
          (∀ x, x ≠ code → hostEntry t.settings x = hostEntry s.settings x) ∧
          t = State.owe
            { s with settings := { s.settings with causes := t.settings.causes } }
            (some ⟨0xA5, [code, 1, 1, category] ++
              if scope.presence = 0 then [0] else [1, scope.value]⟩)))

/-! ### Stations -/

/-- The state of a station by its points (R51), and what a scan does to the stations whose points
moved: they take the state their points give, with the causes and the memory that the entry makes
(R58 to R60) and the stall timer of one that enters RUNNING (R53); the others keep theirs, and every
degraded flag is formed (R10, R51, R61). The lines of the stations take the changes of the scan as one
event (R59, R73), each as `StallTimersExpire` says of a line by its state: it opens a candidate, ends
one, closes its record, or walks again (R74, R75, R83, R80). -/
def Obligations.StationsFollowTheirPoints : Prop :=
  (∀ (s : State) (k : StationId), (s.stationDef k = none → s.derivedState k = .unmonitored) ∧
    ∀ d, s.stationDef k = some d → (d.run = none → s.derivedState k = .unmonitored) ∧
      ∀ p, d.run = some p →
        (s.effective p = .unsettled → s.derivedState k = .unmonitored) ∧
        (s.effective p = .on → s.derivedState k =
          if (s.station k).state = .stalled then .stalled else .running) ∧
        (s.effective p = .off →
          ((∃ q, d.fault = some q ∧ s.effective q = .on) → s.derivedState k = .faulted) ∧
          ((∀ q, d.fault = some q → s.effective q ≠ .on) →
            ((∃ q, d.block = some q ∧ s.effective q = .on) → s.derivedState k = .blocked) ∧
            ((∀ q, d.block = some q → s.effective q ≠ .on) →
              ((∃ q, d.starve = some q ∧ s.effective q = .on) → s.derivedState k = .starved) ∧
              ((∀ q, d.starve = some q → s.effective q ≠ .on) →
                s.derivedState k = .halted))))) ∧
  (∀ (s : State) (drive : DriveId) (sense : BitVec 16), s.power.running = true →
    ∃ t u, exec (.matrixScan drive sense) s = .next t ∧
      u = { s with points := t.points, stations := u.stations, alerts := u.alerts } ∧
      (u.alerts = s.alerts ∨ u.alerts = s.alerts ||| 0x01) ∧
      s.StationsMove u ∧ s.LinesTake u t)

/-- DEFINE-STATION (R49, R50): the refusals in their order, MALFORMED for a presence byte that is
neither 0 nor 1, with its place in the body (R161, R178), IN-SERVICE for the present line or the line
named, and IN-USE for a full line, a position, a point or an input; and the definition taken, in
each of its three forms, with its reply, the station's live state rebuilt and no other station
touched. That the present line is the detail where both lines are in service is the model's choice
(assumption 30), and so are that the first of several bad presence bytes is, and that points are
judged one by one in the order of the fields (assumption 22). The position of a station without a line, and the stall timeout of an undefined one, are free values
(assumption 6). -/
def Obligations.StationsAreDefined : Prop :=
  ∀ (s : State) (b : StationField) (k : StationId), s.Takes .defineStation →
    b.station.toNat = k.val →
    (∀ n, (b.defined = 0 ∨ b.line = 0xFF) → s.lineOf k = some n → s.inService n = true →
      exec (.defineStation b) s = .next (s.owe (some ⟨0xFF, [0x20, 0x06, idByte n]⟩))) ∧
    (∀ p1 p2 p3 p4 : Byte, b.defined ≠ 0 → b.line.toNat ≤ 7 → b.position.toNat ≤ 15 →
      (b.pace.presence ≠ 0 → b.pace.value.toNat ≤ 15) →
      p1 = 4 + (if b.run.presence = 0 then 1 else 2) →
      p2 = p1 + (if b.fault.presence = 0 then 1 else 2) →
      p3 = p2 + (if b.block.presence = 0 then 1 else 2) →
      p4 = p3 + (if b.starve.presence = 0 then 1 else 2) →
      (1 < b.run.presence.toNat → exec (.defineStation b) s =
        .next (s.owe (some ⟨0xFF, [0x20, 0x02, 4]⟩))) ∧
      (b.run.presence.toNat ≤ 1 →
        (1 < b.fault.presence.toNat → exec (.defineStation b) s =
          .next (s.owe (some ⟨0xFF, [0x20, 0x02, p1]⟩))) ∧
        (b.fault.presence.toNat ≤ 1 →
          (1 < b.block.presence.toNat → exec (.defineStation b) s =
            .next (s.owe (some ⟨0xFF, [0x20, 0x02, p2]⟩))) ∧
          (b.block.presence.toNat ≤ 1 →
            (1 < b.starve.presence.toNat → exec (.defineStation b) s =
              .next (s.owe (some ⟨0xFF, [0x20, 0x02, p3]⟩))) ∧
            (b.starve.presence.toNat ≤ 1 → 1 < b.pace.presence.toNat →
              exec (.defineStation b) s =
                .next (s.owe (some ⟨0xFF, [0x20, 0x02, p4]⟩))))))) ∧
    (∀ n : LineId, b.defined ≠ 0 → b.line.toNat = n.val → b.position.toNat ≤ 15 →
      b.run.presence.toNat ≤ 1 → b.fault.presence.toNat ≤ 1 → b.block.presence.toNat ≤ 1 →
      b.starve.presence.toNat ≤ 1 → b.pace.presence.toNat ≤ 1 →
      (b.pace.presence = 1 → b.pace.value.toNat ≤ 15) →
      (∀ m, s.lineOf k = some m → s.inService m = true → exec (.defineStation b) s =
        .next (s.owe (some ⟨0xFF, [0x20, 0x06, idByte m]⟩))) ∧
      ((∀ m, s.lineOf k = some m → s.inService m = false) →
        (s.inService n = true → exec (.defineStation b) s =
          .next (s.owe (some ⟨0xFF, [0x20, 0x06, b.line]⟩))) ∧
        (s.inService n = false →
          (12 ≤ ((s.members n).filter (· != k)).length → exec (.defineStation b) s =
            .next (s.owe (some ⟨0xFF, [0x20, 0x08, b.line]⟩))) ∧
          (((s.members n).filter (· != k)).length ≤ 11 →
            (∀ m ∈ s.members n, m ≠ k →
              s.positionIn n m = some (Fin.ofNat 16 b.position.toNat) →
              exec (.defineStation b) s =
                .next (s.owe (some ⟨0xFF, [0x20, 0x08, b.position]⟩))) ∧
            ((∀ m ∈ s.members n, m ≠ k →
                s.positionIn n m ≠ some (Fin.ofNat 16 b.position.toNat)) →
              (∀ p before after, fieldPoints b = before ++ p :: after →
                (p ∈ after ∨ ∃ m e, m ≠ k ∧ s.stationDef m = some e ∧ p ∈ e.points) →
                (∀ x ∈ before, (fieldPoints b).count x = 1 ∧
                  ∀ m e, m ≠ k → s.stationDef m = some e → x ∉ e.points) →
                exec (.defineStation b) s =
                  .next (s.owe (some ⟨0xFF, [0x20, 0x08, idByte p]⟩))) ∧
              ((fieldPoints b).Nodup →
                (∀ p ∈ fieldPoints b, ∀ m e, m ≠ k → s.stationDef m = some e → p ∉ e.points) →
                b.pace.presence = 1 → s.roleOf (inputOfByte b.pace.value) ≠ .none →
                s.roleOf (inputOfByte b.pace.value) ≠ .pace k →
                exec (.defineStation b) s =
                  .next (s.owe (some ⟨0xFF, [0x20, 0x08, b.pace.value]⟩)))))))) ∧
    (∀ d : Option StationDef, (∀ n, s.lineOf k = some n → s.inService n = false) →
      (b.defined = 0 ∧ d = none ∨
        b.defined ≠ 0 ∧ b.line = 0xFF ∧ d = some
          { place := none, run := none, fault := none, block := none, starve := none,
            pace := none, stall := min 600 b.stall.toNat } ∨
        ∃ n : LineId, b.defined ≠ 0 ∧ b.line.toNat = n.val ∧ b.position.toNat ≤ 15 ∧
          s.inService n = false ∧ b.run.presence.toNat ≤ 1 ∧ b.fault.presence.toNat ≤ 1 ∧
          b.block.presence.toNat ≤ 1 ∧ b.starve.presence.toNat ≤ 1 ∧
          b.pace.presence.toNat ≤ 1 ∧
          (b.pace.presence = 1 → b.pace.value.toNat ≤ 15 ∧
            (s.roleOf (inputOfByte b.pace.value) = .none ∨
              s.roleOf (inputOfByte b.pace.value) = .pace k)) ∧
          ((s.members n).filter (· != k)).length ≤ 11 ∧
          (∀ m ∈ s.members n, m ≠ k →
            s.positionIn n m ≠ some (Fin.ofNat 16 b.position.toNat)) ∧
          (fieldPoints b).Nodup ∧
          (∀ p ∈ fieldPoints b, ∀ m e, m ≠ k → s.stationDef m = some e → p ∉ e.points) ∧
          d = some
            { place := some ⟨n, Fin.ofNat 16 b.position.toNat⟩
              run := if b.run.presence = 0 then none else some (pointOfByte b.run.value)
              fault := if b.fault.presence = 0 then none else some (pointOfByte b.fault.value)
              block := if b.block.presence = 0 then none else some (pointOfByte b.block.value)
              starve := if b.starve.presence = 0 then none else some (pointOfByte b.starve.value)
              pace := if b.pace.presence = 0 then none else some (inputOfByte b.pace.value)
              stall := min 600 b.stall.toNat }) →
      ∃ t, exec (.defineStation b) s = .next t ∧ t.stationDef k = d ∧
        (t.station k).reported = none ∧ (t.station k).armed = none ∧
        (t.station k).memory = none ∧ (t.station k).stallExpiry = none ∧
        (t.station k).stamp = s.hall ∧ (t.station k).state = t.derivedState k ∧
        (t.station k).degraded = t.degradedNow k ∧ (t.station k).tally = (s.station k).tally ∧
        (∀ m, m ≠ k → t.stationDef m = s.stationDef m ∧ t.station m = s.station m) ∧
        t = { s with settings := t.settings, stations := t.stations, link := t.link } ∧
        t.settings = { s.settings with stations := t.settings.stations } ∧
        (d = none → ∃ x y z : Byte, t.link = { s.link with
          serving := .serving
          reply := some ⟨0xA0, [b.station, 0, 0xFF, x, 0, 0, 0, 0, 0, y, z]⟩ }) ∧
        ∀ e, d = some e → ∃ position : Byte,
          (∀ p, e.place = some p → position = b.position) ∧
          t.link = { s.link with
            serving := .serving
            reply := some ⟨0xA0, [b.station, 1, if e.place = none then 0xFF else b.line, position] ++
              optional (fun p => [idByte p]) e.run ++ optional (fun p => [idByte p]) e.fault ++
              optional (fun p => [idByte p]) e.block ++ optional (fun p => [idByte p]) e.starve ++
              optional (fun i => [idByte i]) e.pace ++ field 2 e.stall⟩ })

/-- STATION-FAULT (R56, R57) by the station's state, with the current cause it makes (R55), which the
station's line takes (R59, R73); a cause is acceptable when it is 0, or a host code with an unplanned
category and with no scope or this station as scope (R43). And ARMED-REPORT-EXPIRY (R58). -/
def Obligations.StationReportsAreTaken : Prop :=
  ∀ (s : State) (k : StationId) (v : StationLive), v = s.station k →
    (∀ (station cause : Byte) (acceptable : Prop), s.Takes .stationFault → station.toNat = k.val →
      (acceptable ↔ cause = 0 ∨ ∃ c scope, hostEntry s.settings cause = some ⟨c, scope⟩ ∧
        c.planned = false ∧ (scope = none ∨ scope = some k)) →
      (s.stationServed k = false → exec (.stationFault station cause) s =
        .next (s.owe (some ⟨0xFF, [0x46, 0x07, station]⟩))) ∧
      (s.stationServed k = true → ¬ acceptable →
        exec (.stationFault station cause) s =
          .next (s.owe (some ⟨0xFF, [0x46, 0x0E, cause]⟩))) ∧
      (s.stationServed k = true → acceptable →
        ∃ t, exec (.stationFault station cause) s = .next t ∧ s.SameButLines t ∧
          s.LinesTake { s with stations := t.stations } { t with link := s.link } ∧
          (cause = 0 → t.station k = { v with reported := none, armed := none } ∧
            (v.state = .faulted → (t.station k).currentCause = 1) ∧
            (v.state = .halted → (t.station k).currentCause = 2)) ∧
          (cause ≠ 0 → (v.state = .faulted ∨ v.state = .halted) →
            t.station k = { v with reported := some ⟨cause, s.hall⟩ } ∧
            (t.station k).currentCause = cause) ∧
          (cause ≠ 0 → v.state ≠ .faulted → v.state ≠ .halted →
            t.station k = { v with armed := some ⟨cause, s.clock.count + 300⟩ } ∧
            t.lines = s.lines ∧ t.journal = s.journal ∧ t.alerts = s.alerts) ∧
          (∀ m, m ≠ k → t.station m = s.station m) ∧ t.queue = s.queue ∧
          t.link = { s.link with
            serving := .serving
            reply := some ⟨0xC6, [station, v.state.code,
              ((t.station k).reported.map Reported.cause).getD 0,
              ((t.station k).armed.map Armed.cause).getD 0]⟩ })) ∧
    (∀ a, s.power.running = true → v.armed = some a →
      (a.expiry ≤ s.clock.count → exec (.armedReportExpiry k) s =
        .next { s with stations := Tab.set s.stations k { v with armed := none } }) ∧
      (s.clock.count < a.expiry → exec (.armedReportExpiry k) s = .next s))

/-- STALL-TIMER-EXPIRY (R53): the station enters STALLED with cause 3, and a RUNNING line of which
it is the constraint opens a candidate attributed to it (R73, R74). And what a line in service does
with an event of its members, by its state (R73): it opens a candidate, ends one as a micro-stop
(R75, R121, R63), closes its record (R83), or walks again, with its last contributor going on, a
contributor appended, or the record capped (R80 to R82); and with a changed degraded flag (R84,
R128). A line that leaves RUNNING ends its segment in U, has the running segment credited, and books N
from there, or with a threshold of 0 the category of the cause (R118, R119, R131, R76). Of an event that
changes flags and states at once a line takes the flags first (the model's choice, assumption 13). -/
def Obligations.StallTimersExpire : Prop :=
  (∀ (s : State) (k : StationId) (v : StationLive) (e : Nat), v = s.station k →
    s.power.running = true → v.stallExpiry = some e → v.state = .running →
    (s.clock.count < e → exec (.stallTimerExpiry k) s = .next s) ∧
    (e ≤ s.clock.count → ∃ t, exec (.stallTimerExpiry k) s = .next t ∧ s.SameButLines t ∧
      (t.station k).state = .stalled ∧ (t.station k).stamp = s.hall ∧
      (t.station k).stallExpiry = none ∧ (t.station k).currentCause = 3 ∧
      (t.station k).memory = v.memory ∧ (t.station k).tally = v.tallyAt s.clock.count ∧
      (∀ m, m ≠ k → t.station m = s.station m) ∧
      s.LinesTake { s with stations := t.stations } t ∧
      (∀ n, (s.lineDef n).constraint = some k → (s.line n).state = .running →
        (t.line n).state = (if (s.lineDef n).threshold = 0 then .down else .pendingStop) ∧
        ∃ r, (t.line n).slot = some r ∧ r.entryState = .stalled ∧ r.startStamp = s.hall ∧
          r.startCount = s.clock.count ∧ r.serial = (s.line n).serial ∧
          r.contributors = [⟨k, 3, .unassigned, 0⟩]) ∧
      (∀ n, (s.lineDef n).constraint ≠ some k → k ∉ s.members n → t.line n = s.line n) ∧
      t.journal = s.journal ∧ t.queue = s.queue ∧ t.link = s.link ∧ t.alerts = s.alerts)) ∧
  (∀ (old s t : State) (n : LineId) (k : StationId) (b : Bank) (now : Nat), now = s.clock.count →
    s.inService n = true → (s.lineDef n).constraint = some k → (s.line n).bank = some b →
    t = State.lineNews old s n → (∀ m, (old.station m).degraded = (s.station m).degraded) →
    ((s.line n).state = .planned → t = s) ∧
    (((s.line n).state = .running ∨ (s.line n).state = .resuming) → ¬ old.Moved s k → t = s) ∧
    ((s.line n).state = .resuming → old.Moved s k → (s.station k).state ≠ .unmonitored →
      t = s.evaluate n) ∧
    ((s.line n).state = .running → old.Moved s k → (s.station k).state ≠ .running →
      (t.line n).state = (if (s.lineDef n).threshold = 0 then .down else .pendingStop) ∧
      (t.line n).stamp = s.hall ∧
      (∃ r, (t.line n).slot = some r ∧ r.startCount = now ∧ r.startStamp = s.hall ∧
        r.kind = (if (s.lineDef n).threshold = 0 then .record (s.line n).nextNumber
          else .candidate (now + (s.lineDef n).threshold * 100)) ∧
        r.entryState = (s.station k).state ∧ r.serial = (s.line n).serial ∧
        r.contributors = [⟨(s.walk n).1, (s.walk n).2,
          contributorCategory s.settings (s.walk n).2, 0⟩] ∧
        r.markers.degraded =
          ((s.station k).degraded || (s.station (s.walk n).1).degraded)) ∧
      ∃ b', (t.line n).bank = some b' ∧ b.RunCredited b' (s.lineDef n).rate now ∧
        b'.runStart = none ∧ b'.segStart = now ∧ (∀ y, b'.time y = (b.book now).time y) ∧
        b'.booking = (if (s.lineDef n).threshold = 0 then
          .cat (contributorCategory s.settings (s.walk n).2) else .n) ∧
        b'.counts = { b.counts with
          ideal := b'.counts.ideal
          remainder := b'.counts.remainder
          stoppage := if (s.lineDef n).threshold = 0 then min (b.counts.stoppage + 1) 4294967295
            else b.counts.stoppage }) ∧
    (∀ r e, (s.line n).state = .pendingStop → (s.line n).slot = some r → r.kind = .candidate e →
      old.Moved s k → (s.station k).state = .running →
      (t.line n).state = .running ∧ (t.line n).stamp = s.hall ∧ (t.line n).slot = none ∧
      t.journal = s.journal ∧ s.CreditedMicro t (r.contributorsAt now) ∧
      ∃ b', (t.line n).bank = some b' ∧ (b.book now).MicroStopped b' ∧ b'.booking = .u ∧
        b'.runStart = some now ∧ b'.counts.micro = min (b.counts.micro + 1) 4294967295) ∧
    (∀ r m, (s.line n).state = .down → (s.line n).slot = some r → r.kind = .record m →
      old.Moved s k → (s.station k).state = .running →
      (t.line n).state = .running ∧ (t.line n).stamp = s.hall ∧ (t.line n).slot = none ∧
      s.CreditedDown t (r.contributorsAt now) ∧
      (∃ j, t.journal =
          (if s.journal.length < 192 then s.journal else s.journal.tail) ++ [j] ∧
        j.line = n ∧ j.serial = r.serial ∧ j.number = m ∧ j.duration = now - r.startCount ∧
        j.markers = r.markers ∧ j.contributors = r.contributorsAt now) ∧
      ∃ b', (t.line n).bank = some b' ∧ (∀ y, b'.time y = (b.book now).time y) ∧
        b'.booking = .u ∧ b'.runStart = some now) ∧
    (∀ r (degraded : Bool), ((s.line n).state = .pendingStop ∨ (s.line n).state = .down) →
      (s.line n).slot = some r →
      (old.Moved s k ∧ (s.station k).state ≠ .running ∨
        ¬ old.Moved s k ∧ ∃ m ∈ s.members n, m ≠ k ∧ old.Moved s m) →
      degraded = (r.markers.degraded || (s.station k).degraded ||
        (s.station (s.walk n).1).degraded) →
      (t.line n).state = (s.line n).state ∧ t.journal = s.journal ∧
      (∃ b', (t.line n).bank = some b' ∧
        b'.degraded = (b.degraded || (!r.markers.degraded && degraded)) ∧
        b'.counts = b.counts) ∧
      (∀ c, r.contributors.getLast? = some c → c.station = (s.walk n).1 →
        c.cause = (s.walk n).2 →
        (t.line n).slot = some { r with
          walkStation := (s.walk n).1, markers := { r.markers with degraded := degraded } }) ∧
      ((∀ c, r.contributors.getLast? = some c →
          (c.station ≠ (s.walk n).1 ∨ c.cause ≠ (s.walk n).2)) →
        (4 ≤ r.contributors.length → (t.line n).slot = some { r with
          walkStation := (s.walk n).1
          markers := { r.markers with capped := true, degraded := degraded } }) ∧
        (r.contributors.length < 4 →
          (t.line n).slot = some { r with
            walkStation := (s.walk n).1
            markers := { r.markers with degraded := degraded }
            contributors := r.contributorsAt now ++ [⟨(s.walk n).1, (s.walk n).2,
              contributorCategory s.settings (s.walk n).2, 0⟩]
            lastSince := now } ∧
          ((t.line n).bank.map Bank.booking) = some (if (s.line n).state = .down then
            .cat (contributorCategory s.settings (s.walk n).2) else .n))))) ∧
  (∀ (old s t : State) (n : LineId) (k : StationId) (b : Bank), s.inService n = true →
    (s.lineDef n).constraint = some k → (s.line n).bank = some b → t = State.lineNews old s n →
    (∀ m, ¬ old.Moved s m) →
    (t.line n).state = (s.line n).state ∧ t.journal = s.journal ∧ t.stations = s.stations ∧
    ((old.station k).degraded = false → (s.station k).degraded = true →
      ∃ b', (t.line n).bank = some b' ∧ b'.degraded = true) ∧
    (∀ r, (s.line n).slot = some r →
      ((old.station k).degraded ≠ (s.station k).degraded ∨
        (old.station r.walkStation).degraded ≠ (s.station r.walkStation).degraded) →
      (t.line n).slot = some { r with markers := { r.markers with
        degraded := r.markers.degraded || (s.station k).degraded ||
          (s.station r.walkStation).degraded } })) ∧
  ∀ (old s flags moves : State) (n : LineId),
    (∀ k, flags.station k = { s.station k with degraded := (old.station k).degraded }) →
    (∀ k, moves.station k = { old.station k with degraded := (s.station k).degraded }) →
    State.lineNews old s n = State.lineNews moves (State.lineNews flags s n) n

/-! ### Lines -/

/-- DEFINE-LINE (R68): the definition is replaced and the rate and timers kept; refused with more than
two REJECT inputs or a presence byte that is neither 0 nor 1 (R161, R162, R178), in service, with an
input named twice, or with an input that has a role elsewhere. Of several such inputs the
first in field order is the detail: the model's choice (assumption 30). -/
def Obligations.LinesAreDefined : Prop :=
  (∀ (s : State) (line constraint : Byte) (output : Carried Byte) (rejects : List Byte),
    s.Takes .defineLine →
    (2 < rejects.length → exec (.defineLine line constraint output rejects) s =
      .next (s.owe (some ⟨0xFF, [0x21, 0x02, BitVec.ofNat 8
        (2 + (if output.presence = 0 then 1 else 2) + 1 + rejects.length)]⟩))) ∧
    (rejects.length ≤ 2 → line.toNat ≤ 7 → (constraint = 0xFF ∨ constraint.toNat ≤ 63) →
      1 < output.presence.toNat → output.value.toNat ≤ 15 → (∀ b ∈ rejects, b.toNat ≤ 15) →
      exec (.defineLine line constraint output rejects) s =
        .next (s.owe (some ⟨0xFF, [0x21, 0x02, 2]⟩)))) ∧
  ∀ (s : State) (n : LineId) (line constraint : Byte) (output : Carried Byte) (rejects : List Byte)
    (inputs : List InputId), s.Takes .defineLine → line.toNat = n.val →
    (constraint = 0xFF ∨ constraint.toNat ≤ 63) → output.presence.toNat ≤ 1 →
    (output.presence = 1 → output.value.toNat ≤ 15) → rejects.length ≤ 2 →
    (∀ b ∈ rejects, b.toNat ≤ 15) →
    inputs = (if output.presence = 0 then [] else [inputOfByte output.value]) ++
      rejects.map inputOfByte →
    (s.inService n = true → exec (.defineLine line constraint output rejects) s =
      .next (s.owe (some ⟨0xFF, [0x21, 0x06, line]⟩))) ∧
    (∀ i, s.inService n = false → 2 ≤ inputs.count i →
      exec (.defineLine line constraint output rejects) s =
        .next (s.owe (some ⟨0xFF, [0x21, 0x08, idByte i]⟩))) ∧
    (∀ i before after, s.inService n = false → inputs.Nodup → inputs = before ++ i :: after →
      s.roleOf i ≠ .none → s.roleOf i ≠ .output n → s.roleOf i ≠ .reject n →
      (∀ j ∈ before, s.roleOf j = .none ∨ s.roleOf j = .output n ∨ s.roleOf j = .reject n) →
      exec (.defineLine line constraint output rejects) s =
        .next (s.owe (some ⟨0xFF, [0x21, 0x08, idByte i]⟩))) ∧
    (s.inService n = false → inputs.Nodup →
      (∀ i ∈ inputs, s.roleOf i = .none ∨ s.roleOf i = .output n ∨ s.roleOf i = .reject n) →
      exec (.defineLine line constraint output rejects) s = .next (State.owe { s with
        settings := { s.settings with
          lines := Tab.set s.settings.lines n { s.lineDef n with
            constraint := if constraint = 0xFF then none else some (stationOfByte constraint)
            output := if output.presence = 0 then none else some (inputOfByte output.value)
            rejects := rejects.map inputOfByte } } }
        (some ⟨0xA1, [line, constraint] ++
          (if output.presence = 0 then [0] else [1, output.value]) ++
          BitVec.ofNat 8 rejects.length :: rejects⟩)))

/-- ENABLE-LINE (R70, R71, R54, R34): the refusals in their order, and a line entering service with
a shift opened, the stall timers of its RUNNING members started, the queues of its REJECT inputs
empty, its state taken from its constraint, and its bank booking the bucket of that state (R118, R131).
A constraint that has stopped opens a candidate with what the walk finds (R74, R77). Of several inputs
without a slot the one of the lowest number is the detail: the model's choice (assumption 30). -/
def Obligations.LinesEnterService : Prop :=
  ∀ (s : State) (n : LineId) (line : Byte), s.Takes .enableLine → line.toNat = n.val →
    (s.inService n = true → exec (.enableLine line) s =
      .next (s.owe (some ⟨0xFF, [0x40, 0x0B, (s.line n).state.code]⟩))) ∧
    (s.inService n = false → s.clock.isSet = false → exec (.enableLine line) s =
      .next (s.owe (some ⟨0xFF, [0x40, 0x0F, 0]⟩))) ∧
    (s.inService n = false → s.clock.isSet = true → s.members n = [] →
      exec (.enableLine line) s = .next (s.owe (some ⟨0xFF, [0x40, 0x09, 1]⟩))) ∧
    (s.inService n = false → s.clock.isSet = true → s.members n ≠ [] →
      ((s.lineDef n).constraint = none ∨ (∃ k, (s.lineDef n).constraint = some k ∧
        ∀ d, s.stationDef k = some d → (∀ p, d.place ≠ some ⟨n, p⟩) ∨ d.run = none)) →
      exec (.enableLine line) s = .next (s.owe (some ⟨0xFF, [0x40, 0x09, 2]⟩))) ∧
    (∀ (k : StationId) (d : StationDef) (p : Fin 16), s.inService n = false →
      s.clock.isSet = true → (s.lineDef n).constraint = some k → s.stationDef k = some d →
      d.place = some ⟨n, p⟩ → d.run ≠ none →
      ((s.lineDef n).rate = none → exec (.enableLine line) s =
        .next (s.owe (some ⟨0xFF, [0x40, 0x09, 3]⟩))) ∧
      (∀ i, (s.lineDef n).rate ≠ none → s.HasRoleOf i n → slotCount s.settings.slots i = 0 →
        (∀ j, j < i → s.HasRoleOf j n → slotCount s.settings.slots j ≠ 0) →
        exec (.enableLine line) s =
          .next (s.owe (some ⟨0xFF, [0x40, 0x09, 0x10 + idByte i]⟩))) ∧
      ((s.lineDef n).rate ≠ none →
        (∀ i, s.HasRoleOf i n → slotCount s.settings.slots i ≠ 0) →
        (s.line n).coherent = true → (s.line n).serial ≤ 4294967295 →
        ∃ t b, exec (.enableLine line) s = .next t ∧
          (t.line n).serial = (if (s.line n).serial = 4294967295 then 1
            else (s.line n).serial + 1) ∧
          (t.line n).openStamp = some s.hall ∧ (t.line n).stamp = s.hall ∧
          ((s.station k).state = .running →
            (t.line n).state = .running ∧ (t.line n).slot = none) ∧
          ((s.station k).state = .unmonitored →
            (t.line n).state = .resuming ∧ (t.line n).slot = none) ∧
          ((s.station k).state ≠ .running → (s.station k).state ≠ .unmonitored →
            (t.line n).state = (if (s.lineDef n).threshold = 0 then .down else .pendingStop) ∧
            ∃ r, (t.line n).slot = some r ∧ r.startCount = s.clock.count ∧
              r.entryState = (s.station k).state ∧ r.contributors = [⟨(s.walk n).1, (s.walk n).2,
                contributorCategory s.settings (s.walk n).2, 0⟩]) ∧
          ((t.line n).state = .running → b.booking = .u ∧ b.runStart = some s.clock.count) ∧
          ((t.line n).state = .resuming → b.booking = .x ∧ b.runStart = none) ∧
          ((t.line n).state = .pendingStop → b.booking = .n ∧ b.runStart = none) ∧
          ((t.line n).state = .down → b.runStart = none ∧
            b.booking = .cat (contributorCategory s.settings (s.walk n).2)) ∧
          (t.line n).bank = some b ∧ b.openCount = s.clock.count ∧ b.booked = 0 ∧
          b.counts.t = 0 ∧ b.counts.j = 0 ∧ b.counts.c = 0 ∧ b.counts.stray = 0 ∧
          b.counts.ideal = 0 ∧ b.counts.remainder = 0 ∧
          (∀ m ∈ s.members n, (t.station m).tally = some StationTally.zero ∧
            (t.station m).since = s.clock.count) ∧
          (∀ m, (t.station m).state = (s.station m).state) ∧
          (∀ m d, m ∈ s.members n → s.stationDef m = some d → (s.station m).state = .running →
            (t.station m).stallExpiry = if d.stall = 0 ∨ s.paceSource m = none then none
              else some (s.clock.count + d.stall * 100)) ∧
          (∀ m, (s.station m).state ≠ .running →
            (t.station m).stallExpiry = (s.station m).stallExpiry) ∧
          (∀ m, m ∉ s.members n → t.station m = s.station m) ∧
          (∀ i, i ∈ (s.lineDef n).rejects → t.input i = { s.input i with windows := [] }) ∧
          (∀ i, i ∉ (s.lineDef n).rejects → t.input i = s.input i) ∧
          (∀ m, m ≠ n → t.line m = s.line m) ∧
          State.SameButLines { s with inputs := t.inputs } t ∧ t.journal = s.journal ∧
          t.queue = s.queue ∧ t.alerts = s.alerts ∧
          t.link = { s.link with
            serving := .serving
            reply := some ⟨0xC0, line :: (field 4 (t.line n).serial ++ stamp s.hall ++
              [(t.line n).state.code])⟩ }))

/-- DISABLE-LINE (R72, with R34, R54, R101, R147, R148): the line's shift closes with reason DISABLE,
the stoppage in its slot entering the journal with marker SHIFT-END, its bank and its members'
tallies go to the staging buffer and the write queue, and the line is out of service. -/
def Obligations.LinesLeaveService : Prop :=
  ∀ (s : State) (n : LineId) (line : Byte), s.Takes .disableLine → line.toNat = n.val →
    (s.inService n = false → exec (.disableLine line) s =
      .next (s.owe (some ⟨0xFF, [0x41, 0x0B, 0]⟩))) ∧
    (s.inService n = true → (s.line n).staging ≠ none → exec (.disableLine line) s =
      .next (s.owe (some ⟨0xFF, [0x41, 0x05, line]⟩))) ∧
    (∀ b, s.inService n = true → (s.line n).staging = none → (s.line n).bank = some b →
      ∃ t c, exec (.disableLine line) s = .next t ∧
        s.ClosedShift t n b c ∧ s.ClosedAlone t n c ∧
        (t.line n).state = .outOfService ∧ (t.line n).stamp = s.hall ∧
        (t.line n).serial = (s.line n).serial ∧ (t.line n).openStamp = none ∧
        (t.line n).slot = none ∧ (t.line n).plan = none ∧ (t.line n).bank = none ∧
        (t.line n).deferred = false ∧
        c.reason = .disable ∧ c.deferred = false ∧ t.queue = s.queue ++ [.bank n] ∧
        (∀ m ∈ s.members n, (t.station m).tally = none ∧ (t.station m).stallExpiry = none ∧
          (t.station m).state =
            if (s.station m).state = .stalled then .running else (s.station m).state) ∧
        (∀ i, t.qualified i = none → (t.input i).windows = []) ∧
        (∀ m, m ≠ n → t.line m = s.line m) ∧ t.settings = s.settings ∧ t.points = s.points ∧
        t.clock = s.clock ∧ t.archive = s.archive ∧ t.guardMode = s.guardMode ∧
        t.power = s.power ∧
        t.link = { s.link with
          serving := .serving, reply := some ⟨0xC1, line :: field 4 (s.line n).serial⟩ })

/-- CLOSE-SHIFT (R147 to R149): the shift closes with reason REQUEST and the next one opens at the
same instant. A candidate in the slot is promoted in the closing bank, and the record closes with
marker SHIFT-END and enters the journal, its stations credited in the closing shift; it goes on as
record 1 of the new shift, marked CONTINUED, with the last contributor's station and cause. That
the DEGRADED test of the continuation takes the closed record's latest walk result is the model's
choice (assumption 24). -/
def Obligations.ShiftsCloseOnRequest : Prop :=
  ∀ (s : State) (n : LineId) (line : Byte), s.Takes .closeShift → line.toNat = n.val →
    (s.inService n = false → exec (.closeShift line) s =
      .next (s.owe (some ⟨0xFF, [0x42, 0x07, line]⟩))) ∧
    (s.inService n = true → (s.line n).staging ≠ none → exec (.closeShift line) s =
      .next (s.owe (some ⟨0xFF, [0x42, 0x05, line]⟩))) ∧
    (∀ b, s.inService n = true → (s.line n).staging = none → (s.line n).bank = some b →
      (s.line n).coherent = true → (s.line n).serial ≤ 4294967295 →
      ∃ t c b', exec (.closeShift line) s = .next t ∧
        s.ClosedShift t n b c ∧ s.ClosedAlone t n c ∧ s.OpenedNext t n b' ∧
        c.reason = .request ∧ c.deferred = false ∧ t.queue = s.queue ++ [.bank n] ∧
        (∀ m ∈ s.members n, (t.station m).tally = some StationTally.zero) ∧
        (∀ m, (t.station m).state = (s.station m).state) ∧
        (∀ m, m ≠ n → t.line m = s.line m) ∧ s.SameButLines t ∧
        t.link = { s.link with
          serving := .serving
          reply := some ⟨0xC2, line :: (field 4 (s.line n).serial ++ stamp s.hall ++
            field 4 (t.line n).serial ++
            if (s.line n).slot = none then [0] else 1 :: field 4 1)⟩ })

/-- SET-RATE (R88, R131): a rate of 0 is refused, a running segment is credited at the old rate, and
the new one holds from now. -/
def Obligations.RatesAreTaken : Prop :=
  ∀ (s : State) (n : LineId) (line : Byte) (rate : BitVec 32) (taken : Nat) (reply : Reply),
    s.Takes .setRate → line.toNat = n.val → taken = min 150000 rate.toNat →
    reply = ⟨0xC3, line :: field 4 taken⟩ →
    (rate = 0 → exec (.setRate line rate) s =
      .next (s.owe (some ⟨0xFF, [0x43, 0x03, 0]⟩))) ∧
    (rate ≠ 0 → (s.line n).state ≠ .running → exec (.setRate line rate) s =
      .next (State.owe (s.modLineDef n fun d => { d with rate := some taken }) (some reply))) ∧
    (∀ b old a total, rate ≠ 0 → (s.line n).state = .running → (s.line n).bank = some b →
      (s.lineDef n).rate = some old → b.runStart = some a →
      total = b.counts.remainder + old * (s.clock.count - a) →
      exec (.setRate line rate) s = .next (State.owe
        ((s.modLine n fun l => { l with
            bank := some { b with
              counts := { b.counts with
                ideal := b.counts.ideal + total / 360000
                remainder := total % 360000 }
              runStart := some s.clock.count } }).modLineDef n
          fun d => { d with rate := some taken }) (some reply)))

/-- SET-LINE-TIMERS (R89) and THRESHOLD-EXPIRY (R76): a candidate is promoted at its threshold, its
contributors' durations moving from N to the buckets of their categories (R121), or its threshold
expiry is moved. -/
def Obligations.CandidatesMeetTheirThreshold : Prop :=
  ∀ (s : State) (n : LineId),
    (∀ (line : Byte) (threshold lookback deadline : BitVec 16) (limit : Nat) (set : State)
        (reply : Reply), s.Takes .setLineTimers → line.toNat = n.val →
      limit = min 600 threshold.toNat →
      set = s.modLineDef n (fun d => { d with
        threshold := limit
        lookback := min 3600 lookback.toNat
        deadline := min 7200 deadline.toNat }) →
      reply = ⟨0xA6, line :: (field 2 limit ++ field 2 (min 3600 lookback.toNat) ++
        field 2 (min 7200 deadline.toNat))⟩ →
      ((∀ r e, (s.line n).slot = some r → r.kind ≠ .candidate e) →
        exec (.setLineTimers line threshold lookback deadline) s =
          .next (set.owe (some reply))) ∧
      (∀ r e, (s.line n).slot = some r → r.kind = .candidate e →
        (s.clock.count - r.startCount < limit * 100 →
          exec (.setLineTimers line threshold lookback deadline) s =
            .next (State.owe (set.modLine n fun l => { l with
              slot := some { r with kind := .candidate (r.startCount + limit * 100) } })
              (some reply))) ∧
        (limit * 100 ≤ s.clock.count - r.startCount →
          ∃ t, exec (.setLineTimers line threshold lookback deadline) s = .next t ∧
            (t.line n).state = .down ∧
            (t.line n).slot = some { r with kind := .record (s.line n).nextNumber } ∧
            (∀ b, (s.line n).bank = some b → ∃ b', (t.line n).bank = some b' ∧
              (b.book s.clock.count).Promoted b' (r.contributorsAt s.clock.count)) ∧
            t.settings = set.settings))) ∧
    (∀ r e b, s.power.running = true → (s.line n).slot = some r → r.kind = .candidate e →
      (s.line n).bank = some b →
      (s.clock.count < e → exec (.thresholdExpiry n) s = .next s) ∧
      (e ≤ s.clock.count → ∃ t b', exec (.thresholdExpiry n) s = .next t ∧
        (t.line n).state = .down ∧ (t.line n).stamp = s.hall ∧
        (t.line n).slot = some { r with kind := .record (s.line n).nextNumber } ∧
        (t.line n).nextNumber = (s.line n).nextNumber + 1 ∧ (t.line n).bank = some b' ∧
        b'.counts.stoppage = min (b.counts.stoppage + 1) 4294967295 ∧
        b'.counts.t = b.counts.t ∧ b'.counts.j = b.counts.j ∧ b'.counts.micro = b.counts.micro ∧
        b'.booked = b.booked + (s.clock.count - b.segStart) ∧
        (b.book s.clock.count).Promoted b' (r.contributorsAt s.clock.count) ∧
        b'.booking = .cat r.lastCategory ∧ (∀ m, m ≠ n → t.line m = s.line m) ∧
        t = { s with lines := t.lines }))

/-- The attribution walk (R77 to R79): where it begins, how it judges each station it reaches, and
where it ends. -/
def Obligations.WalksFindTheStationThatStopped : Prop :=
  (∀ (s : State) (n : LineId) (k : StationId) (up down : List StationId),
    (s.lineDef n).constraint = some k → s.members n = up ++ k :: down → k ∉ up →
    (((s.station k).state = .faulted ∨ (s.station k).state = .halted ∨
        (s.station k).state = .stalled) → s.walk n = (k, (s.station k).currentCause)) ∧
    ((s.station k).state = .unmonitored → s.walk n = (k, 9)) ∧
    ((s.station k).state = .starved →
      s.walk n = s.walkOn .upstream ((s.lineDef n).lookback * 100) k up.reverse) ∧
    ((s.station k).state = .blocked →
      s.walk n = s.walkOn .downstream ((s.lineDef n).lookback * 100) k down)) ∧
  (∀ (s : State) (d : Direction) (lookback : Nat) (last : StationId) (passed : List StationId),
    (∀ x ∈ passed, judge d lookback s.clock.count (s.station x) = none) →
    s.walkOn d lookback last passed = (passed.getLast?.getD last,
      match d with
        | .upstream => 6
        | .downstream => 7) ∧
    ∀ k rest c, judge d lookback s.clock.count (s.station k) = some c →
      s.walkOn d lookback last (passed ++ k :: rest) = (k, c)) ∧
  (∀ (d : Direction) (lookback t : Nat) (v : StationLive) (same opposite : StationState)
      (kind : MemoryKind) (shortage : CauseCode),
    (d = .upstream ∧ same = .starved ∧ opposite = .blocked ∧ kind = .starved ∧ shortage = 4 ∨
      d = .downstream ∧ same = .blocked ∧ opposite = .starved ∧ kind = .blocked ∧
        shortage = 5) →
    (v.state = same → judge d lookback t v = none) ∧
    ((v.state = .faulted ∨ v.state = .halted ∨ v.state = .stalled) →
      judge d lookback t v = some v.currentCause) ∧
    (v.state = opposite → judge d lookback t v = some 8) ∧
    (v.state = .unmonitored → judge d lookback t v = some 9) ∧
    (v.state = .running →
      (∀ m, v.memory = some m → t ≤ m.endCount + lookback →
        (m.kind = kind → judge d lookback t v = none) ∧
        (m.kind = .own → judge d lookback t v = some m.cause) ∧
        (m.kind ≠ kind → m.kind ≠ .own → judge d lookback t v = some shortage)) ∧
      ((∀ m, v.memory = some m → m.endCount + lookback < t) →
        judge d lookback t v = some shortage)))

/-- PLAN-BEGIN (R85): the stoppage in the slot ends, a candidate as a micro-stop, with N moved to M
(R121), and a record with marker PLAN, the stations being credited with its contributors (R63), and
the line enters PLANNED; a running segment is credited and ends (R131). Refused with a presence byte
that is neither 0 nor 1 (R161, R178), out of service, or without a planned cause. That the state stamp is
renewed on a line already PLANNED is the model's choice (assumption 11). -/
def Obligations.PlansBegin : Prop :=
  ∀ (s : State) (n : LineId) (line cause : Byte) (expected : Carried (BitVec 32)),
    s.Takes .planBegin → line.toNat = n.val →
    (1 < expected.presence.toNat → exec (.planBegin line cause expected) s =
      .next (s.owe (some ⟨0xFF, [0x44, 0x02, 2]⟩))) ∧
    (expected.presence.toNat ≤ 1 → s.inService n = false → exec (.planBegin line cause expected) s =
      .next (s.owe (some ⟨0xFF, [0x44, 0x07, line]⟩))) ∧
    (expected.presence.toNat ≤ 1 → s.inService n = true →
      (∀ c scope, hostEntry s.settings cause = some ⟨c, scope⟩ → c.planned = false) →
      exec (.planBegin line cause expected) s =
        .next (s.owe (some ⟨0xFF, [0x44, 0x0E, cause]⟩))) ∧
    (∀ c scope b limit, expected.presence.toNat ≤ 1 → s.inService n = true →
      hostEntry s.settings cause = some ⟨c, scope⟩ → c.planned = true → (s.line n).bank = some b →
      limit = (if expected.presence = 0 then none
        else some (max 1 (min 86400 expected.value.toNat))) →
      ∃ t b', exec (.planBegin line cause expected) s = .next t ∧
        (t.line n).state = .planned ∧ (t.line n).stamp = s.hall ∧ (t.line n).slot = none ∧
        (t.line n).plan = some
          { cause := cause, category := c, startStamp := s.hall, expected := limit, elapsed := 0,
            since := some s.clock.count, overrun := false } ∧
        (t.line n).bank = some b' ∧ b'.booking = .cat c ∧ b'.runStart = none ∧
        b.RunCredited b' (s.lineDef n).rate s.clock.count ∧ b'.segStart = s.clock.count ∧
        b'.counts = { b.counts with
          ideal := b'.counts.ideal
          remainder := b'.counts.remainder
          micro := b'.counts.micro } ∧
        b'.booked = b.booked + (s.clock.count - b.segStart) ∧
        (∀ r e, (s.line n).slot = some r → r.kind = .candidate e → t.journal = s.journal ∧
          (b.book s.clock.count).MicroStopped b' ∧
          s.CreditedMicro t (r.contributorsAt s.clock.count) ∧
          b'.counts.micro = min (b.counts.micro + 1) 4294967295) ∧
        (∀ r m, (s.line n).slot = some r → r.kind = .record m →
          (∃ j ∈ t.journal, j.line = n ∧ j.serial = r.serial ∧ j.number = m ∧
            j.markers = { r.markers with plan := true } ∧
            j.contributors = r.contributorsAt s.clock.count) ∧
          (∀ y, b'.time y = (b.book s.clock.count).time y) ∧
          s.CreditedDown t (r.contributorsAt s.clock.count) ∧
          b'.counts.micro = b.counts.micro) ∧
        ((s.line n).slot = none → t.journal = s.journal ∧ t.stations = s.stations ∧
          b'.counts.micro = b.counts.micro ∧ ∀ y, b'.time y = (b.book s.clock.count).time y) ∧
        (∀ m, m ≠ n → t.line m = s.line m) ∧ s.SameButLines t ∧ t.queue = s.queue ∧
        t.link = { s.link with
          serving := .serving
          reply := some ⟨0xC4, line :: ([cause, c.code] ++ stamp s.hall ++
            optional (field 4) limit ++ field 4 0 ++ [0] ++ (s.line n).slotOutcome)⟩ })

/-- PLAN-END (R87) ends the plan and evaluates the line: the plan's segment is booked, and the bank
books from now in the bucket of the state entered (R119, R123, R131); PLAN-OVERRUN (R86, R123) sets
the overrun flag and books O from there. -/
def Obligations.PlansOverrunAndEnd : Prop :=
  ∀ (s : State) (n : LineId),
    (∀ line : Byte, s.Takes .planEnd → line.toNat = n.val →
      ((s.line n).state ≠ .planned → exec (.planEnd line) s =
        .next (s.owe (some ⟨0xFF, [0x45, 0x0B, (s.line n).state.code]⟩))) ∧
      (∀ p, (s.line n).state = .planned → (s.line n).plan = some p →
        ∃ t, exec (.planEnd line) s = .next t ∧ (t.line n).plan = none ∧
          (t.line n).stamp = s.hall ∧
          (s.constraintState n = .running → (t.line n).state = .running) ∧
          (s.constraintState n = .unmonitored → (t.line n).state = .resuming) ∧
          (s.constraintState n ≠ .running → s.constraintState n ≠ .unmonitored →
            (t.line n).state = (if (s.lineDef n).threshold = 0 then .down else .pendingStop) ∧
            ∃ r, (t.line n).slot = some r ∧ r.startCount = s.clock.count ∧
              r.contributors = [⟨(s.walk n).1, (s.walk n).2,
                contributorCategory s.settings (s.walk n).2, 0⟩]) ∧
          (∀ b, (s.line n).bank = some b → ∃ b', (t.line n).bank = some b' ∧
            b'.segStart = s.clock.count ∧ (∀ k, b'.time k = (b.book s.clock.count).time k) ∧
            b'.counts.t = b.counts.t ∧ b'.counts.j = b.counts.j ∧ b'.counts.c = b.counts.c ∧
            b'.counts.stray = b.counts.stray ∧ b'.counts.micro = b.counts.micro ∧
            ((t.line n).state = .running →
              b'.booking = .u ∧ b'.runStart = some s.clock.count) ∧
            ((t.line n).state = .resuming → b'.booking = .x ∧ b'.runStart = none) ∧
            ((t.line n).state = .pendingStop → b'.booking = .n ∧ b'.runStart = none) ∧
            ((t.line n).state = .down → b'.runStart = none ∧
              b'.booking = .cat (contributorCategory s.settings (s.walk n).2) ∧
              b'.counts.stoppage = min (b.counts.stoppage + 1) 4294967295)) ∧
          (∀ m, m ≠ n → t.line m = s.line m) ∧
          t = { s with lines := t.lines, link := t.link } ∧
          t.link = { s.link with
            serving := .serving
            reply := some ⟨0xC5, line ::
              (p.bytes s.clock.count ++ [(t.line n).state.code])⟩ })) ∧
    (∀ p b limit, s.power.running = true → (s.line n).state = .planned →
      (s.line n).plan = some p → (s.line n).bank = some b → p.overrun = false →
      p.expected = some limit →
      (p.elapsedAt s.clock.count < limit * 100 → exec (.planOverrun n) s = .next s) ∧
      (limit * 100 ≤ p.elapsedAt s.clock.count →
        exec (.planOverrun n) s = .next (s.modLine n fun l => { l with
          plan := some { p with overrun := true }
          bank := some (b.switch s.clock.count .o) })))

/-! ### The journal -/

/-- A record that closes enters the journal last, in the state R97 gives it, with its contributors
as of the close, and their durations are credited to their stations (R63); a full journal drops its
oldest record, counts it lost and latches JOURNAL-OVERFLOW (R83, R84, R98, R99). -/
def Obligations.ClosedRecordsEnterTheJournal : Prop :=
  ∀ (s : State) (n : LineId) (r : Stoppage) (m t deadline : Nat) (kind : CloseKind),
    (s.line n).slot = some r → r.kind = .record m → deadline = (s.lineDef n).deadline * 100 →
    ∃ j, (s.closeRecord n kind t).journal =
        (if s.journal.length < 192 then s.journal else s.journal.tail) ++ [j] ∧
      j.line = n ∧ j.serial = r.serial ∧ j.number = m ∧ j.startStamp = r.startStamp ∧
      j.duration = t - r.startCount ∧ j.entryState = r.entryState ∧
      j.operatorCause = r.operatorCause ∧ j.markers = kind.mark r.markers ∧
      j.contributors = r.contributorsAt t ∧
      s.CreditedDown (s.closeRecord n kind t) (r.contributorsAt t) ∧
      (r.operatorCause ≠ none → j.state = .confirmed) ∧
      (r.operatorCause = none → (kind = .shiftEnd ∨ deadline = 0) → j.state = .lapsed) ∧
      (r.operatorCause = none → kind = .outage → t + deadline ≤ s.clock.count →
        j.state = .lapsed) ∧
      (r.operatorCause = none → deadline ≠ 0 → (kind = .returned ∨ kind = .plan ∨
          kind = .outage ∧ s.clock.count < t + deadline) →
        j.state = .unconfirmed (t + deadline)) ∧
      (s.closeRecord n kind t).lost = (if s.journal.length < 192 then s.lost
        else min (s.lost + 1) 4294967295) ∧
      (192 ≤ s.journal.length →
        (s.closeRecord n kind t).latched .journalOverflow = true) ∧
      ((s.closeRecord n kind t).line n).slot = none ∧
      (∀ l, l ≠ n → (s.closeRecord n kind t).line l = s.line l) ∧
      (s.closeRecord n kind t).settings = s.settings

/-- CLASSIFY (R104 to R107): the refusals in their order; a journal record is confirmed and its
first contributor's time moved; an open record takes the cause and stays open, its first
contributor's time so far moves between the buckets, and the line books in the new category while
that contributor is the last one (R108, R122). -/
def Obligations.RecordsAreClassified : Prop :=
  ∀ (s : State) (key : Key) (n : LineId) (cause : Byte), s.Takes .classify →
    key.line.toNat = n.val →
    ((s.line n).state = .pendingStop → key.serial.toNat = (s.line n).serial →
      key.number.toNat = (s.line n).nextNumber → exec (.classify key cause) s =
        .next (s.owe (some ⟨0xFF, [0x47, 0x10, 0]⟩))) ∧
    (s.candidateHasKey key = false →
      (s.record? key = none → s.openHasKey key = false → exec (.classify key cause) s =
        .next (s.owe (some ⟨0xFF, [0x47, 0x0A, 0]⟩))) ∧
      ((s.record? key ≠ none ∨ s.openHasKey key = true) →
        (s.inService n = false ∨ (s.line n).serial ≠ key.serial.toNat) →
        exec (.classify key cause) s = .next (s.owe (some ⟨0xFF, [0x47, 0x0D, 0]⟩))) ∧
      (s.inService n = true → (s.line n).serial = key.serial.toNat →
        (∀ r, s.record? key = some r → r.state = .lapsed → exec (.classify key cause) s =
          .next (s.owe (some ⟨0xFF, [0x47, 0x0C, 0]⟩))) ∧
        (∀ r, s.record? key = some r → r.state ≠ .lapsed → hostEntry s.settings cause = none →
          exec (.classify key cause) s = .next (s.owe (some ⟨0xFF, [0x47, 0x0E, cause]⟩))) ∧
        (s.record? key = none → s.openHasKey key = true → hostEntry s.settings cause = none →
          exec (.classify key cause) s = .next (s.owe (some ⟨0xFF, [0x47, 0x0E, cause]⟩))) ∧
        (∀ r c scope b c1 rest, s.record? key = some r → r.state ≠ .lapsed →
          hostEntry s.settings cause = some ⟨c, scope⟩ → (s.line n).bank = some b →
          r.contributors = c1 :: rest →
          ∃ t, exec (.classify key cause) s = .next t ∧
            t.record? key = some { r with
              state := .confirmed
              operatorCause := some cause
              contributors := { c1 with category := c } :: rest } ∧
            State.SameButRecord { s with lines := t.lines } t key ∧
            (c1.category = c → t.lines = s.lines) ∧
            (c1.category ≠ c → t.lines = Tab.set s.lines n { s.line n with
              bank := some ((b.book s.clock.count).transfer (.cat c1.category) (.cat c)
                c1.duration) }) ∧
            t.link = { s.link with
              serving := .serving
              reply := some ⟨0xC7, key.bytes ++ [0x13, cause, idByte c1.station,
                c1.category.code, c.code] ++
                field 4 (if c1.category = c then 0 else c1.duration)⟩ }) ∧
        (∀ r c scope b, s.record? key = none → s.openHasKey key = true →
          (s.line n).slot = some r → hostEntry s.settings cause = some ⟨c, scope⟩ →
          (s.line n).bank = some b →
          ∃ t b', exec (.classify key cause) s = .next t ∧
            (t.line n).slot = some { r with
              operatorCause := some cause
              contributors := recategorise c r.contributors } ∧
            (t.line n).state = (s.line n).state ∧ (t.line n).bank = some b' ∧
            b'.booked = b.booked + (s.clock.count - b.segStart) ∧ b'.counts = b.counts ∧
            (∀ c1 rest amount, r.contributors = c1 :: rest →
              amount = (if rest = [] then s.clock.count - r.lastSince else c1.duration) →
              (c1.category = c → ∀ k, b'.time k = (b.book s.clock.count).time k) ∧
              (c1.category ≠ c →
                (b.book s.clock.count).Moved b' (.cat c1.category) (.cat c) amount) ∧
              ((s.line n).state = .down → (rest = [] → b'.booking = .cat c) ∧
                ∀ x, rest.getLast? = some x → b'.booking = .cat x.category) ∧
              t.link = { s.link with
                serving := .serving
                reply := some ⟨0xC7, key.bytes ++ [0x10, cause, idByte c1.station,
                  c1.category.code, c.code] ++
                  field 4 (if c1.category = c then 0 else amount)⟩ }) ∧
            (∀ m, m ≠ n → t.line m = s.line m) ∧
            t = { s with lines := t.lines, link := t.link })))

/-- HOLD-RECORD, RELEASE-RECORD and DEADLINE-EXPIRY (R100, R110, R111): the deadline of a record
freezes, runs on, and lapses it. The key of a candidate, of no record and of the open record are
refused NOT-JOURNALED, NOT-FOUND and STATE. The expiry is stated of a part that runs (for one that
does not see assumption 40). -/
def Obligations.DeadlinesAreHeldAndLapse : Prop :=
  (∀ (s : State) (key : Key) (n : LineId) (i : Instr) (kind : RequestKind)
      (code : Byte), key.line.toNat = n.val → s.Takes kind →
    (i = .holdRecord key ∧ kind = .holdRecord ∧ code = 0x48 ∨
      i = .releaseRecord key ∧ kind = .releaseRecord ∧ code = 0x49) →
    ((s.line n).state = .pendingStop → key.serial.toNat = (s.line n).serial →
      key.number.toNat = (s.line n).nextNumber →
      exec i s = .next (s.owe (some ⟨0xFF, [code, 0x10, 0]⟩))) ∧
    (s.candidateHasKey key = false → s.record? key = none →
      (s.openHasKey key = false →
        exec i s = .next (s.owe (some ⟨0xFF, [code, 0x0A, 0]⟩))) ∧
      (s.openHasKey key = true →
        exec i s = .next (s.owe (some ⟨0xFF, [code, 0x0B, 0x10]⟩))))) ∧
  ∀ (s : State) (key : Key) (n : LineId) (r : JournalRecord), key.line.toNat = n.val →
    s.record? key = some r → s.candidateHasKey key = false →
    (s.Takes .holdRecord →
      (∀ held, ((∃ e, r.state = .unconfirmed e ∧ held = e - s.clock.count) ∨
          r.state = .held held) →
        ∃ t, exec (.holdRecord key) s = .next t ∧ s.SameButRecord t key ∧
          t.record? key = some { r with state := .held held } ∧
          t.link = { s.link with
            serving := .serving
            reply := some ⟨0xC8,
              JournalRecord.bytes { r with state := .held held } s.clock.count⟩ }) ∧
      (r.state.settled = true → exec (.holdRecord key) s =
        .next (s.owe (some ⟨0xFF, [0x48, 0x0B, r.state.code]⟩)))) ∧
    (s.Takes .releaseRecord →
      (∀ held after, r.state = .held held →
        after = (if held = 0 then RecordState.lapsed
          else .unconfirmed (s.clock.count + held)) →
        ∃ t, exec (.releaseRecord key) s = .next t ∧ s.SameButRecord t key ∧
          t.record? key = some { r with state := after } ∧
          t.link = { s.link with
            serving := .serving
            reply := some ⟨0xC9,
              JournalRecord.bytes { r with state := after } s.clock.count⟩ }) ∧
      ((∀ held, r.state ≠ .held held) → exec (.releaseRecord key) s =
        .next (s.owe (some ⟨0xFF, [0x49, 0x0B, r.state.code]⟩)))) ∧
    (∀ e, s.power.running = true → r.state = .unconfirmed e →
      (s.clock.count < e → exec (.deadlineExpiry key) s = .next s) ∧
      (e ≤ s.clock.count → ∃ t, exec (.deadlineExpiry key) s = .next t ∧
        s.SameButRecord t key ∧ t.record? key = some { r with state := .lapsed } ∧
        t.link = s.link))

/-- FETCH-RECORDS (R113, R182) returns the oldest settled records, as many as asked for and as fit
into 240 bytes, and removes exactly those; the records kept stay in journal order, and four records
always fit. -/
def Obligations.FetchesTakeTheOldestSettledRecords : Prop :=
  ∀ (s : State) (count : Byte) (n : Nat), s.Takes .fetchRecords →
    n = max 1 (min 5 count.toNat) →
    ∃ taken kept body, exec (.fetchRecords count) s = .next (State.owe { s with journal := kept }
        (some ⟨0xCA, body⟩)) ∧
      body = BitVec.ofNat 8 n :: BitVec.ofNat 8 taken.length ::
        taken.flatMap (fun r => r.bytes s.clock.count) ∧
      body.length ≤ 240 ∧ taken.length ≤ n ∧ kept.Sublist s.journal ∧
      s.journal.filter (fun r => r.state.settled) =
        taken ++ kept.filter (fun r => r.state.settled) ∧
      s.journal.filter (fun r => !r.state.settled) = kept.filter (fun r => !r.state.settled) ∧
      (taken.length < n → ∀ r, (kept.filter fun r => r.state.settled).head? = some r →
        240 < body.length + (r.bytes s.clock.count).length) ∧
      ((∀ r ∈ s.journal, r.contributors.length ≤ 4) →
        min 4 (min n (s.journal.countP fun r => r.state.settled)) ≤ taken.length)

/-! ### Shifts and the archive -/

/-- BOUNDARY-REACHED (R144, R145) hands the boundary to every line, and SHIFT-LENGTH-LIMIT (R146)
closes a shift at its limit: the closed bank, its tallies, the stoppage in the slot and the next
shift are those of R147 and R148. That the DEGRADED test of a continuation takes the closed record's
latest walk result is the model's choice (assumption 24). -/
def Obligations.BoundariesAndLimitsCloseShifts : Prop :=
  ∀ s : State, s.power.running = true →
    (∀ b, s.clock.nextBoundary = some b →
      (s.hall < b → exec .boundaryReached s = .next s) ∧
      (b ≤ s.hall → ∃ t, exec .boundaryReached s = .next t ∧
        t.clock = { s.clock with
          lastBoundary := some b
          nextBoundary := if s.clock.isSet then
              firstBoundaryAfter s.settings.schedule (max s.hall b)
            else none } ∧
        (∀ n, (s.inService n = false → t.line n = s.line n) ∧
          (s.inService n = true → (s.line n).staging ≠ none →
            t.line n = { s.line n with deferred := true }) ∧
          (∀ b1, s.inService n = true → (s.line n).staging = none → (s.line n).bank = some b1 →
            (t.line n).openStamp = some s.hall ∧ .bank n ∈ t.queue ∧
            ∃ c, s.ClosedShift t n b1 c ∧ c.reason = .boundary ∧ c.deferred = false ∧
              (∀ k ∈ s.members n, s.ChargedOnlyBy n k → s.ClosedTally n c k) ∧
              ((s.line n).coherent = true → (s.line n).serial ≤ 4294967295 →
                ∃ b2, s.OpenedNext t n b2))) ∧
        (∀ k, (t.station k).state = (s.station k).state) ∧ t.settings = s.settings ∧
        t.points = s.points ∧ t.inputs = s.inputs ∧ t.archive = s.archive ∧ t.link = s.link ∧
        t.power = s.power)) ∧
    (∀ n b, (s.line n).bank = some b → (s.line n).staging = none →
      (s.clock.count < b.openCount + 267840000 →
        exec (.shiftLengthLimit n) s = .next s) ∧
      (b.openCount + 267840000 ≤ s.clock.count →
        ∃ t c, exec (.shiftLengthLimit n) s = .next t ∧
          s.ClosedShift t n b c ∧ s.ClosedAlone t n c ∧ c.reason = .length ∧
          c.deferred = false ∧
          ((s.line n).coherent = true → (s.line n).serial ≤ 4294967295 →
            ∃ b2, s.OpenedNext t n b2) ∧
          (t.line n).openStamp = some s.hall ∧ t.queue = s.queue ++ [.bank n] ∧
          (∀ m, m ≠ n → t.line m = s.line m) ∧ s.SameButLines t ∧ t.link = s.link))

/-- ARCHIVE-WRITE-COMPLETE (R145, R150, R151): the staged bank becomes the newest of at most eight
entries, the next item is served, and a deferred boundary is taken. That the DEGRADED test of a
continuation takes the closed record's latest walk result is the model's choice (assumption 24). -/
def Obligations.ArchiveWritesComplete : Prop :=
  ∀ (s : State) (n : LineId) (rest : List WriteItem) (c : ClosedBank), s.power.main = true →
    s.power.reset = false → s.queue = .bank n :: rest → (s.line n).staging = some c →
    ∃ t, exec .archiveWriteComplete s = .next t ∧
      Tab.get t.archive n = (⟨c, crc16 c.contents⟩ :: Tab.get s.archive n).take 8 ∧
      (∀ m, m ≠ n → Tab.get t.archive m = Tab.get s.archive m) ∧
      (((s.line n).deferred = false ∨ s.power.running = false) →
        t = { s with
          archive := t.archive
          queue := rest
          settingsCopy := if rest.head? = some .settings then some s.settings else none
          lines := Tab.set s.lines n { s.line n with staging := none } }) ∧
      (∀ b, (s.line n).deferred = true → s.power.running = true → (s.line n).bank = some b →
        t.queue = rest ++ [.bank n] ∧ (t.line n).deferred = false ∧
        (∃ c', s.ClosedShift t n b c' ∧ s.ClosedAlone t n c' ∧ c'.reason = .boundary ∧
          c'.deferred = true) ∧
        ((s.line n).coherent = true → (s.line n).serial ≤ 4294967295 →
          ∃ b', s.OpenedNext t n b')) ∧
      t.settings = s.settings ∧ t.points = s.points ∧ t.inputs = s.inputs ∧
      t.clock = s.clock ∧ t.image = s.image ∧ t.link = s.link ∧ t.power = s.power

/-! ### Power and starts -/

/-- POWER-FAIL and RESET-ASSERT (R67, R93, R119, R131, R166, R167): the failure instant is fixed,
the segments end and booking passes to X, the reply owed is never sent and ATTN is released; a
further failure before the start keeps the first instant. A shift that reaches its limit at the
failure instant has closed there (R146; that the limit is taken first is read from R146 and R154,
assumption 16). That a plan stops growing at RESET too is the model's choice (assumption 32).
POWER-RETURN and RESET-RELEASE leave the part waiting for its start, with the write in progress
begun again (R153, R171). -/
def Obligations.FailuresStopTheLines : Prop :=
  ∀ s : State,
    (∀ u, s.power.main = true → s.power.reset = false → s.power.running = true →
      u = allLines.foldl (fun u n => u.takeLimit n) s →
      s.SameButLines u ∧ u.link = s.link ∧
      (∀ n, exec (.shiftLengthLimit n) s = .next (s.takeLimit n)) ∧
      ((∀ n b, (s.line n).bank = some b → s.clock.count < b.openCount + 267840000) → u = s) ∧
      (∀ n b, (s.line n).bank = some b → s.clock.count < b.openCount + 267840000 →
        u.line n = s.line n) ∧
      (∀ n b, (s.line n).bank = some b → (s.line n).staging = none →
        b.openCount + 267840000 ≤ s.clock.count → .bank n ∈ u.queue ∧
        (u.line n).openStamp = some s.hall ∧ ∃ c, (u.line n).staging = some c ∧
          c.serial = (s.line n).serial ∧ c.reason = .length ∧ c.closeStamp = s.hall) ∧
      ∃ t, exec .powerFail s = .next t ∧
        exec .resetAssert s = .next { t with
          power := { s.power with
            reset := true, running := false, failure := some s.clock.count } } ∧
        t.power = { s.power with
          main := false, running := false, failure := some s.clock.count, powerLost := true } ∧
        t.attn = false ∧ t.dir = false ∧
        t.link = { s.link with receiver := .hunt, serving := .ready, reply := none } ∧
        (∀ n, (t.line n).state = (u.line n).state ∧ (t.line n).slot = (u.line n).slot ∧
          (∀ b, (u.line n).bank = some b → ∃ b', (t.line n).bank = some b' ∧
            b'.booking = .x ∧ b'.runStart = none ∧ b'.segStart = s.clock.count ∧
            b'.booked = b.booked + (s.clock.count - b.segStart) ∧
            b.RunCredited b' (s.lineDef n).rate s.clock.count ∧
            (∀ y, b'.time y = (b.book s.clock.count).time y) ∧
            b'.counts = { b.counts with
              ideal := b'.counts.ideal, remainder := b'.counts.remainder }) ∧
          (∀ p, (u.line n).plan = some p → (t.line n).plan = some
            { p with elapsed := p.elapsedAt s.clock.count, since := none })) ∧
        (∀ k, (t.station k).state = (s.station k).state ∧
          (t.station k).tally = (u.station k).tallyAt s.clock.count) ∧
        t = { u with lines := t.lines, stations := t.stations, link := t.link, power := t.power }) ∧
    (s.power.running = false →
      (s.power.main = true → exec .powerFail s = .next { s with
        power := { s.power with main := false, powerLost := true } }) ∧
      (s.power.reset = false → exec .resetAssert s = .next { s with
        power := { s.power with reset := true } }) ∧
      (s.power.main = false → s.power.reset = false → exec .powerReturn s = .next { s with
        power := { s.power with main := true }
        settingsCopy := if s.queue.head? = some .settings then some s.settings else none }) ∧
      (s.power.main = true → s.power.reset = true → exec .resetRelease s = .next { s with
        power := { s.power with reset := false }
        settingsCopy := if s.queue.head? = some .settings then some s.settings else none }))

/-- WARM-START (R17, R36, R67, R93, R94, R153, R164, R167, R176): with the write queue empty the
part runs again; the lines in service are RESUMING until their constraints leave UNMONITORED, at
once where they are forced (R94); records in the slots have closed at the failure instant (R93),
candidates have ended there as micro-stops, with N in M and the stations credited (R75, R121, R63),
deadlines that passed have lapsed (R102), the closes that fell in the outage are made as the table
of R154 says, and the next boundary is formed afresh (R144). That a shift at its limit at the
failure instant has closed there is read from R146 (assumption 16); that a shift opened there by a
deferral alone stays open though it passes its own limit in the outage is the model's choice
(assumption 39); that a frame begins at a start is read from R19 (assumption 35). -/
def Obligations.WarmStartsResumeTheLines : Prop :=
  ∀ (s : State) (f : Nat), s.power.main = true → s.power.reset = false →
    s.power.running = false → s.power.failure = some f → s.Coherent →
    (s.queue ≠ [] → exec .warmStart s = .next s) ∧
    (s.queue = [] → ∃ t, exec .warmStart s = .next t ∧
      t.power = { s.power with running := true, failure := none, powerLost := false } ∧
      t.latched .outage = true ∧
      t.guardMode = (if s.power.powerLost then
          (match s.settings.storedGuard with
            | .opened => .opened
            | .keyed => .keyed)
        else s.guardMode) ∧
      t.link = { s.link with
        receiver := .hunt
        serving := .ready
        reply := none
        address := if s.pins.straps = 0 then 1 else s.pins.straps.setWidth 8 } ∧
      (∀ p, (t.point p).accepted = .unsettled ∧ (t.point p).run = 0 ∧
        (t.point p).activity = 0 ∧ (t.point p).noisy = false) ∧
      (∀ i, (t.input i).accepted = .unsettled ∧ (t.input i).raw = (s.input i).raw ∧
        (t.input i).windows = []) ∧
      (∀ k, (t.station k).state = t.derivedState k ∧ (t.station k).memory = none ∧
        (t.station k).reported = none ∧ (t.station k).armed = none) ∧
      (∀ n, ((s.line n).state = .outOfService → t.line n = s.line n) ∧
        ((s.line n).state = .planned → (t.line n).state = .planned ∧
          ∀ p, (s.line n).plan = some p →
            (t.line n).plan = some { p with since := some s.clock.count }) ∧
        ((s.line n).state ≠ .outOfService → (s.line n).state ≠ .planned →
          (t.constraintState n = .unmonitored → (t.line n).state = .resuming) ∧
          (t.constraintState n = .running →
            (t.line n).state = .running ∧ (t.line n).stamp = s.hall) ∧
          (t.constraintState n ≠ .unmonitored → t.constraintState n ≠ .running →
            (t.line n).state = (if (s.lineDef n).threshold = 0 then .down else .pendingStop) ∧
            ∃ r, (t.line n).slot = some r ∧ r.startCount = s.clock.count))) ∧
      (∀ n r m, (s.line n).state = .down → (s.line n).slot = some r → r.kind = .record m →
        ∃ j ∈ t.journal, j.line = n ∧ j.serial = r.serial ∧ j.number = m ∧
          j.duration = f - r.startCount ∧ j.contributors = r.contributorsAt f ∧
          j.markers = { r.markers with outage := true }) ∧
      (∀ r ∈ t.journal, ∀ e, r.state = .unconfirmed e → s.clock.count < e) ∧
      (∀ (n : LineId) (b : Bank) (instants : List Nat) (m limit first last : Nat),
        f ≤ s.clock.count → s.settings.Sound → (s.line n).bank = some b → instants.Pairwise (· < ·) →
        (∀ x, x ∈ instants ↔ s.clock.isSet = true ∧ s.hallAt f < x ∧ x ≤ s.hall ∧
          (∀ taken, s.clock.lastBoundary = some taken → taken < x) ∧
          x % 8640000 ∈ s.settings.schedule) →
        m = instants.length + (if (s.line n).deferred then 1 else 0) →
        limit = b.openCount + 267840000 →
        first = (if (s.line n).deferred then f
          else f + (instants.head?.getD 0 - s.hallAt f)) →
        last = f + (instants.getLast?.getD (s.hallAt f) - s.hallAt f) →
        (m = 0 → ¬ (f < limit ∧ limit ≤ s.clock.count) →
          (t.line n).serial = (s.line n).serial ∧
          (t.line n).openStamp = (s.line n).openStamp ∧
          (t.line n).staging = (s.line n).staging ∧
          ∃ b', (t.line n).bank = some b' ∧ b'.openCount = b.openCount ∧
            (b.booking = .x → b.segStart = f →
              timeOf (t.bankView n b' s.clock.count).times .x = b.time .x + (s.clock.count - f) ∧
              ∀ r, (s.line n).slot = some r → b.EndedInOutage r b'.time b'.counts.micro)) ∧
        (∀ r k y, (s.line n).slot = some r → k ∈ s.members n → s.ChargedOnlyBy n k →
          (s.station k).tally = some y →
          (m = 0 → ¬ (f < limit ∧ limit ≤ s.clock.count) →
            ∃ z, (t.station k).tally = some z ∧ y.Charged z r k (r.contributorsAt f)) ∧
          ((m ≠ 0 ∨ f < limit ∧ limit ≤ s.clock.count) →
            ∃ c z, (t.line n).staging = some c ∧ c.tallyOf k = some z ∧
              y.Charged z r k (r.contributorsAt f))) ∧
        (∀ r c, (s.line n).slot = some r → b.booking = .x → b.segStart = f →
          (m ≠ 0 ∨ f < limit ∧ limit ≤ s.clock.count) → (t.line n).staging = some c →
          b.EndedInOutage r (timeOf c.view.times) c.view.counts.micro) ∧
        (m = 0 → f < limit → limit ≤ s.clock.count →
          s.TurnedInOutage t f n b .length false limit s.clock.count 1) ∧
        (m ≠ 0 → ¬ (f < limit ∧ limit < first) →
          s.TurnedInOutage t f n b .outageBoundary (s.line n).deferred first last m) ∧
        (m ≠ 0 → f < limit → limit < first →
          s.TurnedInOutage t f n b .length false limit last m) ∧
        (1 < m → t.latched .boundarySkipped = true) ∧
        t.clock.lastBoundary =
          (if instants = [] then s.clock.lastBoundary else instants.getLast?)) ∧
      t.clock.nextBoundary = (if s.clock.isSet then
          firstBoundaryAfter s.settings.schedule (max s.hall (t.clock.lastBoundary.getD 0))
        else none) ∧
      t.settings = s.settings ∧ t.installed = s.settings.slots ∧ t.awaitsFrame = false ∧
      t.archive = s.archive ∧
      t.image = s.image ∧ t.pins = s.pins ∧ t.clock.count = s.clock.count ∧
      t.clock.offset = s.clock.offset)

/-- COLD-START (R17, R36, R67, R92, R116, R138, R151, R155, R164, R167, R172, R176): everything but
the archive, the image and the pins begins afresh, with the settings of a good image; a write cut
off damages the entry or the image it was over; each shift serial is that of the first undamaged
entry of its line, newest first, and a damaged one passed over latches ARCHIVE-DAMAGED; CLOCK-LOST
is latched. A bank write cut off over the oldest of eight entries leaves a place of the same depth
whose check disagrees (R151), and a settings write cut off leaves part of the new copy and part of the
old with a check that disagrees (R171). What those contents and checks are else is left free, and that
the image is mixed item by item is the model's choice (assumption 25). That a frame begins at a start
is read from R19 (assumption 35). -/
def Obligations.ColdStartsBeginAfresh : Prop :=
  ∀ s : State, s.power.main = false → s.power.reset = false →
    ∃ t, exec .coldStart s = .next t ∧
      t.clock.count = 0 ∧ t.clock.offset = 0 ∧ t.clock.isSet = false ∧
      t.clock.lastBoundary = none ∧ t.clock.nextBoundary = none ∧ t.journal = [] ∧ t.lost = 0 ∧
      t.queue = [] ∧ t.latched .clockLost = true ∧ t.latched .outage = false ∧
      t.power = ⟨true, false, true, none, false⟩ ∧ t.pins = s.pins ∧
      t.guardMode = t.settings.storedGuard.mode ∧ t.installed = t.settings.slots ∧
      t.awaitsFrame = false ∧ (∀ p, (t.point p).accepted = .unsettled) ∧
      (∀ i, (t.input i).accepted = .unsettled ∧ (t.input i).raw = 0) ∧
      (∀ k, (t.station k).state = t.derivedState k ∧ (t.station k).tally = none ∧
        (t.station k).memory = none) ∧
      (∀ n, (t.line n).state = .outOfService ∧ (t.line n).stamp = 0 ∧ (t.line n).slot = none ∧
        (t.line n).bank = none ∧ (t.line n).staging = none) ∧
      t.link.receiver = .hunt ∧ t.link.serving = .ready ∧ t.link.reply = none ∧ t.dir = false ∧
      t.link.address = (if s.pins.straps = 0 then 1 else s.pins.straps.setWidth 8) ∧
      ((∀ n rest, s.queue ≠ .bank n :: rest) → t.archive = s.archive) ∧
      (∀ n rest, s.queue = .bank n :: rest →
        (∀ m, m ≠ n → Tab.get t.archive m = Tab.get s.archive m) ∧
        ((Tab.get s.archive n).length < 8 → t.archive = s.archive) ∧
        (∀ es e, Tab.get s.archive n = es ++ [e] → 7 ≤ es.length →
          ∃ x, Tab.get t.archive n = es ++ [x] ∧ x.check ≠ crc16 x.bank.contents)) ∧
      (∀ n passed e rest, Tab.get t.archive n = passed ++ e :: rest →
        (∀ x ∈ passed, x.check ≠ crc16 x.bank.contents) → e.check = crc16 e.bank.contents →
        (t.line n).serial = e.bank.serial) ∧
      (∀ n, (∀ x ∈ Tab.get t.archive n, x.check ≠ crc16 x.bank.contents) →
        (t.line n).serial = 0) ∧
      (t.latched .archiveDamaged = true ↔ ∃ n e rest, Tab.get t.archive n = e :: rest ∧
        e.check ≠ crc16 e.bank.contents) ∧
      (t.latched .settingsDamaged = true ↔ t.imageStatus = .damaged) ∧
      (∀ rest, s.queue = .settings :: rest →
        t.imageStatus = .damaged ∧ t.settings = Settings.default ∧
        ∃ g check, t.image = some ⟨g, check⟩ ∧ check ≠ crc16 (Config.imageLayout g) ∧
          ∀ new old, new = s.settingsCopy.getD s.settings → s.image = some old →
            g.PartOf new old.contents) ∧
      ((∀ rest, s.queue ≠ .settings :: rest) → t.image = s.image ∧
        (s.image = none → t.imageStatus = .blank ∧ t.settings = Settings.default) ∧
        (∀ g, s.image = some ⟨g, crc16 (Config.imageLayout g)⟩ →
          t.imageStatus = .good ∧ t.settings = g) ∧
        (∀ g check, s.image = some ⟨g, check⟩ → check ≠ crc16 (Config.imageLayout g) →
          t.imageStatus = .damaged ∧ t.settings = Settings.default))
end

