-- ==== Sys2Proof/Laws/Tables.lean ====
section
/-! SUPPORT. The tables of a fixed number of records: what a read after a write gives, and the same
for the records of lines, stations, points and inputs. -/

namespace Sys2Proof.Machine

/-! ### Tables -/

@[simp] theorem Tab.get_set_same {α : Type} {n : Nat} (v : Vector α n) (i : Fin n) (x : α) :
    Tab.get (Tab.set v i x) i = x := by
  simp [Tab.get, Tab.set]

theorem Tab.get_set_ne {α : Type} {n : Nat} (v : Vector α n) {i j : Fin n} (h : j ≠ i) (x : α) :
    Tab.get (Tab.set v i x) j = Tab.get v j := by
  have : i.val ≠ j.val := fun e => h (Fin.ext e.symm)
  simp [Tab.get, Tab.set, this]

@[simp] theorem Tab.get_modify_same {α : Type} {n : Nat} (v : Vector α n) (i : Fin n)
    (f : α → α) : Tab.get (Tab.modify v i f) i = f (Tab.get v i) := by
  simp [Tab.modify]

theorem Tab.get_modify_ne {α : Type} {n : Nat} (v : Vector α n) {i j : Fin n} (h : j ≠ i)
    (f : α → α) : Tab.get (Tab.modify v i f) j = Tab.get v j :=
  Tab.get_set_ne v h _

@[simp] theorem Tab.get_mapAll {α β : Type} {n : Nat} (f : Fin n → α → β) (v : Vector α n)
    (i : Fin n) : Tab.get (Tab.mapAll f v) i = f i (Tab.get v i) := by
  simp [Tab.get, Tab.mapAll]

@[simp] theorem Tab.get_replicate {α : Type} {n : Nat} (x : α) (i : Fin n) :
    Tab.get (Vector.replicate n x) i = x := by
  simp [Tab.get]

/-- Two tables with the same records are the same. -/
theorem Tab.ext {α : Type} {n : Nat} {v w : Vector α n} (h : ∀ i, Tab.get v i = Tab.get w i) :
    v = w := by
  ext i hi
  exact h ⟨i, hi⟩

/-- A table without the record of `i` does not depend on it. -/
@[simp] theorem Tab.set_set {α : Type} {n : Nat} (v : Vector α n) (i : Fin n) (x y : α) :
    Tab.set (Tab.set v i x) i y = Tab.set v i y := by
  apply Tab.ext
  intro j
  by_cases h : j = i
  · subst h; simp
  · simp [Tab.get_set_ne _ h]

@[simp] theorem Tab.set_get {α : Type} {n : Nat} (v : Vector α n) (i : Fin n) :
    Tab.set v i (Tab.get v i) = v := by
  apply Tab.ext
  intro j
  by_cases h : j = i
  · subst h; simp
  · simp [Tab.get_set_ne _ h]

/-- Two changes of one record are one change. -/
@[simp] theorem Tab.modify_modify {α : Type} {n : Nat} (v : Vector α n) (i : Fin n)
    (f g : α → α) : Tab.modify (Tab.modify v i f) i g = Tab.modify v i (fun x => g (f x)) := by
  simp [Tab.modify]

/-! ### Records of the state -/

@[simp] theorem State.line_modLine_same (s : State) (n : LineId) (f : LineLive → LineLive) :
    (s.modLine n f).line n = f (s.line n) := by
  simp [State.line, State.modLine]

theorem State.line_modLine_ne (s : State) {n m : LineId} (h : m ≠ n)
    (f : LineLive → LineLive) : (s.modLine n f).line m = s.line m := by
  simp [State.line, State.modLine, Tab.get_modify_ne _ h]

@[simp] theorem State.station_modStation_same (s : State) (k : StationId)
    (f : StationLive → StationLive) : (s.modStation k f).station k = f (s.station k) := by
  simp [State.station, State.modStation]

theorem State.station_modStation_ne (s : State) {k m : StationId} (h : m ≠ k)
    (f : StationLive → StationLive) : (s.modStation k f).station m = s.station m := by
  simp [State.station, State.modStation, Tab.get_modify_ne _ h]

@[simp] theorem State.point_modPoint_same (s : State) (p : PointId) (f : PointAcq → PointAcq) :
    (s.modPoint p f).point p = f (s.point p) := by
  simp [State.point, State.modPoint]

theorem State.point_modPoint_ne (s : State) {p q : PointId} (h : q ≠ p)
    (f : PointAcq → PointAcq) : (s.modPoint p f).point q = s.point q := by
  simp [State.point, State.modPoint, Tab.get_modify_ne _ h]

@[simp] theorem State.input_modInput_same (s : State) (i : InputId) (f : InputAcq → InputAcq) :
    (s.modInput i f).input i = f (s.input i) := by
  simp [State.input, State.modInput]

theorem State.input_modInput_ne (s : State) {i j : InputId} (h : j ≠ i)
    (f : InputAcq → InputAcq) : (s.modInput i f).input j = s.input j := by
  simp [State.input, State.modInput, Tab.get_modify_ne _ h]

@[simp] theorem State.lineDef_modLineDef_same (s : State) (n : LineId)
    (f : LineSettings → LineSettings) : (s.modLineDef n f).lineDef n = f (s.lineDef n) := by
  simp [State.lineDef, State.modLineDef, State.modSettings]

theorem State.lineDef_modLineDef_ne (s : State) {n m : LineId} (h : m ≠ n)
    (f : LineSettings → LineSettings) : (s.modLineDef n f).lineDef m = s.lineDef m := by
  simp [State.lineDef, State.modLineDef, State.modSettings, Tab.get_modify_ne _ h]

@[simp] theorem State.modLine_modLine (s : State) (n : LineId) (f g : LineLive → LineLive) :
    (s.modLine n f).modLine n g = s.modLine n fun l => g (f l) := by
  simp [State.modLine]

@[simp] theorem State.modStation_modStation (s : State) (k : StationId)
    (f g : StationLive → StationLive) :
    (s.modStation k f).modStation k g = s.modStation k fun v => g (f v) := by
  simp [State.modStation]

@[simp] theorem State.modInput_modInput (s : State) (i : InputId) (f g : InputAcq → InputAcq) :
    (s.modInput i f).modInput i g = s.modInput i fun a => g (f a) := by
  simp [State.modInput]

/-- A change of a line's record depends on that record alone. -/
theorem State.modLine_congr (s : State) (n : LineId) {f g : LineLive → LineLive}
    (h : f (s.line n) = g (s.line n)) : s.modLine n f = s.modLine n g := by
  simp only [State.modLine, Tab.modify]
  rw [show f (Tab.get s.lines n) = g (Tab.get s.lines n) from h]

end Sys2Proof.Machine
end

