-- ==== Sys2Proof/Laws/Bank.lean ====
section
/-! SUPPORT. The books of a bank: what booking, moving and crediting do to the sum of the buckets and
to the account of the shift (R118 to R122, R131). -/

namespace Sys2Proof.Machine

/-- Replacing an entry of a list changes its sum by the difference. -/
theorem sum_set (l : List Nat) (i x : Nat) (h : i < l.length) :
    (l.set i x).sum + l[i] = l.sum + x := by
  induction l generalizing i with
  | nil => simp at h
  | cons a l ih =>
    cases i with
    | zero => simp; omega
    | succ i =>
      have := ih i (by simpa using h)
      simp only [List.set_cons_succ, List.sum_cons, List.getElem_cons_succ]
      omega

/-- The sum of a table after one entry is replaced. -/
theorem Tab.sum_set {n : Nat} (v : Vector Nat n) (i : Fin n) (x : Nat) :
    (Tab.set v i x).toList.sum + Tab.get v i = v.toList.sum + x := by
  have h : i.val < v.toList.length := by simp
  have := Machine.sum_set v.toList i.val x h
  simpa [Tab.set, Tab.get, Vector.toList_set] using this

/-- The sum of a table after one entry grows. -/
theorem Tab.sum_add {n : Nat} (v : Vector Nat n) (i : Fin n) (e : Nat) :
    (Tab.modify v i (· + e)).toList.sum = v.toList.sum + e := by
  have := Tab.sum_set v i (Tab.get v i + e)
  simp only [Tab.modify]
  omega

/-- The sum of a table after one entry shrinks by no more than it holds. -/
theorem Tab.sum_sub {n : Nat} (v : Vector Nat n) (i : Fin n) (e : Nat) (h : e ≤ Tab.get v i) :
    (Tab.modify v i (· - e)).toList.sum + e = v.toList.sum := by
  have := Tab.sum_set v i (Tab.get v i - e)
  simp only [Tab.modify]
  omega

/-! ### Booked time -/

@[simp] theorem Bank.booked_book (b : Bank) (t : Nat) :
    (b.book t).booked = b.booked + (t - b.segStart) := by
  simp only [Bank.booked, Bank.book, Tab.sum_add]

@[simp] theorem Bank.booked_switch (b : Bank) (t : Nat) (k : Bucket) :
    (b.switch t k).booked = b.booked + (t - b.segStart) :=
  b.booked_book t

/-- A move between buckets moves no time out of the bank. -/
@[simp] theorem Bank.booked_transfer (b : Bank) (source target : Bucket) (amount : Nat) :
    (b.transfer source target amount).booked = b.booked := by
  have h := Tab.sum_sub b.times source.index (min amount (b.time source)) (Nat.min_le_right _ _)
  simp only [Bank.booked, Bank.transfer, Tab.sum_add]
  exact h

@[simp] theorem Bank.booked_modCounts (b : Bank) (f : Counts → Counts) :
    (b.modCounts f).booked = b.booked := rfl

@[simp] theorem Bank.times_credit (b : Bank) (t rate : Nat) : (b.credit t rate).times = b.times := by
  unfold Bank.credit; split <;> rfl

@[simp] theorem Bank.booked_credit (b : Bank) (t rate : Nat) :
    (b.credit t rate).booked = b.booked := by
  simp [Bank.booked]

@[simp] theorem Bank.segStart_credit (b : Bank) (t rate : Nat) :
    (b.credit t rate).segStart = b.segStart := by
  unfold Bank.credit; split <;> rfl

@[simp] theorem Bank.openCount_credit (b : Bank) (t rate : Nat) :
    (b.credit t rate).openCount = b.openCount := by
  unfold Bank.credit; split <;> rfl

@[simp] theorem Bank.booking_credit (b : Bank) (t rate : Nat) :
    (b.credit t rate).booking = b.booking := by
  unfold Bank.credit; split <;> rfl

@[simp] theorem Bank.runStart_credit (b : Bank) (t rate : Nat) :
    (b.credit t rate).runStart = none := by
  unfold Bank.credit
  split
  · assumption
  · rfl

@[simp] theorem Bank.segStart_book (b : Bank) (t : Nat) : (b.book t).segStart = t := rfl

@[simp] theorem Bank.openCount_book (b : Bank) (t : Nat) : (b.book t).openCount = b.openCount := rfl

@[simp] theorem Bank.counts_book (b : Bank) (t : Nat) : (b.book t).counts = b.counts := rfl

@[simp] theorem Bank.segStart_switch (b : Bank) (t : Nat) (k : Bucket) :
    (b.switch t k).segStart = t := rfl

@[simp] theorem Bank.openCount_switch (b : Bank) (t : Nat) (k : Bucket) :
    (b.switch t k).openCount = b.openCount := rfl

@[simp] theorem Bank.counts_switch (b : Bank) (t : Nat) (k : Bucket) :
    (b.switch t k).counts = b.counts := rfl

@[simp] theorem Bank.booking_switch (b : Bank) (t : Nat) (k : Bucket) :
    (b.switch t k).booking = k := rfl

@[simp] theorem Bank.segStart_transfer (b : Bank) (source target : Bucket) (amount : Nat) :
    (b.transfer source target amount).segStart = b.segStart := rfl

@[simp] theorem Bank.openCount_transfer (b : Bank) (source target : Bucket) (amount : Nat) :
    (b.transfer source target amount).openCount = b.openCount := rfl

@[simp] theorem Bank.counts_transfer (b : Bank) (source target : Bucket) (amount : Nat) :
    (b.transfer source target amount).counts = b.counts := rfl

/-- Promotion moves time between buckets only (R121). -/
@[simp] theorem Bank.booked_promoteTimes (b : Bank) (cs : List Contributor) :
    (b.promoteTimes cs).booked = b.booked := by
  unfold Bank.promoteTimes
  induction cs generalizing b with
  | nil => rfl
  | cons c cs ih => exact (ih _).trans (b.booked_transfer _ _ _)

@[simp] theorem Bank.segStart_promoteTimes (b : Bank) (cs : List Contributor) :
    (b.promoteTimes cs).segStart = b.segStart := by
  unfold Bank.promoteTimes
  induction cs generalizing b with
  | nil => rfl
  | cons c cs ih => exact ih _

@[simp] theorem Bank.openCount_promoteTimes (b : Bank) (cs : List Contributor) :
    (b.promoteTimes cs).openCount = b.openCount := by
  unfold Bank.promoteTimes
  induction cs generalizing b with
  | nil => rfl
  | cons c cs ih => exact ih _

@[simp] theorem Bank.counts_promoteTimes (b : Bank) (cs : List Contributor) :
    (b.promoteTimes cs).counts = b.counts := by
  unfold Bank.promoteTimes
  induction cs generalizing b with
  | nil => rfl
  | cons c cs ih => exact ih _

/-! ### The account -/

theorem Bank.accounted_iff (b : Bank) (t : Nat) :
    b.accounted t = true ↔
      b.openCount + b.booked = b.segStart ∧ b.segStart ≤ t ∧ b.counts.remainder < 360000 := by
  simp [Bank.accounted, and_assoc]

/-- A bank that accounts for its shift does so later as well. -/
theorem Bank.accounted_mono {b : Bank} {t u : Nat} (h : b.accounted t = true) (htu : t ≤ u) :
    b.accounted u = true := by
  rw [Bank.accounted_iff] at *
  exact ⟨h.1, by omega, h.2.2⟩

theorem Bank.accounted_book {b : Bank} {t u : Nat} (h : b.accounted t = true) (htu : t ≤ u) :
    (b.book u).accounted u = true := by
  rw [Bank.accounted_iff] at *
  simp only [Bank.booked_book, Bank.openCount_book, Bank.segStart_book, Bank.counts_book]
  omega

theorem Bank.accounted_switch {b : Bank} {t u : Nat} (h : b.accounted t = true) (htu : t ≤ u)
    (k : Bucket) : (b.switch u k).accounted u = true :=
  Bank.accounted_book h htu

theorem Bank.accounted_transfer {b : Bank} {t : Nat} (h : b.accounted t = true)
    (source target : Bucket) (amount : Nat) :
    (b.transfer source target amount).accounted t = true := by
  rw [Bank.accounted_iff] at *
  simpa using h

/-- Crediting leaves a fraction of a container in the remainder (R131). -/
theorem Bank.accounted_credit {b : Bank} {t : Nat} (h : b.accounted t = true) (u rate : Nat) :
    (b.credit u rate).accounted t = true := by
  rw [Bank.accounted_iff] at *
  refine ⟨by simpa using h.1, by simpa using h.2.1, ?_⟩
  unfold Bank.credit
  split
  · exact h.2.2
  · exact Nat.mod_lt _ (by decide)

/-- A bank just created accounts for its shift. -/
theorem Bank.accounted_create (t : Nat) (noisy degraded : Bool) (booking : Bucket) :
    (Bank.create t noisy degraded booking).accounted t = true := by
  rw [Bank.accounted_iff]
  simp [Bank.create, Bank.booked, Counts.zero]

end Sys2Proof.Machine
end

