-- ==== Sys2Proof/Laws/Calendar.lean ====
section
/-! SUPPORT. The shift calendar: how many boundary instants lie between two instants (R144, R154). -/

namespace Sys2Proof.Machine

/-- One instant later there is one boundary instant more, or none (R144). -/
theorem boundariesBy_succ {schedule : List Nat} (hv : ∀ v ∈ schedule, v < 8640000)
    (hp : schedule.Pairwise (· < ·)) (t : Nat) :
    boundariesBy schedule (t + 1) =
      boundariesBy schedule t + if (t + 1) % 8640000 ∈ schedule then 1 else 0 := by
  have hn : schedule.Nodup := hp.imp fun h => Nat.ne_of_lt h
  have hcount : ∀ x, schedule.countP (fun v => decide (v = x)) = if x ∈ schedule then 1 else 0 := by
    intro x
    have : schedule.countP (fun v => decide (v = x)) = schedule.count x := by
      unfold List.count
      congr 1
    rw [this]
    split
    · exact List.count_eq_one_of_mem hn ‹_›
    · exact List.count_eq_zero_of_not_mem ‹_›
  have eq (u : Nat) : boundariesBy schedule u = u / 8640000 * schedule.length +
      schedule.countP fun v => decide (v ≤ u % 8640000) := rfl
  rw [eq, eq]
  by_cases h : (t + 1) % 8640000 = 0
  · have h1 : (t + 1) / 8640000 = t / 8640000 + 1 := by omega
    have h2 : t % 8640000 = 8639999 := by omega
    have h3 : schedule.countP (fun v => decide (v ≤ t % 8640000)) = schedule.length := by
      rw [List.countP_eq_length]
      intro v m
      have := hv v m
      simp only [decide_eq_true_eq]
      omega
    have h4 : schedule.countP (fun v => decide (v ≤ (t + 1) % 8640000)) =
        if (t + 1) % 8640000 ∈ schedule then 1 else 0 := by
      rw [← hcount, h]
      congr 1
      funext v
      simp
    rw [h1, h3, h4, Nat.add_mul]
    omega
  · have h1 : (t + 1) / 8640000 = t / 8640000 := by omega
    have h2 : (t + 1) % 8640000 = t % 8640000 + 1 := by omega
    rw [h1, h2, ← hcount, Nat.add_assoc, Nat.add_left_cancel_iff]
    generalize t % 8640000 = r
    clear hp hn hcount hv eq
    induction schedule with
    | nil => rfl
    | cons v l ih =>
      simp only [List.countP_cons]
      rw [ih]
      have : (if decide (v ≤ r + 1) = true then 1 else 0) =
          (if decide (v ≤ r) = true then 1 else 0) + if decide (v = r + 1) = true then 1 else 0 := by
        by_cases a : v ≤ r
        · have b : v ≤ r + 1 := by omega
          have c : ¬ v = r + 1 := by omega
          simp [a, b, c]
        · by_cases c : v = r + 1
          · simp [c]
          · have b : ¬ v ≤ r + 1 := by omega
            simp [a, b, c]
      omega

/-- The boundary instants after `a`, up to `a + d`, in rising order (R144). -/
def instantsAfter (schedule : List Nat) (a d : Nat) : List Nat :=
  (List.range' (a + 1) d).filter fun x => x % 8640000 ∈ schedule

theorem instantsAfter_length {schedule : List Nat} (hv : ∀ v ∈ schedule, v < 8640000)
    (hp : schedule.Pairwise (· < ·)) (a d : Nat) :
    (instantsAfter schedule a d).length + boundariesBy schedule a =
      boundariesBy schedule (a + d) := by
  induction d with
  | zero => simp [instantsAfter]
  | succ d ih =>
    have := boundariesBy_succ hv hp (a + d)
    rw [← Nat.add_assoc, this, ← ih]
    unfold instantsAfter
    rw [List.range'_1_concat, List.filter_append, List.length_append]
    have e : a + 1 + d = a + d + 1 := by omega
    rw [e]
    by_cases m : (a + d + 1) % 8640000 ∈ schedule <;> simp [m, Nat.add_comm, Nat.add_left_comm]

/-- A rising list of the boundary instants after `a`, up to `b`, is as long as the counts of the two
differ (R144, R154). -/
theorem boundariesBy_between {schedule : List Nat} (hv : ∀ v ∈ schedule, v < 8640000)
    (hp : schedule.Pairwise (· < ·)) {a b : Nat} (hab : a ≤ b) {instants : List Nat}
    (hi : instants.Pairwise (· < ·))
    (hm : ∀ x, x ∈ instants ↔ a < x ∧ x ≤ b ∧ x % 8640000 ∈ schedule) :
    instants.length = boundariesBy schedule b - boundariesBy schedule a := by
  have h : instants = instantsAfter schedule a (b - a) := by
    have hs : (instantsAfter schedule a (b - a)).Pairwise (· < ·) :=
      (List.pairwise_lt_range' (s := a + 1) (n := b - a)).filter _
    apply List.Perm.eq_of_pairwise' (r := (· ≤ ·)) (hi.imp Nat.le_of_lt) (hs.imp Nat.le_of_lt)
    rw [List.perm_ext_iff_of_nodup (hi.imp fun h => Nat.ne_of_lt h) (hs.imp fun h => Nat.ne_of_lt h)]
    intro x
    rw [hm]
    unfold instantsAfter
    simp only [List.mem_filter, List.mem_range'_1, decide_eq_true_eq]
    exact ⟨fun h => ⟨by omega, h.2.2⟩, fun h => ⟨by omega, by omega, h.2⟩⟩
  have := instantsAfter_length hv hp a (b - a)
  rw [h]
  have e : a + (b - a) = b := by omega
  rw [e] at this
  omega

end Sys2Proof.Machine
end

