-- ==== Sys2Proof/Laws/Readings.lean ====
section
/-! SUPPORT. What the readings of the state give after an update that does not touch what they read;
each true by rfl. -/

namespace Sys2Proof.Machine

/-! ### modLine -/

section

variable (s : State) (n : LineId) (f : LineLive → LineLive)

@[simp] theorem State.station_modLine (m : StationId) :
    (s.modLine n f).station m = s.station m := rfl
@[simp] theorem State.point_modLine (m : PointId) : (s.modLine n f).point m = s.point m := rfl
@[simp] theorem State.input_modLine (m : InputId) : (s.modLine n f).input m = s.input m := rfl
@[simp] theorem State.lineDef_modLine (m : LineId) : (s.modLine n f).lineDef m = s.lineDef m := rfl
@[simp] theorem State.stationDef_modLine (m : StationId) :
    (s.modLine n f).stationDef m = s.stationDef m := rfl
@[simp] theorem State.pointDef_modLine (m : PointId) :
    (s.modLine n f).pointDef m = s.pointDef m := rfl
@[simp] theorem State.inputDef_modLine (m : InputId) :
    (s.modLine n f).inputDef m = s.inputDef m := rfl
@[simp] theorem State.now_modLine : (s.modLine n f).now = s.now := rfl
@[simp] theorem State.hall_modLine : (s.modLine n f).hall = s.hall := rfl
@[simp] theorem State.hallAt_modLine (t : Nat) : (s.modLine n f).hallAt t = s.hallAt t := rfl
@[simp] theorem State.members_modLine (m : LineId) : (s.modLine n f).members m = s.members m := rfl
@[simp] theorem State.roleOf_modLine (m : InputId) : (s.modLine n f).roleOf m = s.roleOf m := rfl
@[simp] theorem State.rate_modLine (m : LineId) : (s.modLine n f).rate m = s.rate m := rfl
@[simp] theorem State.constraintState_modLine (m : LineId) :
    (s.modLine n f).constraintState m = s.constraintState m := rfl
@[simp] theorem State.constraintDegraded_modLine (m : LineId) :
    (s.modLine n f).constraintDegraded m = s.constraintDegraded m := rfl

end

/-! ### modStation -/

section

variable (s : State) (k : StationId) (f : StationLive → StationLive)

@[simp] theorem State.line_modStation (m : LineId) : (s.modStation k f).line m = s.line m := rfl
@[simp] theorem State.point_modStation (m : PointId) : (s.modStation k f).point m = s.point m := rfl
@[simp] theorem State.input_modStation (m : InputId) : (s.modStation k f).input m = s.input m := rfl
@[simp] theorem State.lineDef_modStation (m : LineId) :
    (s.modStation k f).lineDef m = s.lineDef m := rfl
@[simp] theorem State.stationDef_modStation (m : StationId) :
    (s.modStation k f).stationDef m = s.stationDef m := rfl
@[simp] theorem State.pointDef_modStation (m : PointId) :
    (s.modStation k f).pointDef m = s.pointDef m := rfl
@[simp] theorem State.inputDef_modStation (m : InputId) :
    (s.modStation k f).inputDef m = s.inputDef m := rfl
@[simp] theorem State.now_modStation : (s.modStation k f).now = s.now := rfl
@[simp] theorem State.hall_modStation : (s.modStation k f).hall = s.hall := rfl
@[simp] theorem State.hallAt_modStation (t : Nat) : (s.modStation k f).hallAt t = s.hallAt t := rfl
@[simp] theorem State.members_modStation (m : LineId) :
    (s.modStation k f).members m = s.members m := rfl
@[simp] theorem State.roleOf_modStation (m : InputId) :
    (s.modStation k f).roleOf m = s.roleOf m := rfl
@[simp] theorem State.rate_modStation (m : LineId) : (s.modStation k f).rate m = s.rate m := rfl
@[simp] theorem State.inService_modStation (m : LineId) :
    (s.modStation k f).inService m = s.inService m := rfl

end

/-! ### modPoint -/

section

variable (s : State) (p : PointId) (f : PointAcq → PointAcq)

@[simp] theorem State.line_modPoint (m : LineId) : (s.modPoint p f).line m = s.line m := rfl
@[simp] theorem State.station_modPoint (m : StationId) :
    (s.modPoint p f).station m = s.station m := rfl
@[simp] theorem State.input_modPoint (m : InputId) : (s.modPoint p f).input m = s.input m := rfl
@[simp] theorem State.lineDef_modPoint (m : LineId) :
    (s.modPoint p f).lineDef m = s.lineDef m := rfl
@[simp] theorem State.stationDef_modPoint (m : StationId) :
    (s.modPoint p f).stationDef m = s.stationDef m := rfl
@[simp] theorem State.pointDef_modPoint (m : PointId) :
    (s.modPoint p f).pointDef m = s.pointDef m := rfl
@[simp] theorem State.inputDef_modPoint (m : InputId) :
    (s.modPoint p f).inputDef m = s.inputDef m := rfl
@[simp] theorem State.now_modPoint : (s.modPoint p f).now = s.now := rfl
@[simp] theorem State.hall_modPoint : (s.modPoint p f).hall = s.hall := rfl
@[simp] theorem State.hallAt_modPoint (t : Nat) : (s.modPoint p f).hallAt t = s.hallAt t := rfl
@[simp] theorem State.members_modPoint (m : LineId) :
    (s.modPoint p f).members m = s.members m := rfl
@[simp] theorem State.roleOf_modPoint (m : InputId) : (s.modPoint p f).roleOf m = s.roleOf m := rfl
@[simp] theorem State.rate_modPoint (m : LineId) : (s.modPoint p f).rate m = s.rate m := rfl
@[simp] theorem State.inService_modPoint (m : LineId) :
    (s.modPoint p f).inService m = s.inService m := rfl
@[simp] theorem State.constraintState_modPoint (m : LineId) :
    (s.modPoint p f).constraintState m = s.constraintState m := rfl
@[simp] theorem State.constraintDegraded_modPoint (m : LineId) :
    (s.modPoint p f).constraintDegraded m = s.constraintDegraded m := rfl

end

/-! ### modInput -/

section

variable (s : State) (i : InputId) (f : InputAcq → InputAcq)

@[simp] theorem State.line_modInput (m : LineId) : (s.modInput i f).line m = s.line m := rfl
@[simp] theorem State.station_modInput (m : StationId) :
    (s.modInput i f).station m = s.station m := rfl
@[simp] theorem State.point_modInput (m : PointId) : (s.modInput i f).point m = s.point m := rfl
@[simp] theorem State.lineDef_modInput (m : LineId) :
    (s.modInput i f).lineDef m = s.lineDef m := rfl
@[simp] theorem State.stationDef_modInput (m : StationId) :
    (s.modInput i f).stationDef m = s.stationDef m := rfl
@[simp] theorem State.pointDef_modInput (m : PointId) :
    (s.modInput i f).pointDef m = s.pointDef m := rfl
@[simp] theorem State.inputDef_modInput (m : InputId) :
    (s.modInput i f).inputDef m = s.inputDef m := rfl
@[simp] theorem State.now_modInput : (s.modInput i f).now = s.now := rfl
@[simp] theorem State.hall_modInput : (s.modInput i f).hall = s.hall := rfl
@[simp] theorem State.hallAt_modInput (t : Nat) : (s.modInput i f).hallAt t = s.hallAt t := rfl
@[simp] theorem State.members_modInput (m : LineId) :
    (s.modInput i f).members m = s.members m := rfl
@[simp] theorem State.roleOf_modInput (m : InputId) : (s.modInput i f).roleOf m = s.roleOf m := rfl
@[simp] theorem State.rate_modInput (m : LineId) : (s.modInput i f).rate m = s.rate m := rfl
@[simp] theorem State.inService_modInput (m : LineId) :
    (s.modInput i f).inService m = s.inService m := rfl
@[simp] theorem State.constraintState_modInput (m : LineId) :
    (s.modInput i f).constraintState m = s.constraintState m := rfl
@[simp] theorem State.constraintDegraded_modInput (m : LineId) :
    (s.modInput i f).constraintDegraded m = s.constraintDegraded m := rfl

end

/-! ### modBank -/

section

variable (s : State) (n : LineId) (f : Bank → Bank)

@[simp] theorem State.station_modBank (m : StationId) :
    (s.modBank n f).station m = s.station m := rfl
@[simp] theorem State.point_modBank (m : PointId) : (s.modBank n f).point m = s.point m := rfl
@[simp] theorem State.input_modBank (m : InputId) : (s.modBank n f).input m = s.input m := rfl
@[simp] theorem State.lineDef_modBank (m : LineId) : (s.modBank n f).lineDef m = s.lineDef m := rfl
@[simp] theorem State.stationDef_modBank (m : StationId) :
    (s.modBank n f).stationDef m = s.stationDef m := rfl
@[simp] theorem State.pointDef_modBank (m : PointId) :
    (s.modBank n f).pointDef m = s.pointDef m := rfl
@[simp] theorem State.inputDef_modBank (m : InputId) :
    (s.modBank n f).inputDef m = s.inputDef m := rfl
@[simp] theorem State.now_modBank : (s.modBank n f).now = s.now := rfl
@[simp] theorem State.hall_modBank : (s.modBank n f).hall = s.hall := rfl
@[simp] theorem State.hallAt_modBank (t : Nat) : (s.modBank n f).hallAt t = s.hallAt t := rfl
@[simp] theorem State.members_modBank (m : LineId) : (s.modBank n f).members m = s.members m := rfl
@[simp] theorem State.roleOf_modBank (m : InputId) : (s.modBank n f).roleOf m = s.roleOf m := rfl
@[simp] theorem State.rate_modBank (m : LineId) : (s.modBank n f).rate m = s.rate m := rfl
@[simp] theorem State.constraintState_modBank (m : LineId) :
    (s.modBank n f).constraintState m = s.constraintState m := rfl
@[simp] theorem State.constraintDegraded_modBank (m : LineId) :
    (s.modBank n f).constraintDegraded m = s.constraintDegraded m := rfl

end

/-! ### modSlot -/

section

variable (s : State) (n : LineId) (f : Stoppage → Stoppage)

@[simp] theorem State.station_modSlot (m : StationId) :
    (s.modSlot n f).station m = s.station m := rfl
@[simp] theorem State.point_modSlot (m : PointId) : (s.modSlot n f).point m = s.point m := rfl
@[simp] theorem State.input_modSlot (m : InputId) : (s.modSlot n f).input m = s.input m := rfl
@[simp] theorem State.lineDef_modSlot (m : LineId) : (s.modSlot n f).lineDef m = s.lineDef m := rfl
@[simp] theorem State.stationDef_modSlot (m : StationId) :
    (s.modSlot n f).stationDef m = s.stationDef m := rfl
@[simp] theorem State.pointDef_modSlot (m : PointId) :
    (s.modSlot n f).pointDef m = s.pointDef m := rfl
@[simp] theorem State.inputDef_modSlot (m : InputId) :
    (s.modSlot n f).inputDef m = s.inputDef m := rfl
@[simp] theorem State.now_modSlot : (s.modSlot n f).now = s.now := rfl
@[simp] theorem State.hall_modSlot : (s.modSlot n f).hall = s.hall := rfl
@[simp] theorem State.hallAt_modSlot (t : Nat) : (s.modSlot n f).hallAt t = s.hallAt t := rfl
@[simp] theorem State.members_modSlot (m : LineId) : (s.modSlot n f).members m = s.members m := rfl
@[simp] theorem State.roleOf_modSlot (m : InputId) : (s.modSlot n f).roleOf m = s.roleOf m := rfl
@[simp] theorem State.rate_modSlot (m : LineId) : (s.modSlot n f).rate m = s.rate m := rfl
@[simp] theorem State.constraintState_modSlot (m : LineId) :
    (s.modSlot n f).constraintState m = s.constraintState m := rfl
@[simp] theorem State.constraintDegraded_modSlot (m : LineId) :
    (s.modSlot n f).constraintDegraded m = s.constraintDegraded m := rfl

end

/-! ### modTally -/

section

variable (s : State) (k : StationId) (f : StationTally → StationTally)

@[simp] theorem State.line_modTally (m : LineId) : (s.modTally k f).line m = s.line m := rfl
@[simp] theorem State.point_modTally (m : PointId) : (s.modTally k f).point m = s.point m := rfl
@[simp] theorem State.input_modTally (m : InputId) : (s.modTally k f).input m = s.input m := rfl
@[simp] theorem State.lineDef_modTally (m : LineId) :
    (s.modTally k f).lineDef m = s.lineDef m := rfl
@[simp] theorem State.stationDef_modTally (m : StationId) :
    (s.modTally k f).stationDef m = s.stationDef m := rfl
@[simp] theorem State.pointDef_modTally (m : PointId) :
    (s.modTally k f).pointDef m = s.pointDef m := rfl
@[simp] theorem State.inputDef_modTally (m : InputId) :
    (s.modTally k f).inputDef m = s.inputDef m := rfl
@[simp] theorem State.now_modTally : (s.modTally k f).now = s.now := rfl
@[simp] theorem State.hall_modTally : (s.modTally k f).hall = s.hall := rfl
@[simp] theorem State.hallAt_modTally (t : Nat) : (s.modTally k f).hallAt t = s.hallAt t := rfl
@[simp] theorem State.members_modTally (m : LineId) :
    (s.modTally k f).members m = s.members m := rfl
@[simp] theorem State.roleOf_modTally (m : InputId) : (s.modTally k f).roleOf m = s.roleOf m := rfl
@[simp] theorem State.rate_modTally (m : LineId) : (s.modTally k f).rate m = s.rate m := rfl
@[simp] theorem State.inService_modTally (m : LineId) :
    (s.modTally k f).inService m = s.inService m := rfl

end

/-! ### latch -/

section

variable (s : State) (a : Alert)

@[simp] theorem State.line_latch (m : LineId) : (s.latch a).line m = s.line m := rfl
@[simp] theorem State.station_latch (m : StationId) : (s.latch a).station m = s.station m := rfl
@[simp] theorem State.point_latch (m : PointId) : (s.latch a).point m = s.point m := rfl
@[simp] theorem State.input_latch (m : InputId) : (s.latch a).input m = s.input m := rfl
@[simp] theorem State.lineDef_latch (m : LineId) : (s.latch a).lineDef m = s.lineDef m := rfl
@[simp] theorem State.stationDef_latch (m : StationId) :
    (s.latch a).stationDef m = s.stationDef m := rfl
@[simp] theorem State.pointDef_latch (m : PointId) : (s.latch a).pointDef m = s.pointDef m := rfl
@[simp] theorem State.inputDef_latch (m : InputId) : (s.latch a).inputDef m = s.inputDef m := rfl
@[simp] theorem State.now_latch : (s.latch a).now = s.now := rfl
@[simp] theorem State.hall_latch : (s.latch a).hall = s.hall := rfl
@[simp] theorem State.hallAt_latch (t : Nat) : (s.latch a).hallAt t = s.hallAt t := rfl
@[simp] theorem State.members_latch (m : LineId) : (s.latch a).members m = s.members m := rfl
@[simp] theorem State.roleOf_latch (m : InputId) : (s.latch a).roleOf m = s.roleOf m := rfl
@[simp] theorem State.rate_latch (m : LineId) : (s.latch a).rate m = s.rate m := rfl
@[simp] theorem State.inService_latch (m : LineId) : (s.latch a).inService m = s.inService m := rfl
@[simp] theorem State.constraintState_latch (m : LineId) :
    (s.latch a).constraintState m = s.constraintState m := rfl
@[simp] theorem State.constraintDegraded_latch (m : LineId) :
    (s.latch a).constraintDegraded m = s.constraintDegraded m := rfl

end

/-! ### owe -/

section

variable (s : State) (r : Option Reply)

@[simp] theorem State.line_owe (m : LineId) : (s.owe r).line m = s.line m := rfl
@[simp] theorem State.station_owe (m : StationId) : (s.owe r).station m = s.station m := rfl
@[simp] theorem State.point_owe (m : PointId) : (s.owe r).point m = s.point m := rfl
@[simp] theorem State.input_owe (m : InputId) : (s.owe r).input m = s.input m := rfl
@[simp] theorem State.lineDef_owe (m : LineId) : (s.owe r).lineDef m = s.lineDef m := rfl
@[simp] theorem State.stationDef_owe (m : StationId) :
    (s.owe r).stationDef m = s.stationDef m := rfl
@[simp] theorem State.pointDef_owe (m : PointId) : (s.owe r).pointDef m = s.pointDef m := rfl
@[simp] theorem State.inputDef_owe (m : InputId) : (s.owe r).inputDef m = s.inputDef m := rfl
@[simp] theorem State.now_owe : (s.owe r).now = s.now := rfl
@[simp] theorem State.hall_owe : (s.owe r).hall = s.hall := rfl
@[simp] theorem State.hallAt_owe (t : Nat) : (s.owe r).hallAt t = s.hallAt t := rfl
@[simp] theorem State.members_owe (m : LineId) : (s.owe r).members m = s.members m := rfl
@[simp] theorem State.roleOf_owe (m : InputId) : (s.owe r).roleOf m = s.roleOf m := rfl
@[simp] theorem State.rate_owe (m : LineId) : (s.owe r).rate m = s.rate m := rfl
@[simp] theorem State.inService_owe (m : LineId) : (s.owe r).inService m = s.inService m := rfl
@[simp] theorem State.constraintState_owe (m : LineId) :
    (s.owe r).constraintState m = s.constraintState m := rfl
@[simp] theorem State.constraintDegraded_owe (m : LineId) :
    (s.owe r).constraintDegraded m = s.constraintDegraded m := rfl

end

/-! ### formBoundary -/

section

variable (s : State)

@[simp] theorem State.line_formBoundary (m : LineId) : (s.formBoundary).line m = s.line m := rfl
@[simp] theorem State.station_formBoundary (m : StationId) :
    (s.formBoundary).station m = s.station m := rfl
@[simp] theorem State.point_formBoundary (m : PointId) : (s.formBoundary).point m = s.point m := rfl
@[simp] theorem State.input_formBoundary (m : InputId) : (s.formBoundary).input m = s.input m := rfl
@[simp] theorem State.lineDef_formBoundary (m : LineId) :
    (s.formBoundary).lineDef m = s.lineDef m := rfl
@[simp] theorem State.stationDef_formBoundary (m : StationId) :
    (s.formBoundary).stationDef m = s.stationDef m := rfl
@[simp] theorem State.pointDef_formBoundary (m : PointId) :
    (s.formBoundary).pointDef m = s.pointDef m := rfl
@[simp] theorem State.inputDef_formBoundary (m : InputId) :
    (s.formBoundary).inputDef m = s.inputDef m := rfl
@[simp] theorem State.now_formBoundary : (s.formBoundary).now = s.now := rfl
@[simp] theorem State.hall_formBoundary : (s.formBoundary).hall = s.hall := rfl
@[simp] theorem State.hallAt_formBoundary (t : Nat) : (s.formBoundary).hallAt t = s.hallAt t := rfl
@[simp] theorem State.members_formBoundary (m : LineId) :
    (s.formBoundary).members m = s.members m := rfl
@[simp] theorem State.roleOf_formBoundary (m : InputId) :
    (s.formBoundary).roleOf m = s.roleOf m := rfl
@[simp] theorem State.rate_formBoundary (m : LineId) : (s.formBoundary).rate m = s.rate m := rfl
@[simp] theorem State.inService_formBoundary (m : LineId) :
    (s.formBoundary).inService m = s.inService m := rfl
@[simp] theorem State.constraintState_formBoundary (m : LineId) :
    (s.formBoundary).constraintState m = s.constraintState m := rfl
@[simp] theorem State.constraintDegraded_formBoundary (m : LineId) :
    (s.formBoundary).constraintDegraded m = s.constraintDegraded m := rfl

end

end Sys2Proof.Machine
end

