-- ==== Sys2Proof/Laws/State.lean ====
section
/-! SUPPORT. Each field of the state under each update: one lemma per field and update, true by
rfl. -/

namespace Sys2Proof.Machine

/-! ### modLine -/

section

variable (s : State) (n : LineId) (f : LineLive → LineLive)

@[simp] theorem State.modLine_settings : (s.modLine n f).settings = s.settings := rfl
@[simp] theorem State.modLine_points : (s.modLine n f).points = s.points := rfl
@[simp] theorem State.modLine_inputs : (s.modLine n f).inputs = s.inputs := rfl
@[simp] theorem State.modLine_installed : (s.modLine n f).installed = s.installed := rfl
@[simp] theorem State.modLine_awaitsFrame : (s.modLine n f).awaitsFrame = s.awaitsFrame := rfl
@[simp] theorem State.modLine_stations : (s.modLine n f).stations = s.stations := rfl
@[simp] theorem State.modLine_lines : (s.modLine n f).lines = Tab.modify s.lines n f := rfl
@[simp] theorem State.modLine_journal : (s.modLine n f).journal = s.journal := rfl
@[simp] theorem State.modLine_lost : (s.modLine n f).lost = s.lost := rfl
@[simp] theorem State.modLine_clock : (s.modLine n f).clock = s.clock := rfl
@[simp] theorem State.modLine_archive : (s.modLine n f).archive = s.archive := rfl
@[simp] theorem State.modLine_queue : (s.modLine n f).queue = s.queue := rfl
@[simp] theorem State.modLine_settingsCopy : (s.modLine n f).settingsCopy = s.settingsCopy := rfl
@[simp] theorem State.modLine_image : (s.modLine n f).image = s.image := rfl
@[simp] theorem State.modLine_imageStatus : (s.modLine n f).imageStatus = s.imageStatus := rfl
@[simp] theorem State.modLine_guardMode : (s.modLine n f).guardMode = s.guardMode := rfl
@[simp] theorem State.modLine_link : (s.modLine n f).link = s.link := rfl
@[simp] theorem State.modLine_alerts : (s.modLine n f).alerts = s.alerts := rfl
@[simp] theorem State.modLine_power : (s.modLine n f).power = s.power := rfl
@[simp] theorem State.modLine_pins : (s.modLine n f).pins = s.pins := rfl
@[simp] theorem State.modLine_pending : (s.modLine n f).pending = s.pending := rfl

end

/-! ### modStation -/

section

variable (s : State) (k : StationId) (f : StationLive → StationLive)

@[simp] theorem State.modStation_settings : (s.modStation k f).settings = s.settings := rfl
@[simp] theorem State.modStation_points : (s.modStation k f).points = s.points := rfl
@[simp] theorem State.modStation_inputs : (s.modStation k f).inputs = s.inputs := rfl
@[simp] theorem State.modStation_installed : (s.modStation k f).installed = s.installed := rfl
@[simp] theorem State.modStation_awaitsFrame : (s.modStation k f).awaitsFrame = s.awaitsFrame := rfl
@[simp] theorem State.modStation_stations :
    (s.modStation k f).stations = Tab.modify s.stations k f := rfl
@[simp] theorem State.modStation_lines : (s.modStation k f).lines = s.lines := rfl
@[simp] theorem State.modStation_journal : (s.modStation k f).journal = s.journal := rfl
@[simp] theorem State.modStation_lost : (s.modStation k f).lost = s.lost := rfl
@[simp] theorem State.modStation_clock : (s.modStation k f).clock = s.clock := rfl
@[simp] theorem State.modStation_archive : (s.modStation k f).archive = s.archive := rfl
@[simp] theorem State.modStation_queue : (s.modStation k f).queue = s.queue := rfl
@[simp] theorem State.modStation_settingsCopy :
    (s.modStation k f).settingsCopy = s.settingsCopy := rfl
@[simp] theorem State.modStation_image : (s.modStation k f).image = s.image := rfl
@[simp] theorem State.modStation_imageStatus : (s.modStation k f).imageStatus = s.imageStatus := rfl
@[simp] theorem State.modStation_guardMode : (s.modStation k f).guardMode = s.guardMode := rfl
@[simp] theorem State.modStation_link : (s.modStation k f).link = s.link := rfl
@[simp] theorem State.modStation_alerts : (s.modStation k f).alerts = s.alerts := rfl
@[simp] theorem State.modStation_power : (s.modStation k f).power = s.power := rfl
@[simp] theorem State.modStation_pins : (s.modStation k f).pins = s.pins := rfl
@[simp] theorem State.modStation_pending : (s.modStation k f).pending = s.pending := rfl

end

/-! ### modPoint -/

section

variable (s : State) (p : PointId) (f : PointAcq → PointAcq)

@[simp] theorem State.modPoint_settings : (s.modPoint p f).settings = s.settings := rfl
@[simp] theorem State.modPoint_points : (s.modPoint p f).points = Tab.modify s.points p f := rfl
@[simp] theorem State.modPoint_inputs : (s.modPoint p f).inputs = s.inputs := rfl
@[simp] theorem State.modPoint_installed : (s.modPoint p f).installed = s.installed := rfl
@[simp] theorem State.modPoint_awaitsFrame : (s.modPoint p f).awaitsFrame = s.awaitsFrame := rfl
@[simp] theorem State.modPoint_stations : (s.modPoint p f).stations = s.stations := rfl
@[simp] theorem State.modPoint_lines : (s.modPoint p f).lines = s.lines := rfl
@[simp] theorem State.modPoint_journal : (s.modPoint p f).journal = s.journal := rfl
@[simp] theorem State.modPoint_lost : (s.modPoint p f).lost = s.lost := rfl
@[simp] theorem State.modPoint_clock : (s.modPoint p f).clock = s.clock := rfl
@[simp] theorem State.modPoint_archive : (s.modPoint p f).archive = s.archive := rfl
@[simp] theorem State.modPoint_queue : (s.modPoint p f).queue = s.queue := rfl
@[simp] theorem State.modPoint_settingsCopy : (s.modPoint p f).settingsCopy = s.settingsCopy := rfl
@[simp] theorem State.modPoint_image : (s.modPoint p f).image = s.image := rfl
@[simp] theorem State.modPoint_imageStatus : (s.modPoint p f).imageStatus = s.imageStatus := rfl
@[simp] theorem State.modPoint_guardMode : (s.modPoint p f).guardMode = s.guardMode := rfl
@[simp] theorem State.modPoint_link : (s.modPoint p f).link = s.link := rfl
@[simp] theorem State.modPoint_alerts : (s.modPoint p f).alerts = s.alerts := rfl
@[simp] theorem State.modPoint_power : (s.modPoint p f).power = s.power := rfl
@[simp] theorem State.modPoint_pins : (s.modPoint p f).pins = s.pins := rfl
@[simp] theorem State.modPoint_pending : (s.modPoint p f).pending = s.pending := rfl

end

/-! ### modInput -/

section

variable (s : State) (i : InputId) (f : InputAcq → InputAcq)

@[simp] theorem State.modInput_settings : (s.modInput i f).settings = s.settings := rfl
@[simp] theorem State.modInput_points : (s.modInput i f).points = s.points := rfl
@[simp] theorem State.modInput_inputs : (s.modInput i f).inputs = Tab.modify s.inputs i f := rfl
@[simp] theorem State.modInput_installed : (s.modInput i f).installed = s.installed := rfl
@[simp] theorem State.modInput_awaitsFrame : (s.modInput i f).awaitsFrame = s.awaitsFrame := rfl
@[simp] theorem State.modInput_stations : (s.modInput i f).stations = s.stations := rfl
@[simp] theorem State.modInput_lines : (s.modInput i f).lines = s.lines := rfl
@[simp] theorem State.modInput_journal : (s.modInput i f).journal = s.journal := rfl
@[simp] theorem State.modInput_lost : (s.modInput i f).lost = s.lost := rfl
@[simp] theorem State.modInput_clock : (s.modInput i f).clock = s.clock := rfl
@[simp] theorem State.modInput_archive : (s.modInput i f).archive = s.archive := rfl
@[simp] theorem State.modInput_queue : (s.modInput i f).queue = s.queue := rfl
@[simp] theorem State.modInput_settingsCopy : (s.modInput i f).settingsCopy = s.settingsCopy := rfl
@[simp] theorem State.modInput_image : (s.modInput i f).image = s.image := rfl
@[simp] theorem State.modInput_imageStatus : (s.modInput i f).imageStatus = s.imageStatus := rfl
@[simp] theorem State.modInput_guardMode : (s.modInput i f).guardMode = s.guardMode := rfl
@[simp] theorem State.modInput_link : (s.modInput i f).link = s.link := rfl
@[simp] theorem State.modInput_alerts : (s.modInput i f).alerts = s.alerts := rfl
@[simp] theorem State.modInput_power : (s.modInput i f).power = s.power := rfl
@[simp] theorem State.modInput_pins : (s.modInput i f).pins = s.pins := rfl
@[simp] theorem State.modInput_pending : (s.modInput i f).pending = s.pending := rfl

end

/-! ### modSettings -/

section

variable (s : State) (f : Settings → Settings)

@[simp] theorem State.modSettings_settings : (s.modSettings f).settings = f s.settings := rfl
@[simp] theorem State.modSettings_points : (s.modSettings f).points = s.points := rfl
@[simp] theorem State.modSettings_inputs : (s.modSettings f).inputs = s.inputs := rfl
@[simp] theorem State.modSettings_installed : (s.modSettings f).installed = s.installed := rfl
@[simp] theorem State.modSettings_awaitsFrame : (s.modSettings f).awaitsFrame = s.awaitsFrame := rfl
@[simp] theorem State.modSettings_stations : (s.modSettings f).stations = s.stations := rfl
@[simp] theorem State.modSettings_lines : (s.modSettings f).lines = s.lines := rfl
@[simp] theorem State.modSettings_journal : (s.modSettings f).journal = s.journal := rfl
@[simp] theorem State.modSettings_lost : (s.modSettings f).lost = s.lost := rfl
@[simp] theorem State.modSettings_clock : (s.modSettings f).clock = s.clock := rfl
@[simp] theorem State.modSettings_archive : (s.modSettings f).archive = s.archive := rfl
@[simp] theorem State.modSettings_queue : (s.modSettings f).queue = s.queue := rfl
@[simp] theorem State.modSettings_settingsCopy :
    (s.modSettings f).settingsCopy = s.settingsCopy := rfl
@[simp] theorem State.modSettings_image : (s.modSettings f).image = s.image := rfl
@[simp] theorem State.modSettings_imageStatus : (s.modSettings f).imageStatus = s.imageStatus := rfl
@[simp] theorem State.modSettings_guardMode : (s.modSettings f).guardMode = s.guardMode := rfl
@[simp] theorem State.modSettings_link : (s.modSettings f).link = s.link := rfl
@[simp] theorem State.modSettings_alerts : (s.modSettings f).alerts = s.alerts := rfl
@[simp] theorem State.modSettings_power : (s.modSettings f).power = s.power := rfl
@[simp] theorem State.modSettings_pins : (s.modSettings f).pins = s.pins := rfl
@[simp] theorem State.modSettings_pending : (s.modSettings f).pending = s.pending := rfl

end

/-! ### modBank -/

section

variable (s : State) (n : LineId) (f : Bank → Bank)

@[simp] theorem State.modBank_settings : (s.modBank n f).settings = s.settings := rfl
@[simp] theorem State.modBank_points : (s.modBank n f).points = s.points := rfl
@[simp] theorem State.modBank_inputs : (s.modBank n f).inputs = s.inputs := rfl
@[simp] theorem State.modBank_installed : (s.modBank n f).installed = s.installed := rfl
@[simp] theorem State.modBank_awaitsFrame : (s.modBank n f).awaitsFrame = s.awaitsFrame := rfl
@[simp] theorem State.modBank_stations : (s.modBank n f).stations = s.stations := rfl
@[simp] theorem State.modBank_lines :
    (s.modBank n f).lines = Tab.modify s.lines n fun l => { l with bank := l.bank.map f } := rfl
@[simp] theorem State.modBank_journal : (s.modBank n f).journal = s.journal := rfl
@[simp] theorem State.modBank_lost : (s.modBank n f).lost = s.lost := rfl
@[simp] theorem State.modBank_clock : (s.modBank n f).clock = s.clock := rfl
@[simp] theorem State.modBank_archive : (s.modBank n f).archive = s.archive := rfl
@[simp] theorem State.modBank_queue : (s.modBank n f).queue = s.queue := rfl
@[simp] theorem State.modBank_settingsCopy : (s.modBank n f).settingsCopy = s.settingsCopy := rfl
@[simp] theorem State.modBank_image : (s.modBank n f).image = s.image := rfl
@[simp] theorem State.modBank_imageStatus : (s.modBank n f).imageStatus = s.imageStatus := rfl
@[simp] theorem State.modBank_guardMode : (s.modBank n f).guardMode = s.guardMode := rfl
@[simp] theorem State.modBank_link : (s.modBank n f).link = s.link := rfl
@[simp] theorem State.modBank_alerts : (s.modBank n f).alerts = s.alerts := rfl
@[simp] theorem State.modBank_power : (s.modBank n f).power = s.power := rfl
@[simp] theorem State.modBank_pins : (s.modBank n f).pins = s.pins := rfl
@[simp] theorem State.modBank_pending : (s.modBank n f).pending = s.pending := rfl

end

/-! ### modSlot -/

section

variable (s : State) (n : LineId) (f : Stoppage → Stoppage)

@[simp] theorem State.modSlot_settings : (s.modSlot n f).settings = s.settings := rfl
@[simp] theorem State.modSlot_points : (s.modSlot n f).points = s.points := rfl
@[simp] theorem State.modSlot_inputs : (s.modSlot n f).inputs = s.inputs := rfl
@[simp] theorem State.modSlot_installed : (s.modSlot n f).installed = s.installed := rfl
@[simp] theorem State.modSlot_awaitsFrame : (s.modSlot n f).awaitsFrame = s.awaitsFrame := rfl
@[simp] theorem State.modSlot_stations : (s.modSlot n f).stations = s.stations := rfl
@[simp] theorem State.modSlot_lines :
    (s.modSlot n f).lines = Tab.modify s.lines n fun l => { l with slot := l.slot.map f } := rfl
@[simp] theorem State.modSlot_journal : (s.modSlot n f).journal = s.journal := rfl
@[simp] theorem State.modSlot_lost : (s.modSlot n f).lost = s.lost := rfl
@[simp] theorem State.modSlot_clock : (s.modSlot n f).clock = s.clock := rfl
@[simp] theorem State.modSlot_archive : (s.modSlot n f).archive = s.archive := rfl
@[simp] theorem State.modSlot_queue : (s.modSlot n f).queue = s.queue := rfl
@[simp] theorem State.modSlot_settingsCopy : (s.modSlot n f).settingsCopy = s.settingsCopy := rfl
@[simp] theorem State.modSlot_image : (s.modSlot n f).image = s.image := rfl
@[simp] theorem State.modSlot_imageStatus : (s.modSlot n f).imageStatus = s.imageStatus := rfl
@[simp] theorem State.modSlot_guardMode : (s.modSlot n f).guardMode = s.guardMode := rfl
@[simp] theorem State.modSlot_link : (s.modSlot n f).link = s.link := rfl
@[simp] theorem State.modSlot_alerts : (s.modSlot n f).alerts = s.alerts := rfl
@[simp] theorem State.modSlot_power : (s.modSlot n f).power = s.power := rfl
@[simp] theorem State.modSlot_pins : (s.modSlot n f).pins = s.pins := rfl
@[simp] theorem State.modSlot_pending : (s.modSlot n f).pending = s.pending := rfl

end

/-! ### modTally -/

section

variable (s : State) (k : StationId) (f : StationTally → StationTally)

@[simp] theorem State.modTally_settings : (s.modTally k f).settings = s.settings := rfl
@[simp] theorem State.modTally_points : (s.modTally k f).points = s.points := rfl
@[simp] theorem State.modTally_inputs : (s.modTally k f).inputs = s.inputs := rfl
@[simp] theorem State.modTally_installed : (s.modTally k f).installed = s.installed := rfl
@[simp] theorem State.modTally_awaitsFrame : (s.modTally k f).awaitsFrame = s.awaitsFrame := rfl
@[simp] theorem State.modTally_stations :
    (s.modTally k f).stations = Tab.modify s.stations k fun v => { v with tally := v.tally.map f } := rfl
@[simp] theorem State.modTally_lines : (s.modTally k f).lines = s.lines := rfl
@[simp] theorem State.modTally_journal : (s.modTally k f).journal = s.journal := rfl
@[simp] theorem State.modTally_lost : (s.modTally k f).lost = s.lost := rfl
@[simp] theorem State.modTally_clock : (s.modTally k f).clock = s.clock := rfl
@[simp] theorem State.modTally_archive : (s.modTally k f).archive = s.archive := rfl
@[simp] theorem State.modTally_queue : (s.modTally k f).queue = s.queue := rfl
@[simp] theorem State.modTally_settingsCopy : (s.modTally k f).settingsCopy = s.settingsCopy := rfl
@[simp] theorem State.modTally_image : (s.modTally k f).image = s.image := rfl
@[simp] theorem State.modTally_imageStatus : (s.modTally k f).imageStatus = s.imageStatus := rfl
@[simp] theorem State.modTally_guardMode : (s.modTally k f).guardMode = s.guardMode := rfl
@[simp] theorem State.modTally_link : (s.modTally k f).link = s.link := rfl
@[simp] theorem State.modTally_alerts : (s.modTally k f).alerts = s.alerts := rfl
@[simp] theorem State.modTally_power : (s.modTally k f).power = s.power := rfl
@[simp] theorem State.modTally_pins : (s.modTally k f).pins = s.pins := rfl
@[simp] theorem State.modTally_pending : (s.modTally k f).pending = s.pending := rfl

end

/-! ### latch -/

section

variable (s : State) (a : Alert)

@[simp] theorem State.latch_settings : (s.latch a).settings = s.settings := rfl
@[simp] theorem State.latch_points : (s.latch a).points = s.points := rfl
@[simp] theorem State.latch_inputs : (s.latch a).inputs = s.inputs := rfl
@[simp] theorem State.latch_installed : (s.latch a).installed = s.installed := rfl
@[simp] theorem State.latch_awaitsFrame : (s.latch a).awaitsFrame = s.awaitsFrame := rfl
@[simp] theorem State.latch_stations : (s.latch a).stations = s.stations := rfl
@[simp] theorem State.latch_lines : (s.latch a).lines = s.lines := rfl
@[simp] theorem State.latch_journal : (s.latch a).journal = s.journal := rfl
@[simp] theorem State.latch_lost : (s.latch a).lost = s.lost := rfl
@[simp] theorem State.latch_clock : (s.latch a).clock = s.clock := rfl
@[simp] theorem State.latch_archive : (s.latch a).archive = s.archive := rfl
@[simp] theorem State.latch_queue : (s.latch a).queue = s.queue := rfl
@[simp] theorem State.latch_settingsCopy : (s.latch a).settingsCopy = s.settingsCopy := rfl
@[simp] theorem State.latch_image : (s.latch a).image = s.image := rfl
@[simp] theorem State.latch_imageStatus : (s.latch a).imageStatus = s.imageStatus := rfl
@[simp] theorem State.latch_guardMode : (s.latch a).guardMode = s.guardMode := rfl
@[simp] theorem State.latch_link : (s.latch a).link = s.link := rfl
@[simp] theorem State.latch_alerts : (s.latch a).alerts = s.alerts ||| a.bit := rfl
@[simp] theorem State.latch_power : (s.latch a).power = s.power := rfl
@[simp] theorem State.latch_pins : (s.latch a).pins = s.pins := rfl
@[simp] theorem State.latch_pending : (s.latch a).pending = s.pending := rfl

end

/-! ### owe -/

section

variable (s : State) (r : Option Reply)

@[simp] theorem State.owe_settings : (s.owe r).settings = s.settings := rfl
@[simp] theorem State.owe_points : (s.owe r).points = s.points := rfl
@[simp] theorem State.owe_inputs : (s.owe r).inputs = s.inputs := rfl
@[simp] theorem State.owe_installed : (s.owe r).installed = s.installed := rfl
@[simp] theorem State.owe_awaitsFrame : (s.owe r).awaitsFrame = s.awaitsFrame := rfl
@[simp] theorem State.owe_stations : (s.owe r).stations = s.stations := rfl
@[simp] theorem State.owe_lines : (s.owe r).lines = s.lines := rfl
@[simp] theorem State.owe_journal : (s.owe r).journal = s.journal := rfl
@[simp] theorem State.owe_lost : (s.owe r).lost = s.lost := rfl
@[simp] theorem State.owe_clock : (s.owe r).clock = s.clock := rfl
@[simp] theorem State.owe_archive : (s.owe r).archive = s.archive := rfl
@[simp] theorem State.owe_queue : (s.owe r).queue = s.queue := rfl
@[simp] theorem State.owe_settingsCopy : (s.owe r).settingsCopy = s.settingsCopy := rfl
@[simp] theorem State.owe_image : (s.owe r).image = s.image := rfl
@[simp] theorem State.owe_imageStatus : (s.owe r).imageStatus = s.imageStatus := rfl
@[simp] theorem State.owe_guardMode : (s.owe r).guardMode = s.guardMode := rfl
@[simp] theorem State.owe_link :
    (s.owe r).link = { s.link with serving := .serving, reply := r } := rfl
@[simp] theorem State.owe_alerts : (s.owe r).alerts = s.alerts := rfl
@[simp] theorem State.owe_power : (s.owe r).power = s.power := rfl
@[simp] theorem State.owe_pins : (s.owe r).pins = s.pins := rfl
@[simp] theorem State.owe_pending : (s.owe r).pending = s.pending := rfl

end

/-! ### formBoundary -/

section

variable (s : State)

@[simp] theorem State.formBoundary_settings : (s.formBoundary).settings = s.settings := rfl
@[simp] theorem State.formBoundary_points : (s.formBoundary).points = s.points := rfl
@[simp] theorem State.formBoundary_inputs : (s.formBoundary).inputs = s.inputs := rfl
@[simp] theorem State.formBoundary_installed : (s.formBoundary).installed = s.installed := rfl
@[simp] theorem State.formBoundary_awaitsFrame : (s.formBoundary).awaitsFrame = s.awaitsFrame := rfl
@[simp] theorem State.formBoundary_stations : (s.formBoundary).stations = s.stations := rfl
@[simp] theorem State.formBoundary_lines : (s.formBoundary).lines = s.lines := rfl
@[simp] theorem State.formBoundary_journal : (s.formBoundary).journal = s.journal := rfl
@[simp] theorem State.formBoundary_lost : (s.formBoundary).lost = s.lost := rfl
@[simp] theorem State.formBoundary_clock :
    (s.formBoundary).clock = { s.clock with nextBoundary := s.nextBoundary } := rfl
@[simp] theorem State.formBoundary_archive : (s.formBoundary).archive = s.archive := rfl
@[simp] theorem State.formBoundary_queue : (s.formBoundary).queue = s.queue := rfl
@[simp] theorem State.formBoundary_settingsCopy :
    (s.formBoundary).settingsCopy = s.settingsCopy := rfl
@[simp] theorem State.formBoundary_image : (s.formBoundary).image = s.image := rfl
@[simp] theorem State.formBoundary_imageStatus : (s.formBoundary).imageStatus = s.imageStatus := rfl
@[simp] theorem State.formBoundary_guardMode : (s.formBoundary).guardMode = s.guardMode := rfl
@[simp] theorem State.formBoundary_link : (s.formBoundary).link = s.link := rfl
@[simp] theorem State.formBoundary_alerts : (s.formBoundary).alerts = s.alerts := rfl
@[simp] theorem State.formBoundary_power : (s.formBoundary).power = s.power := rfl
@[simp] theorem State.formBoundary_pins : (s.formBoundary).pins = s.pins := rfl
@[simp] theorem State.formBoundary_pending : (s.formBoundary).pending = s.pending := rfl

end

end Sys2Proof.Machine
end

