-- ==== Sys2Proof/Laws/Serve.lean ====
section
/-! SUPPORT. What taking a request can do, said once: it is discarded, refused by a common check, or
answered by its owner (R158 to R162). -/

namespace Sys2Proof.Machine

/-- A request that comes while the part does not receive changes nothing. -/
theorem State.serve_discarded {s : State} (h : s.receives = false) (kind : RequestKind)
    (length range : Option Refused) (owner : State → State × Answer) :
    s.serve kind length range owner = s := by
  simp [State.serve, h]

/-- A common check that refuses leaves the state but for the reply owed. -/
theorem State.serve_refused {s : State} {kind : RequestKind} {length range : Option Refused}
    {r : Refused} (h : s.receives = true) (hr : s.commonRefusal kind length range = some r)
    (owner : State → State × Answer) :
    s.serve kind length range owner =
      s.owe (some ⟨0xFF, [kind.code, r.reason.code, r.detail]⟩) := by
  simp [State.serve, h, hr, Answer.reply]

/-- A request that passes the common checks is its owner's. -/
theorem State.serve_owner {s : State} {kind : RequestKind} {length range : Option Refused}
    (h : s.receives = true) (hr : s.commonRefusal kind length range = none)
    (owner : State → State × Answer) :
    s.serve kind length range owner = (owner s).1.owe ((owner s).2.reply kind) := by
  simp [State.serve, h, hr]

/-- The part receives exactly while it runs and owes no reply. -/
theorem State.receives_iff (s : State) :
    s.receives = true ↔ s.power.running = true ∧ s.link.serving = .ready := by
  simp [State.receives]

theorem State.Takes.receives {s : State} {kind : RequestKind} (h : s.Takes kind) :
    s.receives = true :=
  s.receives_iff.mpr ⟨h.running, h.ready⟩

theorem State.Takes.guardCheck {s : State} {kind : RequestKind} (h : s.Takes kind) :
    s.guardCheck kind = none := by
  unfold State.guardCheck
  split
  · simp [h.guard ‹_›]
  · rfl

/-- The common checks of a kind the part takes are its length and its range. -/
theorem State.Takes.commonRefusal {s : State} {kind : RequestKind} (h : s.Takes kind)
    (length range : Option Refused) :
    s.commonRefusal kind length range = length.or range := by
  cases length <;> cases range <;> simp [State.commonRefusal, firstRefusal, h.guardCheck]

/-- A request taken, in range, whose owner refuses it. -/
theorem State.Takes.serve_refusal {s : State} {kind : RequestKind} (h : s.Takes kind)
    {refusal : State → Option Refused} {r : Refused} (hr : refusal s = some r)
    (effect : State → State × List Byte) :
    s.serve kind none none (checked refusal effect) =
      s.owe (some ⟨0xFF, [kind.code, r.reason.code, r.detail]⟩) := by
  rw [State.serve_owner h.receives (by simp [h.commonRefusal])]
  simp [checked, hr, Answer.reply]

/-- A request taken, in range, that its owner executes. -/
theorem State.Takes.serve_done {s : State} {kind : RequestKind} (h : s.Takes kind)
    {refusal : State → Option Refused} (hr : refusal s = none)
    (effect : State → State × List Byte) :
    s.serve kind none none (checked refusal effect) =
      (effect s).1.owe (some ⟨kind.code + 0x80, (effect s).2⟩) := by
  rw [State.serve_owner h.receives (by simp [h.commonRefusal])]
  simp [checked, hr, Answer.reply]

/-- A reading request taken, in range, that its owner answers. -/
theorem State.Takes.serve_reading {s : State} {kind : RequestKind} (h : s.Takes kind)
    {refusal : State → Option Refused} (hr : refusal s = none) (body : State → List Byte) :
    s.serve kind none none (reading refusal body) = s.owe (some ⟨kind.code + 0x80, body s⟩) :=
  h.serve_done hr _

/-- A reading request taken, in range, that its owner refuses. -/
theorem State.Takes.reading_refusal {s : State} {kind : RequestKind} (h : s.Takes kind)
    {refusal : State → Option Refused} {r : Refused} (hr : refusal s = some r)
    (body : State → List Byte) :
    s.serve kind none none (reading refusal body) =
      s.owe (some ⟨0xFF, [kind.code, r.reason.code, r.detail]⟩) :=
  h.serve_refusal hr _

/-- A request taken and out of range. -/
theorem State.Takes.serve_outOfRange {s : State} {kind : RequestKind} (h : s.Takes kind)
    (r : Refused) (owner : State → State × Answer) :
    s.serve kind none (some r) owner =
      s.owe (some ⟨0xFF, [kind.code, r.reason.code, r.detail]⟩) :=
  State.serve_refused h.receives (by simp [h.commonRefusal]) owner

/-! ### Checks -/

/-- An identifier within its range passes. -/
theorem above_none {b : Byte} {top : Nat} (h : b.toNat ≤ top) : above b top = none := by
  have : ¬ top < b.toNat := by omega
  simp [above, refuseIf, this]

theorem aboveOrNone_none {b : Byte} {top : Nat} (h : b = 0xFF ∨ b.toNat ≤ top) :
    aboveOrNone b top = none := by
  unfold aboveOrNone
  split
  · rfl
  · exact above_none (h.resolve_left ‹_›)

theorem carriedAbove_none {c : Carried Byte} {top : Nat}
    (h : c.presence = 0 ∨ c.value.toNat ≤ top) : carriedAbove c top = none := by
  unfold carriedAbove
  split
  · rfl
  · exact above_none (h.resolve_left ‹_›)

theorem presenceBad_none {α : Type} {c : Carried α} (h : c.presence.toNat ≤ 1) (place : Nat) :
    presenceBad c place = none := by
  have : ¬ 1 < c.presence.toNat := by omega
  simp [presenceBad, refuseIf, this]

/-- The byte of a line names it. -/
theorem lineOfByte_eq {b : Byte} {n : LineId} (h : b.toNat = n.val) : lineOfByte b = n := by
  apply Fin.ext
  have := n.isLt
  simp [lineOfByte, h]

theorem stationOfByte_eq {b : Byte} {k : StationId} (h : b.toNat = k.val) :
    stationOfByte b = k := by
  apply Fin.ext
  have := k.isLt
  simp [stationOfByte, h]

theorem lineByte_le {b : Byte} {n : LineId} (h : b.toNat = n.val) : b.toNat ≤ 7 := by
  have := n.isLt; omega

theorem stationByte_le {b : Byte} {k : StationId} (h : b.toNat = k.val) : b.toNat ≤ 63 := by
  have := k.isLt; omega

/-- A byte in range is the byte of what it names. -/
theorem idByte_lineOfByte {b : Byte} (h : b.toNat ≤ 7) : idByte (lineOfByte b) = b := by
  apply BitVec.eq_of_toNat_eq
  have : b.toNat % 8 = b.toNat := Nat.mod_eq_of_lt (by omega)
  simp [idByte, lineOfByte, this]

theorem idByte_stationOfByte {b : Byte} (h : b.toNat ≤ 63) : idByte (stationOfByte b) = b := by
  apply BitVec.eq_of_toNat_eq
  have : b.toNat % 64 = b.toNat := Nat.mod_eq_of_lt (by omega)
  simp [idByte, stationOfByte, this]

theorem idByte_inputOfByte {b : Byte} (h : b.toNat ≤ 15) : idByte (inputOfByte b) = b := by
  apply BitVec.eq_of_toNat_eq
  have : b.toNat % 16 = b.toNat := Nat.mod_eq_of_lt (by omega)
  simp [idByte, inputOfByte, this]

end Sys2Proof.Machine
end

