-- ==== Sys2Proof/Laws/Frames.lean ====
section
/-! SUPPORT. What the shared operations of a line leave unchanged, said once per operation: an
operation of line `n` touches that line, the tallies of stations, the journal, the alerts and the
write queue, and nothing else. -/

namespace Sys2Proof.Machine

/-- Two live states of a station differ in their tallies at most. -/
structure StationLive.SameButTally (v w : StationLive) : Prop where
  state : w.state = v.state
  stamp : w.stamp = v.stamp
  reported : w.reported = v.reported
  armed : w.armed = v.armed
  memory : w.memory = v.memory
  degraded : w.degraded = v.degraded
  stallExpiry : w.stallExpiry = v.stallExpiry

/-- What an operation of line `n` may have made of a state. -/
structure State.OnlyLine (s t : State) (n : LineId) : Prop where
  same : s.SameButLines t
  link : t.link = s.link
  others : ∀ m, m ≠ n → t.line m = s.line m
  stations : ∀ k, (s.station k).SameButTally (t.station k)

theorem StationLive.SameButTally.refl (v : StationLive) : v.SameButTally v :=
  ⟨rfl, rfl, rfl, rfl, rfl, rfl, rfl⟩

theorem StationLive.SameButTally.trans {u v w : StationLive} (h : u.SameButTally v)
    (g : v.SameButTally w) : u.SameButTally w :=
  ⟨g.state.trans h.state, g.stamp.trans h.stamp, g.reported.trans h.reported,
    g.armed.trans h.armed, g.memory.trans h.memory, g.degraded.trans h.degraded,
    g.stallExpiry.trans h.stallExpiry⟩

theorem State.SameButLines.refl (s : State) : s.SameButLines s :=
  ⟨rfl, rfl, rfl, rfl, rfl, rfl, rfl, rfl, rfl, rfl, rfl, rfl, rfl⟩

theorem State.SameButLines.trans {s t u : State} (h : s.SameButLines t) (g : t.SameButLines u) :
    s.SameButLines u :=
  ⟨g.settings.trans h.settings, g.points.trans h.points, g.inputs.trans h.inputs,
    g.installed.trans h.installed, g.awaitsFrame.trans h.awaitsFrame, g.clock.trans h.clock,
    g.archive.trans h.archive, g.image.trans h.image, g.imageStatus.trans h.imageStatus,
    g.guardMode.trans h.guardMode, g.power.trans h.power, g.pins.trans h.pins,
    g.pending.trans h.pending⟩

theorem State.OnlyLine.refl (s : State) (n : LineId) : s.OnlyLine s n :=
  ⟨.refl s, rfl, fun _ _ => rfl, fun _ => .refl _⟩

theorem State.OnlyLine.trans {s t u : State} {n : LineId} (h : s.OnlyLine t n)
    (g : t.OnlyLine u n) : s.OnlyLine u n :=
  ⟨h.same.trans g.same, g.link.trans h.link,
    fun m hm => (g.others m hm).trans (h.others m hm),
    fun k => (h.stations k).trans (g.stations k)⟩

/-! ### Updates -/

theorem State.OnlyLine.modLine (s : State) (n : LineId) (f : LineLive → LineLive) :
    s.OnlyLine (s.modLine n f) n :=
  ⟨⟨rfl, rfl, rfl, rfl, rfl, rfl, rfl, rfl, rfl, rfl, rfl, rfl, rfl⟩, rfl,
    fun _ hm => State.line_modLine_ne s hm f, fun _ => .refl _⟩

theorem State.OnlyLine.modBank (s : State) (n : LineId) (f : Bank → Bank) :
    s.OnlyLine (s.modBank n f) n := .modLine s n _

theorem State.OnlyLine.modSlot (s : State) (n : LineId) (f : Stoppage → Stoppage) :
    s.OnlyLine (s.modSlot n f) n := .modLine s n _

/-- A change of a station that leaves all but its tally. -/
theorem State.OnlyLine.modStation (s : State) (n : LineId) (k : StationId)
    {f : StationLive → StationLive} (hf : ∀ v : StationLive, v.SameButTally (f v)) :
    s.OnlyLine (s.modStation k f) n :=
  ⟨⟨rfl, rfl, rfl, rfl, rfl, rfl, rfl, rfl, rfl, rfl, rfl, rfl, rfl⟩, rfl, fun _ _ => rfl, fun m => by
    by_cases h : m = k
    · subst h; simpa using hf _
    · rw [State.station_modStation_ne s h]; exact .refl _⟩

theorem State.OnlyLine.modTally (s : State) (n : LineId) (k : StationId)
    (f : StationTally → StationTally) : s.OnlyLine (s.modTally k f) n :=
  .modStation s n k fun _ => ⟨rfl, rfl, rfl, rfl, rfl, rfl, rfl⟩

theorem State.OnlyLine.latch (s : State) (n : LineId) (a : Alert) : s.OnlyLine (s.latch a) n :=
  ⟨⟨rfl, rfl, rfl, rfl, rfl, rfl, rfl, rfl, rfl, rfl, rfl, rfl, rfl⟩, rfl, fun _ _ => rfl,
    fun _ => .refl _⟩

/-- A change of the journal, the lost count, the write queue and its copy. -/
theorem State.OnlyLine.books (s : State) (n : LineId) (j : List JournalRecord) (lost : Nat)
    (q : List WriteItem) (c : Option Settings) :
    s.OnlyLine { s with journal := j, lost := lost, queue := q, settingsCopy := c } n :=
  ⟨⟨rfl, rfl, rfl, rfl, rfl, rfl, rfl, rfl, rfl, rfl, rfl, rfl, rfl⟩, rfl, fun _ _ => rfl,
    fun _ => .refl _⟩

/-- A fold of operations of line `n` is one. -/
theorem State.OnlyLine.foldl {α : Type} {n : LineId} {f : State → α → State}
    (hf : ∀ (s : State) (a : α), s.OnlyLine (f s a) n) (l : List α) (s : State) : s.OnlyLine (l.foldl f s) n := by
  induction l generalizing s with
  | nil => exact .refl s n
  | cons a l ih => exact (hf s a).trans (ih _)

/-! ### The tally unit and the journal -/

theorem State.OnlyLine.rebook (s : State) (n : LineId) (t : Nat) : s.OnlyLine (s.rebook n t) n :=
  .modLine s n _

theorem State.OnlyLine.enterLine (s : State) (n : LineId) (st : LineState) (t : Nat) :
    s.OnlyLine (s.enterLine n st t) n :=
  (State.OnlyLine.modLine s n _).trans (.rebook _ n t)

theorem State.OnlyLine.openTallies (s : State) (n : LineId) (t : Nat) :
    s.OnlyLine (s.openTallies n t) n := by
  refine State.OnlyLine.foldl (fun _ k => ?_) _ s
  exact .modStation _ n k fun _ => ⟨rfl, rfl, rfl, rfl, rfl, rfl, rfl⟩

theorem State.OnlyLine.dropTallies (s : State) (n : LineId) : s.OnlyLine (s.dropTallies n) n := by
  refine State.OnlyLine.foldl (fun _ k => ?_) _ s
  exact .modStation _ n k fun _ => ⟨rfl, rfl, rfl, rfl, rfl, rfl, rfl⟩

theorem State.OnlyLine.creditRoots (s : State) (n : LineId) (micro : Bool)
    (cs : List Contributor) : s.OnlyLine (s.creditRoots micro cs) n := by
  unfold State.creditRoots
  extract_lets u
  have h : s.OnlyLine u n := .foldl (fun _ c => .modTally _ n c.station _) cs s
  clear_value u
  cases cs with
  | nil => exact h
  | cons c cs => exact h.trans (.modTally _ n c.station _)

theorem State.OnlyLine.journalEnter (s : State) (n : LineId) (r : JournalRecord) :
    s.OnlyLine (s.journalEnter r) n := by
  unfold State.journalEnter
  refine .trans (t := if Config.journalCapacity ≤ s.journal.length then _ else s) ?_
    (.books _ n _ _ _ _)
  split
  · exact (State.OnlyLine.books s n _ _ _ _).trans (.latch _ n _)
  · exact .refl s n

theorem State.OnlyLine.lapseShift (s : State) (n : LineId) (serial : Nat) :
    s.OnlyLine (s.lapseShift n serial) n := .books s n _ _ _ _

theorem State.OnlyLine.queueJoin (s : State) (n : LineId) (w : WriteItem) :
    s.OnlyLine (s.queueJoin w) n := by
  unfold State.queueJoin State.serveHead
  split
  · split <;> exact .books s n _ _ _ _
  · exact .books s n _ _ _ _

/-! ### The line tracker -/

theorem State.OnlyLine.testDegraded (s : State) (n : LineId) : s.OnlyLine (s.testDegraded n) n := by
  unfold State.testDegraded
  split
  · exact .refl s n
  · split
    · exact (State.OnlyLine.modSlot s n _).trans (.modBank _ n _)
    · exact .refl s n

theorem State.OnlyLine.promote (s : State) (n : LineId) (t : Nat) :
    s.OnlyLine (s.promote n t) n := by
  unfold State.promote
  split
  · exact .refl s n
  · exact (State.OnlyLine.modLine s n _).trans (.enterLine _ n _ t)

theorem State.OnlyLine.openCandidate (s : State) (n : LineId) :
    s.OnlyLine (s.openCandidate n) n := by
  unfold State.openCandidate
  extract_lets w threshold r s1 s2
  have h : s.OnlyLine s2 n :=
    ((State.OnlyLine.modLine s n _).trans (.enterLine _ n _ _)).trans (.testDegraded _ n)
  clear_value s2
  split
  · exact h.trans (.promote _ n _)
  · exact h

theorem State.OnlyLine.endMicro (s : State) (n : LineId) (t : Nat) :
    s.OnlyLine (s.endMicro n t) n := by
  unfold State.endMicro
  split
  · exact .refl s n
  · exact (State.OnlyLine.modLine s n _).trans (.creditRoots _ n _ _)

theorem State.OnlyLine.closeRecord (s : State) (n : LineId) (kind : CloseKind) (t : Nat) :
    s.OnlyLine (s.closeRecord n kind t) n := by
  unfold State.closeRecord
  split
  · exact .refl s n
  · exact ((State.OnlyLine.journalEnter s n _).trans (.creditRoots _ n _ _)).trans (.modLine _ n _)

theorem State.OnlyLine.evaluate (s : State) (n : LineId) : s.OnlyLine (s.evaluate n) n := by
  unfold State.evaluate
  split
  · exact .enterLine s n _ _
  · exact .enterLine s n _ _
  all_goals exact .openCandidate s n

theorem State.OnlyLine.rewalk (s : State) (n : LineId) : s.OnlyLine (s.rewalk n) n := by
  unfold State.rewalk
  split
  · exact .refl s n
  · refine .trans ?_ (.testDegraded _ n)
    dsimp only
    repeat' split
    all_goals first
      | exact .modLine s n _
      | exact (State.OnlyLine.modLine s n _).trans (.rebook _ n _)

theorem State.OnlyLine.lineNews (old s : State) (n : LineId) :
    s.OnlyLine (State.lineNews old s n) n := by
  unfold State.lineNews
  split
  · exact .refl s n
  · split
    · exact .refl s n
    · extract_lets s1 walked s2 mine others st
      have h1 : s.OnlyLine s1 n := by
        subst s1
        split
        · exact .modBank s n _
        · exact .refl s n
      have h2 : s.OnlyLine s2 n := by
        subst s2
        split
        · exact h1.trans (.testDegraded _ n)
        · exact h1
      clear_value s2
      refine h2.trans ?_
      split
      · split
        · exact .evaluate _ n
        · exact .refl _ n
      · split
        · exact .openCandidate _ n
        · exact .refl _ n
      · split
        · exact (State.OnlyLine.endMicro _ n _).trans (.enterLine _ n _ _)
        · split
          · exact .rewalk _ n
          · exact .refl _ n
      · split
        · exact (State.OnlyLine.closeRecord _ n _ _).trans (.enterLine _ n _ _)
        · split
          · exact .rewalk _ n
          · exact .refl _ n
      · exact .refl _ n
      · exact .refl _ n

/-- Settling the lines touches no more than the lines' own operations do. -/
theorem State.settleLines_same (old s : State) : s.SameButLines (State.settleLines old s) := by
  unfold State.settleLines
  generalize allLines = l
  induction l generalizing s with
  | nil => exact .refl s
  | cons n l ih => exact (State.OnlyLine.lineNews old s n).same.trans (ih _)

theorem State.settleLines_stations (old s : State) (k : StationId) :
    (s.station k).SameButTally ((State.settleLines old s).station k) := by
  unfold State.settleLines
  generalize allLines = l
  induction l generalizing s with
  | nil => exact .refl _
  | cons n l ih => exact ((State.OnlyLine.lineNews old s n).stations k).trans (ih _)

theorem State.settleLines_link (old s : State) : (State.settleLines old s).link = s.link := by
  unfold State.settleLines
  generalize allLines = l
  induction l generalizing s with
  | nil => rfl
  | cons n l ih => exact (ih _).trans (State.OnlyLine.lineNews old s n).link

/-! ### Shifts -/

theorem State.OnlyLine.settleSlot (s : State) (n : LineId) (t : Nat) :
    s.OnlyLine (s.settleSlot n t) n := by
  unfold State.settleSlot
  split
  · exact .refl s n
  · refine .trans ?_ (.closeRecord _ n _ t)
    split
    · exact .promote s n t
    · exact .refl s n

theorem State.OnlyLine.stage (s : State) (n : LineId) (reason : CloseReason) (deferred : Bool)
    (t : Nat) : s.OnlyLine (s.stage n reason deferred t) n := by
  unfold State.stage
  split
  · exact .refl s n
  · exact (State.OnlyLine.modLine s n _).trans (.queueJoin _ n _)

theorem State.OnlyLine.closeShift (s : State) (n : LineId) (reason : CloseReason)
    (deferred : Bool) (t : Nat) : s.OnlyLine (s.closeShift n reason deferred t) n :=
  ((State.OnlyLine.settleSlot s n t).trans (.lapseShift _ n _)).trans (.stage _ n _ _ t)

theorem State.OnlyLine.openShift (s : State) (n : LineId) (serial t : Nat) :
    s.OnlyLine (s.openShift n serial t) n :=
  (State.OnlyLine.modLine s n _).trans (.openTallies _ n t)

theorem State.OnlyLine.turnShift (s : State) (n : LineId) (reason : CloseReason)
    (deferred : Bool) (t : Nat) : s.OnlyLine (s.turnShift n reason deferred t) n := by
  unfold State.turnShift
  dsimp only
  refine .trans (.closeShift s n reason deferred t) ?_
  split
  · exact .openShift _ n _ t
  · exact ((State.OnlyLine.modLine _ n _).trans (.openShift _ n _ t)).trans (.testDegraded _ n)

theorem State.OnlyLine.takeLimit (s : State) (n : LineId) : s.OnlyLine (s.takeLimit n) n := by
  unfold State.takeLimit
  split
  · exact .turnShift s n _ _ _
  · exact .refl s n

/-- The closes at the length limit touch no more than the lines' own operations do. -/
theorem State.takeLimits_same (s : State) : s.SameButLines s.takeLimits := by
  unfold State.takeLimits
  generalize allLines = l
  induction l generalizing s with
  | nil => exact .refl s
  | cons n l ih => exact (State.OnlyLine.takeLimit s n).same.trans (ih _)

theorem State.takeLimits_link (s : State) : s.takeLimits.link = s.link := by
  unfold State.takeLimits
  generalize allLines = l
  induction l generalizing s with
  | nil => rfl
  | cons n l ih => exact (ih _).trans (State.OnlyLine.takeLimit s n).link

end Sys2Proof.Machine
end

