-- ==== Sys2Proof/Laws/Stations.lean ====
section
/-! SUPPORT. What the operations of the station evaluator leave unchanged: those on stations alone
touch the stations; the taking of point changes touches stations and lines. -/

namespace Sys2Proof.Machine

/-- Two states agree but for the stations. -/
def State.OnlyStations (s t : State) : Prop := t = { s with stations := t.stations }

theorem State.OnlyStations.refl (s : State) : s.OnlyStations s := rfl

theorem State.OnlyStations.trans {s t u : State} (h : s.OnlyStations t) (g : t.OnlyStations u) :
    s.OnlyStations u := by
  unfold State.OnlyStations at *
  rw [g, h]

theorem State.OnlyStations.modStation (s : State) (k : StationId)
    (f : StationLive → StationLive) : s.OnlyStations (s.modStation k f) := rfl

theorem State.OnlyStations.foldl {α : Type} {f : State → α → State}
    (hf : ∀ (s : State) (a : α), s.OnlyStations (f s a)) (l : List α) (s : State) :
    s.OnlyStations (l.foldl f s) := by
  induction l generalizing s with
  | nil => exact .refl s
  | cons a l ih => exact (hf s a).trans (ih _)

theorem State.OnlyStations.changeStation (s : State) (k : StationId) (st : StationState) :
    s.OnlyStations (s.changeStation k st) := rfl

theorem State.OnlyStations.derive (s : State) (k : StationId) : s.OnlyStations (s.derive k) := by
  unfold State.derive
  dsimp only
  split
  · exact .refl s
  · exact .changeStation s k _

theorem State.OnlyStations.refreshDegraded (s : State) (k : StationId) :
    s.OnlyStations (s.refreshDegraded k) := rfl

theorem State.OnlyStations.rebuildStation (s : State) (k : StationId) :
    s.OnlyStations (s.rebuildStation k) := rfl

theorem State.OnlyStations.rebuildStations (s : State) : s.OnlyStations s.rebuildStations := by
  unfold State.rebuildStations
  exact ((show s.OnlyStations { s with stations := _ } from rfl).trans
    (.foldl (fun s k => .refreshDegraded s k) _ _)).trans (.foldl (fun s k => .derive s k) _ _)

theorem State.OnlyStations.startTimers (s : State) (n : LineId) :
    s.OnlyStations (s.startTimers n) := by
  unfold State.startTimers
  refine .foldl (fun s k => ?_) _ s
  split
  · exact .modStation s k _
  · exact .refl s

theorem State.OnlyStations.stopTimers (s : State) (n : LineId) :
    s.OnlyStations (s.stopTimers n) := by
  unfold State.stopTimers
  refine .foldl (fun s k => ?_) _ s
  dsimp only
  refine .trans ?_ (.modStation _ k _)
  split
  · exact .changeStation s k _
  · exact .refl s

/-- What touches stations alone leaves everything a line event leaves, and the lines. -/
theorem State.OnlyStations.same {s t : State} (h : s.OnlyStations t) : s.SameButLines t := by
  rw [h]
  exact ⟨rfl, rfl, rfl, rfl, rfl, rfl, rfl, rfl, rfl, rfl, rfl, rfl, rfl⟩

theorem State.OnlyStations.lines {s t : State} (h : s.OnlyStations t) : t.lines = s.lines := by
  rw [h]

/-- A station enters a state: its record changes, and no other station's does. -/
@[simp] theorem State.station_changeStation_same (s : State) (k : StationId)
    (st : StationState) :
    (s.changeStation k st).station k =
      (s.station k).change st s.hall s.now (s.stallStart k) := by
  simp [State.changeStation]

theorem State.station_changeStation_ne (s : State) {k m : StationId} (h : m ≠ k)
    (st : StationState) : (s.changeStation k st).station m = s.station m := by
  simp [State.changeStation, State.station_modStation_ne s h]

/-- The taking of point changes touches stations, lines, journal and alerts only. -/
theorem State.settlePoints_same (old s : State) : s.SameButLines (State.settlePoints old s) := by
  unfold State.settlePoints
  exact ((State.OnlyStations.foldl (fun s k => .refreshDegraded s k) _ s).trans
    (.foldl (fun s k => .derive s k) _ _)).same.trans (State.settleLines_same old _)

end Sys2Proof.Machine
end

