-- ==== Sys2Proof/Laws/Credits.lean ====
section
/-! SUPPORT. What a stoppage that ends leaves in the buckets (R121) and in the station tallies (R63),
and what an entry into a state makes of a station (R58 to R60). -/

namespace Sys2Proof.Machine

/-! ### Buckets -/

theorem Bucket.index_inj {k l : Bucket} : k.index = l.index ↔ k = l := by
  constructor
  · intro h
    cases k <;> cases l <;> first | rfl | (rename_i c d; cases c <;> cases d <;> first | rfl | cases h) | (rename_i c; cases c <;> cases h) | cases h
  · rintro rfl; rfl

theorem Bank.time_transfer_source (b : Bank) {source target : Bucket} (h : source ≠ target)
    (amount : Nat) : (b.transfer source target amount).time source = b.time source - amount := by
  have hi : source.index ≠ target.index := fun e => h (Bucket.index_inj.1 e)
  simp only [Bank.transfer, Bank.time, Tab.get_modify_ne _ hi, Tab.get_modify_same]
  omega

theorem Bank.time_transfer_target (b : Bank) {source target : Bucket} (h : source ≠ target)
    (amount : Nat) : (b.transfer source target amount).time target =
      b.time target + min amount (b.time source) := by
  have hi : target.index ≠ source.index := fun e => h (Bucket.index_inj.1 e).symm
  simp only [Bank.transfer, Bank.time, Tab.get_modify_ne _ hi, Tab.get_modify_same]

theorem Bank.time_transfer_ne (b : Bank) {source target k : Bucket} (hs : k ≠ source)
    (ht : k ≠ target) (amount : Nat) : (b.transfer source target amount).time k = b.time k := by
  have h1 : k.index ≠ source.index := fun e => hs (Bucket.index_inj.1 e)
  have h2 : k.index ≠ target.index := fun e => ht (Bucket.index_inj.1 e)
  simp only [Bank.transfer, Bank.time, Tab.get_modify_ne _ h1, Tab.get_modify_ne _ h2]

/-- Moving all of N to M is what the end of a micro-stop does (R121). -/
theorem Bank.microStopped_transfer (b : Bank) : b.MicroStopped (b.transfer .n .m (b.time .n)) := by
  refine ⟨?_, ?_, fun k h1 h2 => b.time_transfer_ne h1 h2 _⟩
  · rw [Bank.time_transfer_source _ (by decide)]; omega
  · rw [Bank.time_transfer_target _ (by decide)]; omega

/-- A promotion moves each contributor's duration from N to its category (R121). -/
theorem Bank.promoted_promoteTimes (b : Bank) (cs : List Contributor) :
    b.Promoted (b.promoteTimes cs) cs := by
  unfold Bank.promoteTimes
  induction cs generalizing b with
  | nil => exact ⟨by simp, by simp, fun _ _ => rfl⟩
  | cons c cs ih =>
    obtain ⟨h1, h2, h3⟩ := ih (b.transfer .n (.cat c.category) c.duration)
    have hn : (Bucket.n) ≠ .cat c.category := by simp
    rw [Bank.time_transfer_source _ hn] at h1 h2
    refine ⟨?_, fun hs d => ?_, fun k hk => ?_⟩
    · rw [List.foldl_cons, h1]; simp only [List.map_cons, List.sum_cons]; omega
    · simp only [List.map_cons, List.sum_cons] at hs
      rw [List.foldl_cons, h2 (by omega) d]
      by_cases hd : c.category = d
      · subst hd
        rw [Bank.time_transfer_target _ hn]
        simp
        omega
      · have : (Bucket.cat d) ≠ .cat c.category := fun e => hd (by cases e; rfl)
        rw [Bank.time_transfer_ne _ (by simp) this]
        simp [hd]
    · rw [List.foldl_cons, h3 k hk]
      rcases hk with rfl | rfl | rfl | rfl <;> exact b.time_transfer_ne (by simp) (by simp) _

/-! ### Station tallies -/

/-- The tally of a station after a change of the tally of `j`. -/
theorem State.tally_modTally (s : State) (j k : StationId) (f : StationTally → StationTally) :
    ((s.modTally j f).station k).tally =
      (s.station k).tally.map (fun y => if j = k then f y else y) := by
  unfold State.modTally
  by_cases h : j = k
  · subst h; simp
  · rw [State.station_modStation_ne s (Ne.symm h)]; simp [h]

theorem rootTime_cons (k : StationId) (c : Contributor) (cs : List Contributor) :
    rootTime k (c :: cs) = (if c.station = k then c.duration else 0) + rootTime k cs := by
  unfold rootTime
  by_cases h : c.station = k <;> simp [h]

theorem State.tally_foldDown (s : State) (cs : List Contributor) (k : StationId) :
    ((cs.foldl (fun s c => s.modTally c.station fun y =>
      { y with rootDown := y.rootDown + c.duration }) s).station k).tally =
      (s.station k).tally.map fun y => { y with rootDown := y.rootDown + rootTime k cs } := by
  induction cs generalizing s with
  | nil => simp [rootTime]
  | cons c cs ih =>
    rw [List.foldl_cons, ih, State.tally_modTally, Option.map_map, rootTime_cons]
    congr 1
    funext y
    by_cases h : c.station = k <;> simp [h, Nat.add_assoc]

theorem State.tally_foldMicro (s : State) (cs : List Contributor) (k : StationId) :
    ((cs.foldl (fun s c => s.modTally c.station fun y =>
      { y with rootMicro := y.rootMicro + c.duration }) s).station k).tally =
      (s.station k).tally.map fun y => { y with rootMicro := y.rootMicro + rootTime k cs } := by
  induction cs generalizing s with
  | nil => simp [rootTime]
  | cons c cs ih =>
    rw [List.foldl_cons, ih, State.tally_modTally, Option.map_map, rootTime_cons]
    congr 1
    funext y
    by_cases h : c.station = k <;> simp [h, Nat.add_assoc]

/-- A record that closed credits its stations, and nothing else of a tally changes (R63). -/
theorem State.creditedDown (s : State) (cs : List Contributor) :
    s.CreditedDown (s.creditRoots false cs) cs := by
  intro k y hy
  cases cs with
  | nil => exact ⟨y, hy, by simp [rootTime], by simp [rootCount]⟩
  | cons c cs =>
    have h : ((s.creditRoots false (c :: cs)).station k).tally = some
        (if c.station = k then
          { y with
            rootDown := y.rootDown + rootTime k (c :: cs)
            rootDownCount := saturate (y.rootDownCount + 1) }
        else { y with rootDown := y.rootDown + rootTime k (c :: cs) }) := by
      have h1 := State.tally_foldDown s (c :: cs) k
      simp only [State.creditRoots, State.tally_modTally, Bool.false_eq_true, if_false]
      rw [h1, hy]
      simp
    refine ⟨_, h, ?_, ?_⟩ <;> by_cases hc : c.station = k <;>
      simp [hc, rootCount, saturate, Config.countLimit]

/-- A micro-stop credits its stations, and nothing else of a tally changes (R63). -/
theorem State.creditedMicro (s : State) (cs : List Contributor) :
    s.CreditedMicro (s.creditRoots true cs) cs := by
  intro k y hy
  cases cs with
  | nil => exact ⟨y, hy, by simp [rootTime], by simp [rootCount]⟩
  | cons c cs =>
    have h : ((s.creditRoots true (c :: cs)).station k).tally = some
        (if c.station = k then
          { y with
            rootMicro := y.rootMicro + rootTime k (c :: cs)
            rootMicroCount := saturate (y.rootMicroCount + 1) }
        else { y with rootMicro := y.rootMicro + rootTime k (c :: cs) }) := by
      have h1 := State.tally_foldMicro s (c :: cs) k
      simp only [State.creditRoots, State.tally_modTally, if_true]
      rw [h1, hy]
      simp
    refine ⟨_, h, ?_, ?_⟩ <;> by_cases hc : c.station = k <;>
      simp [hc, rootCount, saturate, Config.countLimit]

/-! ### Entries into a state -/

/-- What an entry into a state makes of the causes and the memory of a station (R58 to R60). -/
theorem StationLive.entered_change (v : StationLive) (st : StationState) (stamp count : Nat)
    (timer : Option Nat) : v.Entered (v.change st stamp count timer) stamp count := by
  cases st <;> cases hv : v.state <;> cases ha : v.armed <;>
    constructor <;>
    simp_all [StationLive.change, StationLive.memoryLeft, StationLive.bookAt]

/-- What an entry into a state makes of the state, the tally and the stall timer. -/
theorem StationLive.change_rest (v : StationLive) (st : StationState) (stamp count : Nat)
    (timer : Option Nat) : (v.change st stamp count timer).state = st ∧
      (v.change st stamp count timer).tally = v.tallyAt count ∧
      (v.change st stamp count timer).since = count ∧
      (v.change st stamp count timer).degraded = v.degraded ∧
      (v.change st stamp count timer).stallExpiry =
        if st = .running then timer else none := by
  cases st <;> cases ha : v.armed <;> simp [StationLive.change, StationLive.bookAt, ha]

end Sys2Proof.Machine
end

