-- ==== Sys2Proof/Laws/Journal.lean ====
section
/-! SUPPORT. The journal: what the entry of a record leaves (R97, R99), what a change of the record of
a key does, and the lengths of the fields and records of replies (R178, R180). -/

namespace Sys2Proof.Machine

/-- A field has its width, whatever the value. -/
@[simp] theorem field_length (w n : Nat) : (field w n).length = w := by
  unfold field; split <;> simp [be]

@[simp] theorem Contributor.bytes_length (c : Contributor) : c.bytes.length = 7 := by
  simp [Contributor.bytes]

@[simp] theorem sealLast_length (since t : Nat) (cs : List Contributor) :
    (sealLast since t cs).length = cs.length := by
  induction cs with
  | nil => rfl
  | cons c cs ih => cases cs with
    | nil => rfl
    | cons d rest => simp only [sealLast, List.length_cons] at *; omega

/-- A record enters last; a full journal first loses its oldest record (R99). -/
theorem State.journalEnter_journal (s : State) (r : JournalRecord) :
    (s.journalEnter r).journal =
      (if s.journal.length < 192 then s.journal else s.journal.tail) ++ [r] := by
  unfold State.journalEnter
  simp only [Config.journalCapacity]
  by_cases h : s.journal.length < 192
  · have h' : ¬ 192 ≤ s.journal.length := by omega
    simp [h, h']
  · have h' : 192 ≤ s.journal.length := by omega
    simp [h, h']

theorem State.journalEnter_lost (s : State) (r : JournalRecord) :
    (s.journalEnter r).lost =
      if s.journal.length < 192 then s.lost else min (s.lost + 1) 4294967295 := by
  unfold State.journalEnter
  simp only [Config.journalCapacity]
  by_cases h : s.journal.length < 192
  · have h' : ¬ 192 ≤ s.journal.length := by omega
    simp [h, h']
  · have h' : 192 ≤ s.journal.length := by omega
    simp [h, h', saturate, Config.countLimit]

theorem State.journalEnter_length (s : State) (r : JournalRecord) (h : s.journal.length ≤ 192) :
    (s.journalEnter r).journal.length ≤ 192 := by
  rw [State.journalEnter_journal]
  split <;> simp <;> omega

/-- Crediting stations leaves whatever the tallies do not touch. -/
theorem State.creditRoots_same {β : Type} (g : State → β)
    (hg : ∀ (s : State) (k : StationId) (f : StationTally → StationTally),
      g (s.modTally k f) = g s)
    (s : State) (micro : Bool) (cs : List Contributor) : g (s.creditRoots micro cs) = g s := by
  unfold State.creditRoots
  extract_lets u
  have h : g u = g s := by
    subst u
    generalize cs = l
    induction l generalizing s with
    | nil => rfl
    | cons c l ih => exact (ih _).trans (hg _ _ _)
  clear_value u
  cases cs with
  | nil => exact h
  | cons c cs => exact (hg _ _ _).trans h

/-- Closing an open record, step by step (R83). -/
theorem State.closeRecord_eq {s : State} {n : LineId} {r : Stoppage} {m : Nat}
    (h : (s.line n).openRecord = some (r, m)) (kind : CloseKind) (t : Nat) :
    s.closeRecord n kind t =
      ((s.journalEnter (s.closedRecord n r m kind t)).creditRoots false
        (r.contributorsAt t)).modLine n fun l => { l with slot := none } := by
  simp [State.closeRecord, h]

/-- A change that keeps a record's key reaches the record of that key. -/
theorem State.record?_modRecord (s : State) (k : Key) (f : JournalRecord → JournalRecord)
    (hf : ∀ r, (f r).hasKey k = r.hasKey k) :
    (s.modRecord k f).record? k = (s.record? k).map f := by
  simp only [State.record?, State.modRecord]
  induction s.journal with
  | nil => rfl
  | cons r j ih =>
    by_cases h : r.hasKey k = true
    · simp [h, hf]
    · simp [h, ih]

/-- A change of the record of a key touches that record alone. -/
theorem State.modRecord_same (s : State) (k : Key) (f : JournalRecord → JournalRecord) :
    s.SameButRecord (s.modRecord k f) k :=
  ⟨rfl, by simp [State.modRecord], fun p r hr hk => by simp [State.modRecord, hr, hk]⟩

/-- What the checks of a key say of a line's candidate (R104). -/
theorem State.candidateHasKey_iff {s : State} {k : Key} {n : LineId}
    (h : k.line.toNat = n.val) :
    s.candidateHasKey k = true ↔ (s.line n).state = .pendingStop ∧
      k.serial.toNat = (s.line n).serial ∧ k.number.toNat = (s.line n).nextNumber := by
  simp [State.candidateHasKey, lineOfByte_eq h, and_assoc]

end Sys2Proof.Machine
end

