-- ==== Sys2Proof/Laws/Events.lean ====
section
/-! SUPPORT. What the stations and the lines make of one event (R51, R73): what each line's turn leaves,
how the journal grows, and that the settling of the points and of the lines is what the claims say of
it. -/

namespace Sys2Proof.Machine

/-- What is the same before and after a change of a line and a change of a tally. -/
structure Keeps {β : Type} (g : State → β) : Prop where
  line : ∀ (s : State) (n : LineId) (f : LineLive → LineLive), g (s.modLine n f) = g s
  tally : ∀ (s : State) (k : StationId) (f : StationTally → StationTally), g (s.modTally k f) = g s

namespace Keeps

variable {β : Type} {g : State → β}

theorem rebook (h : Keeps g) (s : State) (n : LineId) (t : Nat) : g (s.rebook n t) = g s :=
  h.line s n _

theorem enterLine (h : Keeps g) (s : State) (n : LineId) (st : LineState) (t : Nat) :
    g (s.enterLine n st t) = g s := (h.rebook _ n t).trans (h.line s n _)

theorem markBank (h : Keeps g) (s : State) (n : LineId) : g (s.markBankDegraded n) = g s :=
  h.line s n _

theorem testDegraded (h : Keeps g) (s : State) (n : LineId) : g (s.testDegraded n) = g s := by
  unfold State.testDegraded
  split
  · rfl
  · split
    · exact (h.markBank _ n).trans (h.line s n _)
    · rfl

theorem promote (h : Keeps g) (s : State) (n : LineId) (t : Nat) : g (s.promote n t) = g s := by
  unfold State.promote
  split
  · rfl
  · exact (h.enterLine _ n _ t).trans (h.line s n _)

theorem openCandidate (h : Keeps g) (s : State) (n : LineId) : g (s.openCandidate n) = g s := by
  unfold State.openCandidate
  extract_lets w threshold r s1 s2
  have h2 : g s2 = g s := ((h.testDegraded _ n).trans (h.enterLine _ n _ _)).trans (h.line s n _)
  clear_value s2
  split
  · exact (h.promote _ n _).trans h2
  · exact h2

theorem credit (h : Keeps g) (s : State) (micro : Bool) (cs : List Contributor) :
    g (s.creditRoots micro cs) = g s := State.creditRoots_same g h.tally s micro cs

theorem endMicro (h : Keeps g) (s : State) (n : LineId) (t : Nat) : g (s.endMicro n t) = g s := by
  unfold State.endMicro
  split
  · rfl
  · exact (h.credit _ true _).trans (h.line s n _)

theorem evaluate (h : Keeps g) (s : State) (n : LineId) : g (s.evaluate n) = g s := by
  unfold State.evaluate
  split
  · exact h.enterLine s n _ _
  · exact h.enterLine s n _ _
  all_goals exact h.openCandidate s n

theorem rewalk (h : Keeps g) (s : State) (n : LineId) : g (s.rewalk n) = g s := by
  unfold State.rewalk
  split
  · rfl
  · refine (h.testDegraded _ n).trans ?_
    dsimp only
    repeat' split
    all_goals first
      | exact h.line s n _
      | exact (h.rebook _ n _).trans (h.line s n _)

/-- The turn of a line keeps it, but for one record that enters the journal at most (R73, R83). -/
theorem lineNews (h : Keeps g) (old s : State) (n : LineId) :
    g (State.lineNews old s n) = g s ∨
      ∃ u r, g u = g s ∧ u.journal = s.journal ∧
        g (State.lineNews old s n) = g (u.journalEnter r) := by
  unfold State.lineNews
  split
  · exact .inl rfl
  · split
    · exact .inl rfl
    · extract_lets s1 walked s2 mine others st
      have h1 : g s1 = g s ∧ s1.journal = s.journal := by
        subst s1
        split
        · exact ⟨h.markBank s n, rfl⟩
        · exact ⟨rfl, rfl⟩
      have h2 : g s2 = g s ∧ s2.journal = s.journal := by
        subst s2
        split
        · exact ⟨(h.testDegraded _ n).trans h1.1,
            (Keeps.testDegraded (g := State.journal) ⟨fun _ _ _ => rfl, fun _ _ _ => rfl⟩ _ n).trans
              h1.2⟩
        · exact h1
      clear_value s2
      split
      · refine .inl ?_
        split
        · exact (h.evaluate _ n).trans h2.1
        · exact h2.1
      · refine .inl ?_
        split
        · exact (h.openCandidate _ n).trans h2.1
        · exact h2.1
      · refine .inl ?_
        split
        · exact ((h.enterLine _ n _ _).trans (h.endMicro _ n _)).trans h2.1
        · split
          · exact (h.rewalk _ n).trans h2.1
          · exact h2.1
      · split
        · rw [h.enterLine]
          unfold State.closeRecord
          split
          · exact .inl h2.1
          · rename_i r m _
            exact .inr ⟨s2, _, h2.1, h2.2, (h.line _ n _).trans (h.credit _ false _)⟩
        · refine .inl ?_
          split
          · exact (h.rewalk _ n).trans h2.1
          · exact h2.1
      · exact .inl h2.1
      · exact .inl h2.1

/-- What the entry of a record keeps too, a line's turn keeps. -/
theorem lineNews_eq (h : Keeps g) (hj : ∀ (s : State) (r : JournalRecord), g (s.journalEnter r) = g s)
    (old s : State) (n : LineId) : g (State.lineNews old s n) = g s := by
  rcases h.lineNews old s n with e | ⟨u, r, hu, _, e⟩
  · exact e
  · rw [e, hj, hu]

end Keeps

/-! ### The lines -/

/-- A line's turn leaves a station all but its tally. -/
theorem State.lineNews_station (old s : State) (n : LineId) (k : StationId) :
    (State.lineNews old s n).station k =
      { s.station k with tally := ((State.lineNews old s n).station k).tally } := by
  have h : Keeps fun s : State => { s.station k with tally := none } := by
    refine ⟨fun _ _ _ => rfl, fun s j f => ?_⟩
    by_cases e : k = j
    · subst e; simp [State.modTally]
    · simp [State.modTally, State.station_modStation_ne s e]
  have e := h.lineNews_eq (fun s r => by unfold State.journalEnter; split <;> rfl) old s n
  simp only [StationLive.mk.injEq] at e
  cases hv : (State.lineNews old s n).station k
  simp_all

/-- A line's turn enters one record into the journal at most, last (R83, R95). -/
theorem State.lineNews_journal (old s : State) (n : LineId) :
    (State.lineNews old s n).journal = s.journal ∨ ∃ r, (State.lineNews old s n).journal =
      (if s.journal.length < 192 then s.journal else s.journal.tail) ++ [r] := by
  rcases Keeps.lineNews (g := State.journal) ⟨fun _ _ _ => rfl, fun _ _ _ => rfl⟩ old s n with
    e | ⟨u, r, hu, _, e⟩
  · exact .inl e
  · exact .inr ⟨r, by rw [e, State.journalEnter_journal, hu]⟩

/-- A record is among the last `m + 1` of the journal. -/
def State.Recent (s : State) (j : JournalRecord) (m : Nat) : Prop :=
  ∃ before after, s.journal = before ++ j :: after ∧ after.length ≤ m

theorem State.Recent.lineNews {s : State} {j : JournalRecord} {m : Nat} (h : s.Recent j m)
    (hm : m < 191) (old : State) (n : LineId) : (State.lineNews old s n).Recent j (m + 1) := by
  obtain ⟨before, after, e, ha⟩ := h
  rcases State.lineNews_journal old s n with g | ⟨r, g⟩
  · exact ⟨before, after, g.trans e, by omega⟩
  · rw [e] at g
    by_cases hb : before = []
    · subst hb
      refine ⟨[], after ++ [r], ?_, by simp; omega⟩
      rw [g, if_pos (by simp; omega)]
      rfl
    · obtain ⟨x, rest, rfl⟩ := List.exists_cons_of_ne_nil hb
      by_cases hl : (x :: rest ++ j :: after).length < 192
      · exact ⟨x :: rest, after ++ [r], by rw [g, if_pos hl]; simp, by simp; omega⟩
      · exact ⟨rest, after ++ [r], by rw [g, if_neg hl]; simp, by simp; omega⟩

theorem State.Recent.settle {old : State} {j : JournalRecord} (l : List LineId) {s : State} {m : Nat}
    (h : s.Recent j m) (hm : m + l.length < 191) :
    j ∈ (l.foldl (fun s n => State.lineNews old s n) s).journal := by
  induction l generalizing s m with
  | nil =>
    obtain ⟨b, a, e, _⟩ := h
    simp [e]
  | cons n l ih =>
    exact ih (h.lineNews (by omega) old n) (by simp only [List.length_cons] at hm; omega)

/-- A line that is not among those settled is kept. -/
theorem State.settle_line_ne (old : State) (n : LineId) (l : List LineId) (h : n ∉ l) (s : State) :
    (l.foldl (fun s n => State.lineNews old s n) s).line n = s.line n := by
  induction l generalizing s with
  | nil => rfl
  | cons m l ih =>
    simp only [List.mem_cons, not_or] at h
    exact (ih h.2 _).trans ((State.OnlyLine.lineNews old s m).others n h.1)

theorem State.settle_same (old : State) (l : List LineId) (s : State) :
    s.SameButLines (l.foldl (fun s n => State.lineNews old s n) s) ∧
      ∀ k, (l.foldl (fun s n => State.lineNews old s n) s).station k = { s.station k with
        tally := ((l.foldl (fun s n => State.lineNews old s n) s).station k).tally } := by
  induction l generalizing s with
  | nil => exact ⟨.refl s, fun _ => rfl⟩
  | cons n l ih =>
    obtain ⟨h1, h2⟩ := ih (State.lineNews old s n)
    refine ⟨(State.OnlyLine.lineNews old s n).same.trans h1, fun k => ?_⟩
    rw [List.foldl_cons, h2 k, State.lineNews_station old s n k]

/-- The settling of the lines is what the claims say of it (R59, R73). -/
theorem State.linesTake_settleLines (old u : State) :
    State.LinesTake old u (State.settleLines old u) := by
  refine ⟨rfl, State.settleLines_same old u, (State.settle_same old _ u).2, fun n => ?_⟩
  obtain ⟨before, after, e⟩ := List.append_of_mem ((by decide : ∀ n, n ∈ allLines) n)
  have hn : n ∉ before ∧ n ∉ after ∧ after.length ≤ 8 := by
    have hd : (before ++ n :: after).Nodup := e ▸ (by decide : allLines.Nodup)
    have hl : (before ++ n :: after).length = 8 := e ▸ (by decide : allLines.length = 8)
    simp only [List.nodup_append, List.nodup_cons, List.mem_cons, List.length_append,
      List.length_cons] at hd hl
    exact ⟨fun h => hd.2.2 n h n (.inl rfl) rfl, hd.2.1.1, by omega⟩
  refine ⟨before.foldl (fun s n => State.lineNews old s n) u,
    State.settle_line_ne old n _ hn.1 u, (State.settle_same old _ u).1,
    (State.settle_same old _ u).2, ?_, ?_⟩
  · rw [State.settleLines, e, List.foldl_append, List.foldl_cons,
      State.settle_line_ne old n _ hn.2.1]
  · intro j hj
    obtain ⟨b, hb⟩ := List.getLast?_eq_some_iff.1 hj
    rw [State.settleLines, e, List.foldl_append, List.foldl_cons]
    exact State.Recent.settle after ⟨b, [], hb, Nat.le_refl 0⟩ (by omega)

/-! ### The stations -/

/-- A fold of station operations, each of which makes `φ` of the record of its own station. -/
theorem State.stations_fold {f : State → StationId → State} {s0 : State}
    {φ : StationId → StationLive → StationLive}
    (hf : ∀ (s : State) (k : StationId), s0.OnlyStations s → s0.OnlyStations (f s k) ∧
      (f s k).station k = φ k (s.station k) ∧ ∀ m, m ≠ k → (f s k).station m = s.station m)
    (l : List StationId) (hl : l.Nodup) (s : State) (hs : s0.OnlyStations s) :
    s0.OnlyStations (l.foldl f s) ∧ ∀ k, (l.foldl f s).station k =
      if k ∈ l then φ k (s.station k) else s.station k := by
  induction l generalizing s with
  | nil => exact ⟨hs, fun _ => rfl⟩
  | cons j l ih =>
    obtain ⟨h1, h2, h3⟩ := hf s j hs
    simp only [List.nodup_cons] at hl
    obtain ⟨g1, g2⟩ := ih hl.2 _ h1
    refine ⟨g1, fun k => ?_⟩
    rw [List.foldl_cons, g2 k]
    by_cases hk : k = j
    · subst hk; simp [hl.1, h2]
    · simp [hk, h3 k hk]

/-- The state a station derives reads, of the stations, its own state alone (R51). -/
theorem State.derivedState_congr {s t : State} {k : StationId} (h : s.OnlyStations t)
    (hk : (t.station k).state = (s.station k).state) : t.derivedState k = s.derivedState k := by
  rw [h] at hk ⊢
  unfold State.derivedState State.asserted
  simp only [hk]
  rfl

/-- A station that has the derived state derives it again (R51). -/
theorem State.derivedState_fix {s t : State} {k : StationId} (h : s.OnlyStations t)
    (hk : (t.station k).state = s.derivedState k) : t.derivedState k = s.derivedState k := by
  have hd : t.stationDef k = s.stationDef k := by rw [h]; rfl
  have he : ∀ p, t.effective p = s.effective p := fun p => by rw [h]; rfl
  have ha : ∀ p, t.asserted p = s.asserted p := fun p => by
    cases p <;> simp [State.asserted, he]
  unfold State.derivedState at hk ⊢
  simp only [hd, he, ha]
  revert hk
  cases s.stationDef k with
  | none => intro; rfl
  | some d =>
    dsimp only
    cases d.run with
    | none => intro; rfl
    | some p =>
      dsimp only
      cases s.effective p with
      | unsettled => intro; rfl
      | off => intro; rfl
      | on => intro hk; dsimp only at hk ⊢; rw [hk]; cases (s.station k).state <;> rfl

/-- Deriving a station touches its record alone (R51). -/
theorem State.station_derive (s : State) (k : StationId) :
    ((s.derive k).station k = if s.derivedState k = (s.station k).state then s.station k
      else (s.station k).change (s.derivedState k) s.hall s.now (s.stallStart k)) ∧
    ∀ m, m ≠ k → (s.derive k).station m = s.station m := by
  unfold State.derive
  dsimp only
  split
  · exact ⟨rfl, fun _ _ => rfl⟩
  · exact ⟨by simp, fun m hm => State.station_changeStation_ne s hm _⟩

/-- Every degraded flag of `l` is formed (R61). -/
theorem State.stations_refresh (l : List StationId) (hl : l.Nodup) (s : State) :
    s.OnlyStations (l.foldl (fun s k => s.refreshDegraded k) s) ∧
      ∀ k, (l.foldl (fun s k => s.refreshDegraded k) s).station k =
        if k ∈ l then { s.station k with degraded := s.degradedNow k } else s.station k := by
  refine State.stations_fold (s0 := s) (φ := fun k w => { w with degraded := s.degradedNow k })
    (fun t k ht => ⟨ht.trans (.refreshDegraded t k), ?_, fun m hm => ?_⟩) l hl s rfl
  · have e : t.degradedNow k = s.degradedNow k := by rw [ht]; rfl
    simp [State.refreshDegraded, e]
  · simp [State.refreshDegraded, State.station_modStation_ne t hm]

/-- Each station of `l` derives its state (R51). -/
theorem State.stations_derive (l : List StationId) (hl : l.Nodup) (s : State) :
    s.OnlyStations (l.foldl (fun s k => s.derive k) s) ∧
      ∀ k, (l.foldl (fun s k => s.derive k) s).station k =
        if k ∈ l ∧ s.derivedState k ≠ (s.station k).state then
          (s.station k).change (s.derivedState k) s.hall s.now (s.stallStart k)
        else s.station k := by
  have h := State.stations_fold (s0 := s) (f := fun s k => s.derive k)
    (φ := fun k w => if (s.modStation k fun _ => w).derivedState k = w.state then w else
      w.change ((s.modStation k fun _ => w).derivedState k) s.hall s.now (s.stallStart k))
    (fun t k ht => ⟨ht.trans (.derive t k), ?_, (State.station_derive t k).2⟩) l hl s rfl
  · refine ⟨h.1, fun k => ?_⟩
    have e : (s.modStation k fun _ => s.station k).derivedState k = s.derivedState k :=
      State.derivedState_congr rfl (by simp)
    rw [h.2 k, e]
    by_cases hk : k ∈ l <;> by_cases hd : s.derivedState k = (s.station k).state <;> simp [hk, hd]
  · have e : (s.modStation k fun _ => t.station k).derivedState k = t.derivedState k :=
      State.derivedState_congr (s := t) (by
        rw [show t = { s with stations := t.stations } from ht]; rfl) (by simp)
    have e1 : t.hall = s.hall := by rw [ht]; rfl
    have e2 : t.now = s.now := by rw [ht]; rfl
    have e3 : t.stallStart k = s.stallStart k := by rw [ht]; rfl
    rw [(State.station_derive t k).1, e, e1, e2, e3]

/-- What the stations make of the changes of their points that one event made (R10, R51, R61). -/
theorem State.stationsMove (old s : State) (hs : s.stations = old.stations)
    (hc : s.clock.count = old.clock.count) (ho : s.clock.offset = old.clock.offset)
    (hl : s.lines = old.lines) (hg : s.settings.stations = old.settings.stations)
    (hi : s.settings.lines = old.settings.lines) :
    ∃ u, State.settlePoints old s = State.settleLines old u ∧
      u = { s with stations := u.stations } ∧ old.StationsMove u := by
  have nodup : allStations.Nodup := List.nodup_finRange 64
  have mem : ∀ k, k ∈ allStations := List.mem_finRange
  obtain ⟨hv, hvk⟩ := State.stations_refresh allStations nodup s
  generalize hw : allStations.foldl (fun s k => s.refreshDegraded k) s = v at hv hvk
  obtain ⟨hu, huk⟩ := State.stations_derive (allStations.filter fun k => pointsMoved old s k)
    (nodup.filter _) v
  refine ⟨_, by rw [State.settlePoints, hw], hv.trans hu, ?_⟩
  generalize (allStations.filter fun k => pointsMoved old s k).foldl (fun s k => s.derive k) v = u
    at hu huk
  have hsu : s.OnlyStations u := hv.trans hu
  simp only [mem, if_true, List.mem_filter, true_and] at hvk huk
  have hdeg : ∀ k, u.degradedNow k = s.degradedNow k := fun k => by rw [hsu]; rfl
  have hdef : ∀ k, u.stationDef k = s.stationDef k := fun k => by rw [hsu]; rfl
  have heff : ∀ p, u.effective p = s.effective p := fun k => by rw [hsu]; rfl
  have hst : ∀ k, s.station k = old.station k := fun k => by simp [State.station, hs]
  have hclock : v.clock = s.clock := by rw [hv]
  have hnow : v.now = old.clock.count := by rw [State.now, hclock]; exact hc
  have hhall : v.hall = old.hall := by
    simp only [State.hall, State.hallAt, State.now, hclock, hc, ho]
  have hmoved : ∀ k, pointsMoved old s k = true ↔
      ∃ d, u.stationDef k = some d ∧ ∃ p ∈ d.points, u.effective p ≠ old.effective p := by
    intro k
    unfold pointsMoved
    rw [hdef]
    cases s.stationDef k with
    | none => simp
    | some d =>
      simp only [List.any_eq_true, bne_iff_ne, Option.some.injEq, exists_eq_left', heff]
      exact ⟨fun ⟨p, hp, h⟩ => ⟨p, hp, h.symm⟩, fun ⟨p, hp, h⟩ => ⟨p, hp, h.symm⟩⟩
  have hsv : ∀ k, (v.station k).state = (old.station k).state := fun k => by rw [hvk, hst]
  have hchange : ∀ k, (u.station k).state ≠ (old.station k).state →
      u.station k = (v.station k).change (v.derivedState k) old.hall old.clock.count
        (v.stallStart k) ∧ (u.station k).state = v.derivedState k := fun k h => by
    have g := huk k
    by_cases c : pointsMoved old s k = true ∧ v.derivedState k ≠ (v.station k).state
    · rw [if_pos c, hhall, hnow] at g
      exact ⟨g, by rw [g]; exact (StationLive.change_rest _ _ _ _ _).1⟩
    · rw [if_neg c] at g
      exact absurd (by rw [g, hsv]) h
  have hkept : ∀ k, (u.station k).state = (old.station k).state →
      u.station k = { old.station k with degraded := u.degradedNow k } := fun k h => by
    have g := huk k
    by_cases c : pointsMoved old s k = true ∧ v.derivedState k ≠ (v.station k).state
    · rw [if_pos c] at g
      refine absurd ?_ c.2
      rw [hsv, ← h, g]
      exact (StationLive.change_rest _ _ _ _ _).1.symm
    · rw [if_neg c] at g
      rw [g, hvk, hst, hdeg]
  have hfix : ∀ k, (u.station k).state = v.derivedState k →
      (u.station k).state = u.derivedState k := fun k h => by
    rw [State.derivedState_fix hu h, h]
  refine ⟨fun k d hd hp => ?_, fun k h => ?_, fun k h => ?_, fun k d hd hr ho' => ?_, fun k => ?_⟩
  · refine hfix k ?_
    by_cases c : v.derivedState k = (v.station k).state
    · rw [huk, if_neg (fun x => x.2 c), c]
    · rw [huk, if_pos ⟨(hmoved k).2 ⟨d, hd, hp⟩, c⟩]
      exact (StationLive.change_rest _ _ _ _ _).1
  · rcases h with h | h
    · have c : ¬ pointsMoved old s k = true := by
        rw [hmoved]; rintro ⟨d, hd, p, hp, hne⟩; exact hne (h d hd p hp)
      refine hkept k ?_
      rw [huk, if_neg (fun x => c x.1), hsv]
    · exact hkept k h
  · obtain ⟨e, _⟩ := hchange k h
    have r := StationLive.change_rest (v.station k) (v.derivedState k) old.hall old.clock.count
      (v.stallStart k)
    have x := StationLive.entered_change (v.station k) (v.derivedState k) old.hall old.clock.count
      (v.stallStart k)
    rw [← e] at r x
    rw [hvk, hst] at r x
    exact ⟨⟨x.1, x.2, x.3, x.4, x.5⟩, r.2.1, r.2.2.1⟩
  · obtain ⟨e, es⟩ := hchange k (by rw [hr]; exact fun x => ho' x.symm)
    have r := StationLive.change_rest (v.station k) (v.derivedState k) old.hall old.clock.count
      (v.stallStart k)
    rw [← e] at r
    rw [r.2.2.2.2, if_pos (by rw [← es, hr])]
    have hvd : v.stationDef k = some d := by
      rw [show v.stationDef k = s.stationDef k by rw [hv]; rfl, ← hdef]; exact hd
    have hvg : v.settings.stations = old.settings.stations := by rw [hv]; exact hg
    have hvi : v.settings.lines = old.settings.lines := by rw [hv]; exact hi
    have hvl : v.lines = old.lines := by rw [hv]; exact hl
    have hserved : v.stationServed k = old.stationServed k := by
      simp only [State.stationServed, State.lineOf, State.stationDef, State.inService, State.line,
        hvg, hvl]
    have hpace : v.paceSource k = old.paceSource k := by
      unfold State.paceSource State.stationDef State.lineDef
      rw [hvg, hvi]
    unfold State.stallStart State.stallTime
    rw [hvd, hserved, hpace, hnow]
    cases old.stationServed k <;> cases old.paceSource k <;> by_cases e : d.stall = 0 <;> simp [e]
  · by_cases h : (u.station k).state = (old.station k).state
    · rw [hkept k h]
    · obtain ⟨e, _⟩ := hchange k h
      rw [e, (StationLive.change_rest _ _ _ _ _).2.2.2.1, hvk, hdeg]

/-- A pace edge of a STALLED station: the station is RUNNING, with its edge counted and its stop in the
memory, and the lines take that (R52, R53, R60, R73). -/
theorem State.paceEdge_stalled (x : State) (k : StationId) (h : (x.station k).state = .stalled) :
    ∃ u, u = { x with stations := u.stations } ∧
      u.station k = { x.station k with
        state := .running
        stamp := x.hall
        reported := none
        memory := some ⟨.own, 3, x.hall, x.clock.count⟩
        stallExpiry := ((x.paceEdge k).station k).stallExpiry
        tally := ((x.station k).tallyAt x.clock.count).map fun y =>
          { y with pace := min (y.pace + 1) 4294967295 }
        since := x.clock.count } ∧
      (∀ m, m ≠ k → u.station m = x.station m) ∧ State.LinesTake x u (x.paceEdge k) := by
  unfold State.paceEdge
  simp only [h]
  have g := State.linesTake_settleLines x
    ((x.modTally k fun y => { y with pace := saturate (y.pace + 1) }).changeStation k .running)
  refine ⟨_, rfl, ?_, fun m hm => ?_, g⟩
  · rw [g.stations k]
    simp only [State.station_changeStation_same, State.modTally, State.station_modStation_same]
    cases hv : x.station k with
    | mk _ _ _ _ _ _ _ tally _ =>
      rw [hv] at h
      cases tally <;> simp_all [State.now, StationLive.change, StationLive.bookAt,
        StationLive.memoryLeft, StationLive.currentCause, StationLive.tallyAt, StationTally.addTime,
        saturate, Config.countLimit]
  · rw [State.station_changeStation_ne _ hm]
    simp [State.modTally, State.station_modStation_ne _ hm]

end Sys2Proof.Machine
end

