-- ==== Sys2Proof/Laws/PerInstr.lean ====
section
/-! SUPPORT. Statements made of every command, one lemma per constructor. Family `BodyFits`: a
well-formed command's body fits into a frame (R156: at most 240 bytes), and a command that has a body
is a request (R163, R179). -/

namespace Sys2Proof.Laws

/-- A presence byte and its field take one byte more than the field at most. -/
theorem carried_length {α : Type} (value : α → List Byte) (w : Nat) (h : ∀ a, (value a).length = w)
    (c : Carried α) : (c.bytes value).length ≤ w + 1 := by
  unfold Carried.bytes
  split <;> simp [h]

theorem words_length (values : List (BitVec 32)) :
    (values.flatMap bytes32).length = 4 * values.length := by
  induction values with
  | nil => rfl
  | cons v values ih => simp [ih, bytes32]; omega

namespace BodyFits

/-- A well-formed command's body is at most 240 bytes long, and a command with a body is a request. -/
def Statement (i : Instr) : Prop :=
  (i.wellFormed = true → i.body.length ≤ 240) ∧ (i.body ≠ [] → i.request?.isSome = true)

theorem frameComplete (check2 : Byte) : Statement (.frameComplete check2) :=
  ⟨fun _ => Nat.zero_le _, fun h => absurd rfl h⟩

theorem frameGapTimeout : Statement .frameGapTimeout :=
  ⟨fun _ => Nat.zero_le _, fun h => absurd rfl h⟩

theorem replyStart : Statement .replyStart :=
  ⟨fun _ => Nat.zero_le _, fun h => absurd rfl h⟩

theorem replyComplete : Statement .replyComplete :=
  ⟨fun _ => Nat.zero_le _, fun h => absurd rfl h⟩

theorem identify : Statement .identify :=
  ⟨fun _ => Nat.le_of_ble_eq_true rfl, fun _ => rfl⟩

theorem readAlerts : Statement .readAlerts :=
  ⟨fun _ => Nat.le_of_ble_eq_true rfl, fun _ => rfl⟩

theorem setClock (broadcast : Bool) (hallTime : BitVec 48) :
    Statement (.setClock broadcast hallTime) :=
  ⟨fun _ => Nat.le_of_ble_eq_true rfl, fun _ => rfl⟩

theorem readClock : Statement .readClock :=
  ⟨fun _ => Nat.le_of_ble_eq_true rfl, fun _ => rfl⟩

theorem setSchedule (values : List (BitVec 32)) : Statement (.setSchedule values) := by
  refine ⟨fun h => ?_, fun _ => rfl⟩
  have h : values.length ≤ 4 := by simpa [Instr.wellFormed] using h
  have := words_length values
  simp only [Instr.body, List.length_cons]
  omega

theorem defineStation (b : StationField) : Statement (.defineStation b) := by
  refine ⟨fun _ => ?_, fun _ => rfl⟩
  have h := fun c : Carried Byte => carried_length (fun v => [v]) 1 (fun _ => rfl) c
  have h1 := h b.run
  have h2 := h b.fault
  have h3 := h b.block
  have h4 := h b.starve
  have h5 := h b.pace
  simp only [Instr.body, StationField.bytes, List.length_append, List.length_cons, List.length_nil,
    bytes16]
  omega

theorem defineLine (line constraint : Byte) (output : Carried Byte) (rejects : List Byte) :
    Statement (.defineLine line constraint output rejects) := by
  refine ⟨fun h => ?_, fun _ => rfl⟩
  have h2 : rejects.length ≤ 2 := by simp [Instr.wellFormed] at h; exact h.2
  have h1 := carried_length (fun v => [v]) 1 (fun _ => rfl) output
  simp only [Instr.body, List.length_append, List.length_cons, List.length_nil]
  omega

theorem setPointMode (point : Byte) (polarity : Byte) (debounce : Byte) (mode : Byte) (limit : Byte) :
    Statement (.setPointMode point polarity debounce mode limit) :=
  ⟨fun _ => Nat.le_of_ble_eq_true rfl, fun _ => rfl⟩

theorem setCountInput (input edge debounce limit : Byte) (qual : Carried QualField) :
    Statement (.setCountInput input edge debounce limit qual) := by
  refine ⟨fun _ => ?_, fun _ => rfl⟩
  have h := carried_length (fun q : QualField => bytes16 q.offset ++ bytes16 q.width) 4
    (fun _ => rfl) qual
  simp only [Instr.body, List.length_append, List.length_cons, List.length_nil]
  omega

theorem setSlots (entries : List Byte) : Statement (.setSlots entries) := by
  refine ⟨fun h => ?_, fun _ => rfl⟩
  have h : entries.length = 32 := by simpa [Instr.wellFormed] using h
  simp only [Instr.body]
  omega

theorem setCause (code defined category : Byte) (scope : Carried Byte) :
    Statement (.setCause code defined category scope) := by
  refine ⟨fun _ => ?_, fun _ => rfl⟩
  have h := carried_length (fun v => [v]) 1 (fun _ => rfl) scope
  simp only [Instr.body, List.length_append, List.length_cons, List.length_nil]
  omega

theorem setLineTimers (line : Byte) (threshold : BitVec 16) (lookback : BitVec 16) (deadline : BitVec 16) :
    Statement (.setLineTimers line threshold lookback deadline) :=
  ⟨fun _ => Nat.le_of_ble_eq_true rfl, fun _ => rfl⟩

theorem setMonitor (window : Byte) : Statement (.setMonitor window) :=
  ⟨fun _ => Nat.le_of_ble_eq_true rfl, fun _ => rfl⟩

theorem storeSettings : Statement .storeSettings :=
  ⟨fun _ => Nat.le_of_ble_eq_true rfl, fun _ => rfl⟩

theorem recallSettings : Statement .recallSettings :=
  ⟨fun _ => Nat.le_of_ble_eq_true rfl, fun _ => rfl⟩

theorem setGuard (mode : Byte) : Statement (.setGuard mode) :=
  ⟨fun _ => Nat.le_of_ble_eq_true rfl, fun _ => rfl⟩

theorem enableLine (line : Byte) : Statement (.enableLine line) :=
  ⟨fun _ => Nat.le_of_ble_eq_true rfl, fun _ => rfl⟩

theorem disableLine (line : Byte) : Statement (.disableLine line) :=
  ⟨fun _ => Nat.le_of_ble_eq_true rfl, fun _ => rfl⟩

theorem closeShift (line : Byte) : Statement (.closeShift line) :=
  ⟨fun _ => Nat.le_of_ble_eq_true rfl, fun _ => rfl⟩

theorem setRate (line : Byte) (rate : BitVec 32) : Statement (.setRate line rate) :=
  ⟨fun _ => Nat.le_of_ble_eq_true rfl, fun _ => rfl⟩

theorem planBegin (line cause : Byte) (expected : Carried (BitVec 32)) :
    Statement (.planBegin line cause expected) := by
  refine ⟨fun _ => ?_, fun _ => rfl⟩
  have h := carried_length bytes32 4 (fun _ => rfl) expected
  simp only [Instr.body, List.length_append, List.length_cons, List.length_nil]
  omega

theorem planEnd (line : Byte) : Statement (.planEnd line) :=
  ⟨fun _ => Nat.le_of_ble_eq_true rfl, fun _ => rfl⟩

theorem stationFault (station : Byte) (cause : Byte) : Statement (.stationFault station cause) :=
  ⟨fun _ => Nat.le_of_ble_eq_true rfl, fun _ => rfl⟩

theorem classify (key : Key) (cause : Byte) : Statement (.classify key cause) :=
  ⟨fun _ => Nat.le_of_ble_eq_true rfl, fun _ => rfl⟩

theorem holdRecord (key : Key) : Statement (.holdRecord key) :=
  ⟨fun _ => Nat.le_of_ble_eq_true rfl, fun _ => rfl⟩

theorem releaseRecord (key : Key) : Statement (.releaseRecord key) :=
  ⟨fun _ => Nat.le_of_ble_eq_true rfl, fun _ => rfl⟩

theorem fetchRecords (count : Byte) : Statement (.fetchRecords count) :=
  ⟨fun _ => Nat.le_of_ble_eq_true rfl, fun _ => rfl⟩

theorem readLine (line : Byte) : Statement (.readLine line) :=
  ⟨fun _ => Nat.le_of_ble_eq_true rfl, fun _ => rfl⟩

theorem readStation (station : Byte) : Statement (.readStation station) :=
  ⟨fun _ => Nat.le_of_ble_eq_true rfl, fun _ => rfl⟩

theorem readPoints (first : Byte) (count : Byte) : Statement (.readPoints first count) :=
  ⟨fun _ => Nat.le_of_ble_eq_true rfl, fun _ => rfl⟩

theorem readCountInput (input : Byte) : Statement (.readCountInput input) :=
  ⟨fun _ => Nat.le_of_ble_eq_true rfl, fun _ => rfl⟩

theorem readTally (line : Byte) : Statement (.readTally line) :=
  ⟨fun _ => Nat.le_of_ble_eq_true rfl, fun _ => rfl⟩

theorem readStationTally (station : Byte) : Statement (.readStationTally station) :=
  ⟨fun _ => Nat.le_of_ble_eq_true rfl, fun _ => rfl⟩

theorem readOpen (line : Byte) : Statement (.readOpen line) :=
  ⟨fun _ => Nat.le_of_ble_eq_true rfl, fun _ => rfl⟩

theorem readJournalStatus : Statement .readJournalStatus :=
  ⟨fun _ => Nat.le_of_ble_eq_true rfl, fun _ => rfl⟩

theorem readArchive (line : Byte) (depth : Byte) (part : Byte) :
    Statement (.readArchive line depth part) :=
  ⟨fun _ => Nat.le_of_ble_eq_true rfl, fun _ => rfl⟩

theorem readCause (code : Byte) : Statement (.readCause code) :=
  ⟨fun _ => Nat.le_of_ble_eq_true rfl, fun _ => rfl⟩

theorem matrixScan (drive : DriveId) (sense : BitVec 16) : Statement (.matrixScan drive sense) :=
  ⟨fun _ => Nat.zero_le _, fun h => absurd rfl h⟩

theorem chatterWindowEnd : Statement .chatterWindowEnd :=
  ⟨fun _ => Nat.zero_le _, fun h => absurd rfl h⟩

theorem slotTableInstall : Statement .slotTableInstall :=
  ⟨fun _ => Nat.zero_le _, fun h => absurd rfl h⟩

theorem countSample (slot : SlotId) (active : Bool) : Statement (.countSample slot active) :=
  ⟨fun _ => Nat.zero_le _, fun h => absurd rfl h⟩

theorem windowClose (input : InputId) : Statement (.windowClose input) :=
  ⟨fun _ => Nat.zero_le _, fun h => absurd rfl h⟩

theorem stallTimerExpiry (station : StationId) : Statement (.stallTimerExpiry station) :=
  ⟨fun _ => Nat.zero_le _, fun h => absurd rfl h⟩

theorem armedReportExpiry (station : StationId) : Statement (.armedReportExpiry station) :=
  ⟨fun _ => Nat.zero_le _, fun h => absurd rfl h⟩

theorem thresholdExpiry (line : LineId) : Statement (.thresholdExpiry line) :=
  ⟨fun _ => Nat.zero_le _, fun h => absurd rfl h⟩

theorem planOverrun (line : LineId) : Statement (.planOverrun line) :=
  ⟨fun _ => Nat.zero_le _, fun h => absurd rfl h⟩

theorem deadlineExpiry (key : Key) : Statement (.deadlineExpiry key) :=
  ⟨fun _ => Nat.zero_le _, fun h => absurd rfl h⟩

theorem boundaryReached : Statement .boundaryReached :=
  ⟨fun _ => Nat.zero_le _, fun h => absurd rfl h⟩

theorem shiftLengthLimit (line : LineId) : Statement (.shiftLengthLimit line) :=
  ⟨fun _ => Nat.zero_le _, fun h => absurd rfl h⟩

theorem archiveWriteComplete : Statement .archiveWriteComplete :=
  ⟨fun _ => Nat.zero_le _, fun h => absurd rfl h⟩

theorem settingsWriteComplete : Statement .settingsWriteComplete :=
  ⟨fun _ => Nat.zero_le _, fun h => absurd rfl h⟩

theorem powerFail : Statement .powerFail :=
  ⟨fun _ => Nat.zero_le _, fun h => absurd rfl h⟩

theorem resetAssert : Statement .resetAssert :=
  ⟨fun _ => Nat.zero_le _, fun h => absurd rfl h⟩

theorem powerReturn : Statement .powerReturn :=
  ⟨fun _ => Nat.zero_le _, fun h => absurd rfl h⟩

theorem resetRelease : Statement .resetRelease :=
  ⟨fun _ => Nat.zero_le _, fun h => absurd rfl h⟩

theorem warmStart : Statement .warmStart :=
  ⟨fun _ => Nat.zero_le _, fun h => absurd rfl h⟩

theorem coldStart : Statement .coldStart :=
  ⟨fun _ => Nat.zero_le _, fun h => absurd rfl h⟩

theorem characterReceived (byte : Byte) (stopGood : Bool) :
    Statement (.characterReceived byte stopGood) :=
  ⟨fun _ => Nat.zero_le _, fun h => absurd rfl h⟩

end BodyFits

end Sys2Proof.Laws
end

