-- ==== Sys2Proof/Laws/Sampling.lean ====
section
/-! SUPPORT. The beginning of frames (R19, R36), the emptying of window queues (R34), the stored image
with its check (R169), and what interrupted writes leave (R151, R171). -/

namespace Sys2Proof.Machine

/-! ### Frames -/

/-- With no frame to wait for, a frame that begins changes nothing. -/
theorem State.beginFrame_of_frame {s : State} (h : s.awaitsFrame = false) : s.beginFrame = s := by
  cases s
  simp_all [State.beginFrame]

/-- With no frame to wait for, every slot is sampled. -/
theorem State.samples_of_frame {s : State} (h : s.awaitsFrame = false) (slot : SlotId) :
    s.samples slot = true := by
  simp [State.samples, h]

/-- COUNT_SAMPLE of a running part with no frame to wait for (R19, R36). -/
theorem execCountSample_of_frame {s : State} (h : s.awaitsFrame = false)
    (hr : s.power.running = true) (slot : SlotId) (active : Bool) :
    execCountSample slot active s = .next (s.sampleSlot slot active) := by
  simp [execCountSample, hr, State.samples_of_frame h, State.beginFrame_of_frame h]

/-! ### Window queues -/

/-- Emptying the queues of a line touches the windows of its REJECT inputs alone (R34). -/
theorem State.input_emptyQueues (s : State) (n : LineId) (i : InputId) :
    (s.emptyQueues n).input i =
      if i ∈ (s.lineDef n).rejects then { s.input i with windows := [] } else s.input i := by
  simp [State.emptyQueues, State.input]

/-- Emptying the queues of a line changes inputs alone (R34). -/
theorem State.emptyQueues_eq (s : State) (n : LineId) :
    s.emptyQueues n = { s with inputs := (s.emptyQueues n).inputs } := rfl

/-- Dropping windows touches the windows of the inputs not under qualification alone (R27). -/
theorem State.input_dropWindows (s : State) (i : InputId) :
    s.dropWindows.input i =
      if (s.qualified i).isSome then s.input i else { s.input i with windows := [] } := by
  simp [State.dropWindows, State.input]

/-! ### The stored image -/

/-- An image with the check of its contents is GOOD (R169). -/
@[simp] theorem imageExamined_good (g : Settings) :
    imageExamined (some ⟨g, imageCheck g⟩) = .good := by
  simp [imageExamined, Image.damaged]

/-- An image with another check is DAMAGED (R169). -/
theorem imageExamined_damaged {g : Settings} {check : BitVec 16} (h : check ≠ imageCheck g) :
    imageExamined (some ⟨g, check⟩) = .damaged := by
  simp [imageExamined, Image.damaged, h]

/-- The settings a cold start takes from an image with the check of its contents (R172). -/
@[simp] theorem settingsFound_good (g : Settings) :
    settingsFound (some ⟨g, imageCheck g⟩) = g := by
  simp [settingsFound, Image.damaged]

/-- A cold start takes the default settings where the check disagrees (R172). -/
theorem settingsFound_damaged {g : Settings} {check : BitVec 16} (h : check ≠ imageCheck g) :
    settingsFound (some ⟨g, check⟩) = Settings.default := by
  simp [settingsFound, Image.damaged, h]

/-- A check is never its own successor. -/
theorem check_succ_ne (x : BitVec 16) : x + 1 ≠ x := by
  intro h
  have := congrArg (fun y => y - x) h
  simp [BitVec.add_comm x] at this

/-! ### Interrupted writes -/

/-- The check that an interrupted write leaves never agrees (R151, R171). -/
theorem tornCheck_ne (x : BitVec 16) (count : Nat) : tornCheck x count ≠ x := by
  intro h
  have h1 := congrArg BitVec.toNat h
  have := x.isLt
  have one : BitVec.toNat (1 : BitVec 16) = 1 := rfl
  have := Nat.mod_lt (Config.checkGap count) (show 0 < 65535 by decide)
  simp only [tornCheck, BitVec.toNat_add, BitVec.toNat_ofNat] at h1
  omega

/-- The place of an entry whose overwriting was interrupted is damaged (R151). -/
@[simp] theorem Stored.torn_damaged (e : Stored) (count : Nat) : (e.torn count).damaged = true := by
  simp [Stored.damaged, Stored.torn, tornCheck_ne]

/-- The image after an interrupted settings write is damaged (R171). -/
@[simp] theorem tornImage_damaged (new : Settings) (old : Option Image) (count : Nat) :
    (tornImage new old count).damaged = true := by
  simp [Image.damaged, tornImage, tornCheck_ne]

/-- What a cold start finds after a settings write was interrupted (R171). -/
theorem State.imageFound_interrupted {s : State} {rest : List WriteItem}
    (h : s.queue = .settings :: rest) :
    s.imageFound = some (tornImage (s.settingsCopy.getD s.settings) s.image s.now) := by
  simp [State.imageFound, h]

/-- A record of a mixed table is the new one where it was written, and else the old one. -/
@[simp] theorem Tab.get_mix {α : Type} {n : Nat} (written : Nat → Bool) (new old : Vector α n)
    (i : Fin n) : Tab.get (Tab.mix written new old) i =
      if written i.val then Tab.get new i else Tab.get old i := by
  simp [Tab.mix]

/-- A record of a mixed table is the new one or the old one. -/
theorem Tab.get_mix_or {α : Type} {n : Nat} (written : Nat → Bool) (new old : Vector α n)
    (i : Fin n) : Tab.get (Tab.mix written new old) i = Tab.get new i ∨
      Tab.get (Tab.mix written new old) i = Tab.get old i := by
  rw [Tab.get_mix]
  split <;> simp

/-- Settings mixed item by item are part new and part old (R171). -/
theorem Settings.mix_partOf (written : Nat → Nat → Bool) (new old : Settings) :
    (new.mix written old).PartOf new old := by
  have pick {α : Type} (b : Bool) (x y : α) :
      (if b then x else y) = x ∨ (if b then x else y) = y := by
    split <;> simp
  exact
    { points := Tab.get_mix_or (written 0) new.points old.points
      window := pick (written 1 0) new.window old.window
      inputs := Tab.get_mix_or (written 2) new.inputs old.inputs
      slots := pick (written 3 0) new.slots old.slots
      stations := Tab.get_mix_or (written 4) new.stations old.stations
      definitions := fun n d h => by
        subst h
        simp only [Settings.mix, Tab.get_mapAll]
        exact ⟨⟨_, Tab.get_mix_or (written 5) new.lines old.lines n, rfl, rfl, rfl⟩,
          ⟨_, Tab.get_mix_or (written 6) new.lines old.lines n, rfl⟩,
          ⟨_, Tab.get_mix_or (written 7) new.lines old.lines n, rfl, rfl, rfl⟩⟩
      causes := Tab.get_mix_or (written 8) new.causes old.causes
      schedule := pick (written 9 0) new.schedule old.schedule
      storedGuard := pick (written 10 0) new.storedGuard old.storedGuard }

/-- An interrupted settings write over an image leaves part of the new copy and part of the old
(R171). -/
theorem tornImage_partOf (new : Settings) (old : Image) (count : Nat) :
    (tornImage new (some old) count).contents.PartOf new old.contents :=
  Settings.mix_partOf (fun row place => Config.itemWritten row place count) new old.contents

end Sys2Proof.Machine
end

