-- ==== Sys2Proof/Tests/Slice0.lean ====
section
/-! SUPPORT. Tests: what the well-formedness check refuses; for every statement with hypotheses,
states and operands that meet them, at the boundaries of its clauses; and small checks of single
steps. -/

open Sys2Proof Sys2Proof.Machine

namespace Sys2Proof.Tests

set_option Elab.async false

/-! ### Small states -/

/-- The next state of a command. -/
def result (i : Instr) (s : State) : State :=
  match exec i s with
  | .next t => t
  | .fault _ => s
  | .refused _ => s

/-- The reply a command leaves owed. -/
def replyOf (i : Instr) (s : State) : Option Reply := (result i s).link.reply

/-- Stations 0 and 1 form line 0, with station 0 as its constraint; input 0 counts its output and
input 1 its rejects; causes 10 and 11 are defined, the second one planned. -/
def plantSettings : Settings :=
  { Settings.default with
    stations := Tab.set (Tab.set Settings.default.stations 0
      (some ⟨some ⟨0, 0⟩, some 0, some 1, none, none, none, 5⟩)) 1
      (some ⟨some ⟨0, 1⟩, some 2, none, none, none, none, 0⟩)
    lines := Tab.set Settings.default.lines 0
      { LineSettings.default with
        constraint := some 0, output := some 0, rejects := [1], rate := some 3600 }
    inputs := Tab.set Settings.default.inputs 1
      { InputSettings.default with qual := some ⟨10, 20⟩ }
    causes := Tab.set (Tab.set Settings.default.causes 0 (some ⟨.equipment, none⟩)) 1
      (some ⟨.cleaning, none⟩) }

/-- The plant at counter value 1000, its clock set, no line in service. -/
def plant : State :=
  { State.reset with
    settings := plantSettings
    clock := { Clock.cold 10 with count := 1000, offset := 5, isSet := true, windowEnd := 2000 } }

/-- A bank opened at 400 with 500 cs booked in U, its segment in progress begun at 900. -/
def bank (k : Bucket) : Bank :=
  { Bank.create 400 false false k with
    times := Tab.set (Vector.replicate 16 0) 0 500
    segStart := 900 }

/-- An in-service line in shift 7 with a slot and a plan. -/
def lineIn (st : LineState) (k : Bucket) (slot : Option Stoppage) (plan : Option Plan) : LineLive :=
  { LineLive.cold 7 with
    state := st, openStamp := some 405, slot, plan, nextNumber := 2, bank := some (bank k) }

/-- The plant with line 0 as given and station 0 in a state. -/
def withLine (l : LineLive) (st : StationState) : State :=
  { plant with
    lines := Tab.set plant.lines 0 l
    stations := Tab.set plant.stations 0
      { StationLive.cold with state := st, stallExpiry := some 1000, tally := some .zero } }

/-- A stoppage begun at 900 on station 0. -/
def stoppage (kind : StoppageKind) : Stoppage :=
  { kind, startStamp := 905, startCount := 900, entryState := .faulted, serial := 7,
    operatorCause := none, markers := .clear, contributors := [⟨0, 1, .unassigned, 0⟩],
    lastSince := 900, walkStation := 0 }

/-- A plan begun at 900. -/
def plan : Plan :=
  { cause := 11, category := .cleaning, startStamp := 905, expected := some 1, elapsed := 0,
    since := some 900, overrun := false }

/-- Line 0 RUNNING. -/
def running : State :=
  withLine (let l := lineIn .running .u none none
    { l with bank := some { bank .u with runStart := some 900 } }) .running

/-- Line 0 PENDING-STOP, its candidate due now. -/
def pending : State := withLine (lineIn .pendingStop .n (some (stoppage (.candidate 1000))) none) .faulted

/-- Line 0 DOWN with record 1. -/
def down : State := withLine (lineIn .down (.cat .unassigned) (some (stoppage (.record 1))) none) .faulted

/-- Line 0 PLANNED. -/
def planned : State := withLine (lineIn .planned (.cat .cleaning) none (some plan)) .running

/-- A journal record of line 0, shift 7. -/
def record (number : Nat) (st : RecordState) : JournalRecord :=
  { line := 0, serial := 7, number, startStamp := 505, duration := 60, entryState := .faulted,
    state := st, operatorCause := none, markers := .clear,
    contributors := [⟨0, 1, .unassigned, 60⟩] }

/-- The running plant with a journal. -/
def withJournal (j : List JournalRecord) : State := { running with journal := j }

/-- The key of a record of line 0, shift 7. -/
def key (number : BitVec 32) : Key := ⟨0, 7, number⟩

/-- A closed bank of line 0. -/
def closed : ClosedBank :=
  { line := 0, serial := 6, openStamp := 5, closeStamp := 405, reason := .boundary,
    deferred := false, view := (bank .u).view 1000 3600 true, members := [(0, .zero)] }

/-- The running plant with a closed bank of line 0 in the staging buffer. -/
def staged : State :=
  { running with
    lines := Tab.modify running.lines 0 fun l => { l with staging := some closed }
    queue := [.bank 0] }

/-- The plant between a failure at 1000 and its start. -/
def failed (s : State) : State :=
  { result .powerFail s with power := ⟨true, false, false, some 1000, true⟩ }

/-- A part that runs, is READY and has an OPEN guard takes every kind of request. -/
theorem takes {s : State} (h : s.power.running = true ∧ s.link.serving = .ready ∧
    s.guardMode = .opened) (kind : RequestKind) : s.Takes kind :=
  ⟨h.1, h.2.1, fun _ => by simp [guardRefusal, h.2.2]⟩

/-! ### Well-formedness: what the check refuses -/

theorem test_schedule_of_five_is_refused :
    (Instr.setSchedule [0, 1, 2, 3, 4]).wellFormed = false := by decide

theorem test_station_with_absent_values_is_refused :
    let b : StationField :=
      ⟨0, 1, 0, 0, ⟨1, 0⟩, ⟨0, 0⟩, ⟨0, 0⟩, ⟨0, 0⟩, ⟨0, 0⟩, 0⟩
    (Instr.defineStation b).wellFormed = true ∧
    (Instr.defineStation { b with run := ⟨0, 1⟩ }).wellFormed = false ∧
    (Instr.defineStation { b with fault := ⟨0, 1⟩ }).wellFormed = false ∧
    (Instr.defineStation { b with block := ⟨0, 1⟩ }).wellFormed = false ∧
    (Instr.defineStation { b with starve := ⟨0, 1⟩ }).wellFormed = false ∧
    (Instr.defineStation { b with pace := ⟨0, 1⟩ }).wellFormed = false := by decide

theorem test_line_of_three_rejects_is_refused :
    (Instr.defineLine 0 0 ⟨0, 0⟩ [1, 2, 3]).wellFormed = false := by decide

theorem test_line_with_an_absent_output_value_is_refused :
    (Instr.defineLine 0 0 ⟨0, 1⟩ []).wellFormed = false := by decide

theorem test_input_with_absent_qualification_values_is_refused :
    (Instr.setCountInput 0 0 3 0 ⟨0, ⟨1, 0⟩⟩).wellFormed = false := by decide

theorem test_slot_table_of_31_is_refused :
    (Instr.setSlots (List.replicate 31 0)).wellFormed = false := by decide

theorem test_cause_with_an_absent_scope_value_is_refused :
    (Instr.setCause 10 1 0 ⟨0, 1⟩).wellFormed = false := by decide

theorem test_plan_with_an_absent_expected_value_is_refused :
    (Instr.planBegin 0 11 ⟨0, 1⟩).wellFormed = false := by decide

/-! ### Steps, invariants and the bank -/

theorem test_witness_a_command_waits :
    let s : State := { plant with pending := [.identify, .readClock] }
    s.pending = [.identify, .readClock] ∧
      (match step s with
        | .next t => t.pending == [.readClock]
        | .fault _ => false
        | .refused _ => false) = true := by decide +kernel

theorem test_witness_an_idle_part_with_nothing_due :
    plant.pending = [] ∧ plant.dueEvent = none ∧ plant.clock.sub + 1 < 320 ∧
      { plant with clock := { plant.clock with sub := 319 } }.dueEvent = none := by
  decide +kernel

theorem test_sound_settings : plantSettings.Sound :=
  ⟨by decide +kernel, by decide +kernel, by decide +kernel⟩

theorem test_witness_within_capacity : running.WithinCapacity where
  journal := by decide +kernel
  archive := by decide +kernel
  windows := by decide +kernel
  activity := by decide +kernel
  glitches := by decide +kernel
  lost := by decide +kernel
  settings := test_sound_settings
  copy g h := by
    have h : (none : Option Settings) = some g := h
    cases h
  image i h := by
    have h : (none : Option Image) = some i := h
    cases h

theorem test_witness_coherent : running.Coherent ∧ pending.Coherent ∧ down.Coherent ∧
    planned.Coherent ∧ plant.Coherent := by
  unfold State.Coherent
  decide +kernel

theorem test_witness_accounted : running.Accounted ∧ running.clock.count + 1 < 2 ^ 48 := by
  refine ⟨⟨by decide +kernel, by decide +kernel, fun n b hb => ?_⟩, by decide +kernel⟩
  have h : ∀ n, (running.line n).bank.all (fun b => b.accounted running.keptTo) = true := by
    decide +kernel
  simpa [hb] using h n

/-- Line 0 enabled at 1000, the given time later. -/
def enabled (later : Nat) : State :=
  let s := result (.enableLine 0) plant
  { s with clock := { s.clock with count := s.clock.count + later } }

theorem test_witness_tallied : (enabled 100).Tallied ∧ (enabled 100).Coherent ∧
    (enabled 100).keptTo = 1100 := by
  refine ⟨fun n b k hb hk => ?_, by unfold State.Coherent; decide +kernel, by decide +kernel⟩
  have h : ∀ n k, ((enabled 100).line n).bank.all (fun b =>
      (enabled 100).lineOf k != some n || ((enabled 100).station k).tally.any fun y =>
        b.openCount + y.times.toList.sum == ((enabled 100).station k).since &&
          decide (((enabled 100).station k).since ≤ (enabled 100).keptTo)) = true := by
    decide +kernel
  have := h n k
  simp only [hb, Option.all_some, hk, bne_self_eq_false, Bool.false_or, Option.any_eq_true,
    Bool.and_eq_true, beq_iff_eq, decide_eq_true_eq] at this
  exact this

theorem test_witness_reading :
    (bank .u).accounted 900 = true ∧
      (running.bankView 0 (bank .u) 1000).figures.loading = 600 ∧
      (running.bankView 0 (bank .u) 1000).figures.availability = some 10000 ∧
      (running.bankView 0 (bank .u) 1000).figures.performance = none ∧
      (running.bankView 0 (bank (.cat .cleaning)) 900).figures.availability = some 10000 ∧
      (running.bankView 0 (Bank.create 1000 false false .u) 1000).figures.availability = none := by
  decide +kernel

/-- A reading bucket by bucket: the segment in progress is in U, and the running segment is credited. -/
theorem test_witness_reading_of_buckets :
    let b := { bank .u with
      runStart := some 900
      counts := { Counts.zero with t := 3, ideal := 5, remainder := 359999 } }
    let v := running.bankView 0 b 1000
    let idle := running.bankView 0 (bank .n) 1000
    b.accounted 1000 = true ∧ (running.lineDef 0).rate = some 3600 ∧ timeOf v.times .u = 600 ∧
      timeOf v.times .n = 0 ∧ (v.counts.ideal, v.counts.remainder) = (6, 359999) ∧ v.counts.t = 3 ∧
      timeOf idle.times .u = 500 ∧ timeOf idle.times .n = 100 ∧ idle.counts = Counts.zero := by
  decide +kernel

/-- The worked row of chapter 07: T = 1,000 and I = 1,250 with 50 rejects. -/
theorem test_figures :
    let f := figures 600 (Tab.set (Vector.replicate 16 0) 0 540)
      { Counts.zero with t := 1000, j := 50, ideal := 1250 } true
    f.availability = some 9000 ∧ f.performance = some 8000 ∧ f.quality = some 9500 ∧
      f.oee = some 6840 ∧ f.good = 950 ∧ f.overspeed = false ∧ f.rejectExcess = false := by
  decide +kernel

/-! ### The link -/

theorem test_witness_body_reads_back :
    let i := Instr.setSchedule [1, 2, 3, 0xFFFFFFFF]
    i.request? = some .setSchedule ∧ i.wellFormed = true ∧ i.body.length = 17 := by decide

theorem test_witness_not_received :
    (failed plant).power.running = false ∧
      (result .readAlerts plant).link.serving = .serving ∧
      replyOf .identify (result .readAlerts plant) = replyOf .readAlerts plant := by
  decide +kernel

theorem test_witness_guarded :
    let s : State := { plant with guardMode := .keyed }
    RequestKind.setMonitor.guarded = true ∧ s.power.running = true ∧ s.link.serving = .ready ∧
      s.pins.key = false ∧ replyOf (.setMonitor 5) s = some ⟨0xFF, [0x27, 4, 1]⟩ ∧
      replyOf (.setMonitor 5) { s with guardMode := .sealed } = some ⟨0xFF, [0x27, 4, 2]⟩ ∧
      replyOf (.setMonitor 5) { s with pins := { s.pins with key := true } } =
        some ⟨0xA7, [5]⟩ := by
  decide +kernel

theorem test_witness_refused :
    replyOf (.setRate 0 0) plant = some ⟨0xFF, [0x43, 3, 0]⟩ ∧
      replyOf .recallSettings plant = some ⟨0xFF, [0x29, 0x0A, 0]⟩ := by decide +kernel

/-- A definition of station 2 at position 15 of a line. -/
def fieldOf (line : Byte) : StationField :=
  ⟨2, 1, line, 15, ⟨1, 10⟩, ⟨0, 0⟩, ⟨0, 0⟩, ⟨1, 255⟩, ⟨1, 15⟩, 700⟩

theorem test_witness_out_of_range :
    replyOf (.setRate 8 1) plant = some ⟨0xFF, [0x43, 3, 8]⟩ ∧
      replyOf (.stationFault 64 0) plant = some ⟨0xFF, [0x46, 3, 64]⟩ ∧
      replyOf (.readCountInput 16) plant = some ⟨0xFF, [0x63, 3, 16]⟩ ∧
      replyOf (.defineStation { fieldOf 8 with station := 64 }) plant =
        some ⟨0xFF, [0x20, 3, 64]⟩ ∧
      replyOf (.defineStation { fieldOf 8 with position := 16 }) plant =
        some ⟨0xFF, [0x20, 3, 8]⟩ ∧
      replyOf (.defineStation { fieldOf 7 with position := 16, pace := ⟨1, 17⟩ }) plant =
        some ⟨0xFF, [0x20, 3, 16]⟩ ∧
      replyOf (.defineStation { fieldOf 7 with pace := ⟨1, 17⟩ }) plant =
        some ⟨0xFF, [0x20, 3, 17]⟩ ∧
      replyOf (.defineLine 8 64 ⟨1, 16⟩ [17]) plant = some ⟨0xFF, [0x21, 3, 8]⟩ ∧
      replyOf (.defineLine 7 64 ⟨1, 16⟩ [17]) plant = some ⟨0xFF, [0x21, 3, 64]⟩ ∧
      replyOf (.defineLine 7 63 ⟨1, 16⟩ [17]) plant = some ⟨0xFF, [0x21, 3, 16]⟩ ∧
      replyOf (.defineLine 7 0xFF ⟨1, 15⟩ [15, 17]) plant = some ⟨0xFF, [0x21, 3, 17]⟩ ∧
      replyOf (.setSlots ([15, 0xFF] ++ 16 :: List.replicate 29 17)) plant =
        some ⟨0xFF, [0x24, 3, 16]⟩ ∧
      replyOf (.setCause 10 1 0 ⟨1, 64⟩) plant = some ⟨0xFF, [0x25, 3, 64]⟩ ∧
      replyOf (.readArchive 7 8 64) plant = some ⟨0xFF, [0x68, 3, 8]⟩ ∧
      replyOf (.readArchive 7 7 64) plant = some ⟨0xFF, [0x68, 3, 64]⟩ ∧
      replyOf (.readCause 0) plant = some ⟨0xFF, [0x69, 3, 0]⟩ := by decide +kernel

theorem test_witness_receiver :
    let at' (r : Receiver) : State := { plant with link := { plant.link with receiver := r } }
    (result (.characterReceived 0xC5 true) plant).link.receiver = .receiving [] ∧
      (result (.characterReceived 0xC5 false) plant).link.receiver = .hunt ∧
      (result (.characterReceived 0xC4 true) plant).link.receiver = .hunt ∧
      (result (.characterReceived 0xC5 true) (at' .skip)).link.receiver = .skip ∧
      (result (.characterReceived 1 false) (at' (.receiving []))).link.receiver = .skip ∧
      (result (.characterReceived 241 true) (at' (.receiving [1]))).link.receiver = .skip ∧
      (result (.characterReceived 240 true) (at' (.receiving [1]))).link.receiver =
        .receiving [1, 240] ∧
      (result .frameGapTimeout (at' .skip)).link.receiver = .hunt := by decide +kernel

/-- The check of the manual's test string "123456789" (R156). -/
theorem test_check_value :
    crc16 [0x31, 0x32, 0x33, 0x34, 0x35, 0x36, 0x37, 0x38, 0x39] = 0x29B1 := by decide +kernel

/-- A frame with its check. -/
def frame (address kind : Byte) (body : List Byte) : Frame :=
  { address, kind, body,
    check := crc16 (address :: BitVec.ofNat 8 body.length :: kind :: body) }

/-- The part after all of a frame but its second check byte. -/
def heard (s : State) (f : Frame) : State :=
  { s with link := { s.link with
      receiver := .receiving (f.covered ++ [f.check.extractLsb' 8 8]) } }

/-- The part after the last byte of a frame. -/
def judged (s : State) (f : Frame) : State :=
  result (.frameComplete (f.check.extractLsb' 0 8)) (heard s f)

theorem test_witness_frames :
    (judged plant (frame 1 0x01 [])).link.reply = replyOf .identify plant ∧
      (judged plant (frame 1 0x03 [])).link.reply = some ⟨0xFF, [0x03, 1, 0]⟩ ∧
      (judged plant (frame 1 0x27 [])).link.reply = some ⟨0xFF, [0x27, 2, 0]⟩ ∧
      (judged plant (frame 2 0x01 [])).link.reply = none ∧
      (judged plant (frame 0 0x01 [])).link.reply = none ∧
      (judged plant (frame 0 0x10 (bytes48 9))).hall = 9 ∧
      (judged plant (frame 0 0x10 (bytes48 9))).link.reply = none ∧
      (judged plant (frame 0 0x10 [0, 0, 0, 0, 9])).hall = 1005 ∧ plant.link.address = 1 ∧
      (judged plant { frame 1 0x01 [] with check := 0 }).link.reply = none ∧
      (judged (result .readAlerts plant) (frame 1 0x01 [])).link.reply =
        replyOf .readAlerts plant ∧
      (judged plant (frame 1 0x01 [])).link.receiver = .hunt := by
  decide +kernel

theorem test_witness_replies :
    let s := result .identify plant
    s.link.serving = .serving ∧ s.link.reply.isSome = true ∧
      (result .replyStart s).dir = true ∧
      (result .replyComplete (result .replyStart s)).link.serving = .ready := by decide +kernel

/-! ### Alerts and readings -/

theorem test_witness_alerts :
    plant.latched .clockLost = true ∧ (result .identify plant).latched .clockLost = true ∧
      plant.attn = true ∧ replyOf .readAlerts plant = some ⟨0x82, [0x40, 0, 0]⟩ ∧
      replyOf .readAlerts (withJournal [record 1 .lapsed]) = some ⟨0x82, [0x40, 1, 1]⟩ := by
  decide +kernel

theorem test_witness_set_guard :
    replyOf (.setGuard 2) plant = some ⟨0xAA, [2, 0]⟩ ∧
      replyOf (.setGuard 3) plant = some ⟨0xFF, [0x2A, 2, 0]⟩ ∧
      (result (.setGuard 1) plant).settings.storedGuard = .keyed ∧
      replyOf (.setGuard 0) { plant with guardMode := .sealed } = some ⟨0xFF, [0x2A, 4, 2]⟩ ∧
      replyOf (.setGuard 0) { plant with guardMode := .keyed } = some ⟨0xFF, [0x2A, 4, 1]⟩ ∧
      replyOf (.setGuard 0) { plant with guardMode := .keyed, pins := ⟨true, 0⟩ } =
        some ⟨0xAA, [0, 0]⟩ := by decide +kernel

theorem test_witness_readings :
    running.power.running = true ∧ running.link.serving = .ready ∧
      running.inService 0 = true ∧ (running.line 0).bank.isSome = true ∧
      running.inService 7 = false ∧ running.stationServed 0 = true ∧
      ((running.station 0).tallyAt running.clock.count).isSome = true ∧
      running.stationServed 63 = false ∧
      replyOf (.readTally 7) running = some ⟨0xFF, [0x64, 7, 7]⟩ ∧
      replyOf (.readStationTally 63) running = some ⟨0xFF, [0x65, 7, 63]⟩ ∧
      replyOf (.readCause 1) running = some ⟨0xE9, [1, 1, 1, 1, 5, 0]⟩ ∧
      replyOf (.readPoints 255 64) running = some ⟨0xE2, [255, 1, 2, 2, 0]⟩ ∧
      replyOf (.readOpen 0) running = some ⟨0xE6, [0]⟩ := by decide +kernel

theorem test_witness_reported_fields :
    let v : StationLive :=
      { StationLive.cold with
        state := .faulted, stamp := 905, reported := some ⟨10, 5⟩, armed := some ⟨11, 1300⟩
        memory := some ⟨.blocked, 0, 5, 990⟩, tally := some .zero, since := 1000 }
    let s : State := { planned with stations := Tab.set planned.stations 0 v }
    let alone : State := { plant with settings := { plantSettings with
      stations := Tab.set plantSettings.stations 63
        (some ⟨none, none, none, none, none, none, 0⟩) } }
    plant.stationDef 63 = none ∧ replyOf (.readStation 63) plant = some ⟨0xE1, [63, 0]⟩ ∧
      replyOf (.readStation 0) s = some ⟨0xE1, [0, 1, 0, 0] ++ [1, 0, 1, 1, 0, 0, 0] ++ [0, 5] ++
        3 :: [0, 0, 0, 0, 3, 0x89] ++ [10] ++ [1, 10, 0, 0, 0, 0, 0, 5] ++ [1, 11, 1, 0x2C] ++
        [1, 2, 0, 0, 0, 0, 0, 0, 5, 0, 0, 0, 10] ++ [0] ++ 1 :: StationTally.zero.bytes⟩ ∧
      ((replyOf (.readStation 63) alone).map fun r => (r.body.take 3, r.body.length)) =
        some ([63, 1, 0xFF], 24) ∧
      replyOf (.readLine 0) s = some ⟨0xE0, [0, 0, 1, 0, 1, 1] ++ [0, 0, 0x0E, 0x10] ++
        [0, 30, 0, 120, 2, 0x58] ++ 5 :: stamp (s.line 0).stamp ++ [0, 0, 0, 7] ++
        1 :: [0, 0, 0, 0, 1, 0x95] ++ [0, 0, 0, 2] ++ [0, 0, 0, 0, 0] ++
        1 :: [11, 7, 0, 0, 0, 0, 3, 0x89, 1, 0, 0, 0, 1, 0, 0, 0, 100, 0]⟩ ∧
      replyOf (.readPoints 255 0) plant = some ⟨0xE2, [255, 1, 2, 2, 0]⟩ ∧
      ((replyOf (.readPoints 192 65) plant).map fun r => r.body.length) = some 194 ∧
      replyOf (.readCountInput 1) plant = some ⟨0xE3,
        [1, 0, 3, 0, 1, 0, 10, 0, 20, 2, 0, 2, 2, 0, 0, 0, 0, 0, 0, 0]⟩ ∧
      replyOf (.readCountInput 15) plant = some ⟨0xE3,
        [15, 0, 3, 0, 0, 0, 0xFF, 2, 2, 0, 0, 0, 0, 0, 0, 0]⟩ ∧
      replyOf (.readCause 9) plant = some ⟨0xE9, [9, 1, 1, 1, 5, 0]⟩ ∧
      replyOf (.readCause 10) plant = some ⟨0xE9, [10, 0, 1, 1, 0, 0]⟩ ∧
      replyOf (.readCause 12) plant = some ⟨0xE9, [12, 0, 0, 0, 0]⟩ := by decide +kernel

theorem test_witness_archive :
    (staged.line 0).staging = some closed ∧
      replyOf (.readArchive 0 0 0xFF) staged =
        some ⟨0xE8, [0, 0, 1, 0] ++ closed.header ++ closed.view.bytes⟩ ∧
      replyOf (.readArchive 0 0 0) staged =
        some ⟨0xE8, [0, 0, 1, 0] ++ closed.header ++ 0 :: StationTally.zero.bytes⟩ ∧
      replyOf (.readArchive 0 0 63) staged = some ⟨0xFF, [0x68, 0x0A, 0]⟩ ∧
      replyOf (.readArchive 7 7 63) plant = some ⟨0xFF, [0x68, 0x0A, 0]⟩ := by decide +kernel

/-- The running plant with stored entries of line 0, and a closed bank in the staging buffer or
not. -/
def archived (staging : Option ClosedBank) (entries : List Stored) : State :=
  { running with
    lines := Tab.modify running.lines 0 fun l => { l with staging }
    archive := Tab.set running.archive 0 entries }

theorem test_witness_archive_depths :
    let last : Stored := { closed with serial := 1 }.stored
    let s := archived (some closed) (List.replicate 6 closed.stored ++ [last])
    let entryAt (s : State) (place : Nat) : Option Nat :=
      (Tab.get s.archive 0)[place]?.map fun e => e.bank.serial
    entryAt s 0 = some 6 ∧ entryAt s 6 = some 1 ∧ entryAt s 7 = none ∧
      (s.line 0).staging = some closed ∧ (archived none []).line 0 = running.line 0 ∧
      last.bank.tallyOf 0 = some .zero ∧ last.bank.tallyOf 63 = none ∧
      replyOf (.readArchive 0 0 0xFF) (archived none []) = some ⟨0xFF, [0x68, 0x0A, 0]⟩ ∧
      replyOf (.readArchive 0 1 0xFF) staged = some ⟨0xFF, [0x68, 0x0A, 0]⟩ := by
  decide +kernel

theorem test_witness_stored_entries (c : ClosedBank) :
    c.stored.check = crc16 c.stored.bank.contents ∧
      c.stored.check + 1 ≠ crc16 c.stored.bank.contents ∧
      (Tab.get (Tab.set plant.archive 0 [c.stored]) 0)[0]? = some c.stored :=
  ⟨rfl, check_succ_ne _, by simp [Tab.get, Tab.set]⟩

/-! ### Points -/

/-- The plant with point 0 as given. -/
def withPoint (a : PointAcq) : State := { plant with points := Tab.set plant.points 0 a }

/-- A settled point, OFF, with a run and an activity count. -/
def offPoint (run activity : Nat) : PointAcq :=
  { PointAcq.restarted with accepted := .off, run, activity, lastRaw := some false }

/-- A scan of drive line 0 with point 0 conducting or not. -/
def scanned (s : State) (conducting : Bool) : PointAcq :=
  (result (.matrixScan 0 (if conducting then 1 else 0)) s).point 0

theorem test_witness_effective_levels :
    let d : PointSettings := .default
    let a : PointAcq := { offPoint 0 40 with noisy := true, held := some true }
    effectiveLevel d a = .on ∧ effectiveLevel d { a with noisy := false } = .off ∧
      effectiveLevel { d with mode := .live } a = .off ∧
      effectiveLevel { d with mode := .forceOn } a = .on ∧
      effectiveLevel { d with mode := .forceOff } a = .off := by decide

theorem test_witness_scans :
    (scanned (withPoint (offPoint 3 0)) true).run = 4 ∧
      (scanned (withPoint (offPoint 4 0)) true).accepted = .on ∧
      (scanned (withPoint (offPoint 4 0)) true).activity = 1 ∧
      (scanned (withPoint (offPoint 4 255)) true).activity = 255 ∧
      scanned (withPoint (offPoint 0 7)) false = offPoint 0 7 ∧
      (scanned (withPoint (offPoint 4 7)) false).activity = 8 ∧
      (scanned plant true).run = 1 ∧
      (scanned (withPoint { PointAcq.restarted with run := 4, lastRaw := some true }) true).accepted
        = .on := by decide +kernel

theorem test_witness_noisy :
    (scanned (withPoint (offPoint 4 39)) true).noisy = true ∧
      (scanned (withPoint (offPoint 4 39)) true).held = some true ∧
      (scanned (withPoint (offPoint 1 39)) false).held = some false ∧
      (scanned (withPoint (offPoint 4 38)) true).noisy = false := by decide +kernel

/-- Point 0 with a chatter limit, in a mode. -/
def limited (limit : Nat) (a : PointAcq) : State :=
  let s := withPoint a
  { s with settings := { s.settings with
    points := Tab.modify s.settings.points 0 fun d => { d with limit } } }

theorem test_witness_quiet_points :
    let alert (s : State) (conducting : Bool) :=
      (result (.matrixScan 0 (if conducting then 1 else 0)) s).latched .pointNoisy
    alert (limited 8 (offPoint 4 7)) true = true ∧ alert (limited 8 (offPoint 1 7)) false = true ∧
      alert (limited 9 (offPoint 4 7)) true = false ∧
      alert (limited 7 (offPoint 4 7)) true = false ∧
      alert (limited 0 (offPoint 4 7)) true = false ∧
      alert (limited 8 (offPoint 0 7)) false = false ∧
      alert (limited 8 (offPoint 3 7)) true = false ∧
      alert (limited 255 (offPoint 4 254)) true = true ∧
      alert (limited 256 (offPoint 4 255)) true = false ∧
      (scanned (limited 0 (offPoint 4 255)) true).noisy = false ∧
      (scanned (limited 8 { offPoint 0 7 with noisy := true }) false).noisy = true ∧
      alert (limited 1 { PointAcq.restarted with run := 4, lastRaw := some true }) true = false := by
  decide +kernel

theorem test_witness_limit_reached :
    PointAcq.ReachesLimit (offPoint 4 7) { PointSettings.default with limit := 8 } true ∧
      PointAcq.ReachesLimit (offPoint 1 7) { PointSettings.default with limit := 8 } false ∧
      ¬ PointAcq.ReachesLimit (offPoint 0 7) { PointSettings.default with limit := 8 } false ∧
      ¬ PointAcq.ReachesLimit (offPoint 4 7) { PointSettings.default with limit := 0 } true ∧
      ¬ PointAcq.ReachesLimit .restarted .default true := by
  unfold PointAcq.ReachesLimit
  decide +kernel

theorem test_witness_window_end :
    let s : State :=
      { withPoint { offPoint 0 39 with noisy := true } with
        clock := { plant.clock with windowEnd := 1000 } }
    let input (glitches limit : Nat) : InputAcq :=
      ({ InputAcq.cold with noisy := true, glitches } : InputAcq).windowEnd
        { InputSettings.default with limit }
    s.clock.windowEnd ≤ s.clock.count ∧ ((result .chatterWindowEnd s).point 0).noisy = false ∧
      (result .chatterWindowEnd s).clock.windowEnd = 2000 ∧ (input 2 3).noisy = false ∧
      (input 3 3).noisy = true := by decide +kernel

/-- A cleared point discards its held level, its station follows the accepted one, and the line takes
that; at the limit nothing moves. -/
theorem test_witness_window_end_reaches_the_line :
    let s (activity : Nat) : State := { running with
      points := Tab.set running.points 0
        { offPoint 0 activity with noisy := true, held := some true }
      clock := { running.clock with windowEnd := 1000 } }
    let t (activity : Nat) := result .chatterWindowEnd (s activity)
    (s 39).effective 0 = .on ∧ (t 39).effective 0 = .off ∧ ((t 39).point 0).held = none ∧
      ((t 39).station 0).state = .halted ∧ ((t 39).station 0).degraded = false ∧
      ((t 39).line 0).state = .pendingStop ∧ ((t 40).point 0).held = some true ∧
      ((t 40).station 0).state = .running ∧ ((t 40).station 0).degraded = true ∧
      ((t 40).line 0).state = .running := by decide +kernel

theorem test_witness_point_mode :
    replyOf (.setPointMode 0 2 0 0 0) plant = some ⟨0xFF, [0x22, 2, 1]⟩ ∧
      replyOf (.setPointMode 0 1 0 4 0) plant = some ⟨0xFF, [0x22, 2, 3]⟩ ∧
      replyOf (.setPointMode 255 1 0 3 9) plant = some ⟨0xA2, [255, 1, 1, 3, 9]⟩ ∧
      replyOf (.setPointMode 0 0 255 1 40) plant = some ⟨0xA2, [0, 0, 250, 1, 40]⟩ ∧
      replyOf (.setMonitor 0) plant = some ⟨0xA7, [1]⟩ ∧
      replyOf (.setMonitor 61) plant = some ⟨0xA7, [60]⟩ := by decide +kernel

/-- Point 0 after a SET-POINT-MODE, the point being as given before it. -/
def remoded (a : PointAcq) (debounce mode limit : Byte) : PointAcq :=
  (result (.setPointMode 0 0 debounce mode limit) (withPoint a)).point 0

theorem test_witness_changed_points :
    let unsettled := { PointAcq.restarted with run := 4, lastRaw := some true }
    let noisy := { offPoint 0 40 with noisy := true }
    PointMode.holdOnNoise.code = 1 ∧ plant.pointDef 0 = .default ∧
      remoded (offPoint 4 7) 4 1 40 = { offPoint 0 8 with accepted := .on } ∧
      (remoded (offPoint 4 255) 4 1 40).activity = 255 ∧
      remoded (offPoint 3 7) 4 1 40 = offPoint 3 7 ∧
      (remoded unsettled 4 1 40).accepted = .on ∧
      (remoded (offPoint 0 7) 5 1 7).noisy = true ∧
      (remoded (offPoint 0 7) 5 1 7).held = some false ∧
      (result (.setPointMode 0 0 5 1 7) (withPoint (offPoint 0 7))).latched .pointNoisy = true ∧
      (remoded (offPoint 0 7) 5 1 8).noisy = false ∧
      (remoded noisy 5 1 0).noisy = false ∧ (remoded noisy 5 1 41).noisy = true ∧
      (remoded { noisy with held := some true } 5 0 40).held = none ∧
      (noisy.newMode .default).held = some false ∧
      remoded (offPoint 4 7) 5 1 40 = offPoint 4 7 ∧
      (result (.setPointMode 0 1 5 1 40) (withPoint (offPoint 4 7))).point 0 =
        PointAcq.restarted := by
  decide +kernel

/-- A forced point moves its station and marks it, and the line takes both. -/
theorem test_witness_forced_points :
    let s : State := { running with
      points := Tab.set running.points 0 { offPoint 0 7 with accepted := .on } }
    let t := result (.setPointMode 0 0 5 3 40) s
    (t.station 0).state = .halted ∧ (t.station 0).degraded = true ∧
      (t.station 1).degraded = false ∧ (t.line 0).state = .pendingStop ∧
      (t.line 0).slot.map (fun r => r.markers.degraded) = some true ∧ t.alerts = s.alerts ∧
      (result (.setPointMode 0 0 5 1 7) s).alerts = s.alerts ||| 0x01 ∧
      ((result (.setPointMode 0 0 5 1 7) s).station 0).degraded = true ∧
      ((result (.setPointMode 0 0 5 1 7) s).line 0).state = .running := by decide +kernel

theorem test_witness_debounce_reaches_the_limit :
    let set (s : State) (debounce limit : Byte) := result (.setPointMode 0 0 debounce 1 limit) s
    let noisy (s : State) := ((s.point 0).noisy, s.latched .pointNoisy)
    noisy (set (limited 8 (offPoint 4 7)) 4 8) = (true, true) ∧
      noisy (set (limited 9 (offPoint 4 7)) 4 9) = (false, false) ∧
      noisy (set (limited 0 (offPoint 4 7)) 4 0) = (false, false) ∧
      noisy (set (limited 8 (offPoint 3 7)) 4 8) = (false, false) ∧
      noisy (set (limited 8 (offPoint 4 7)) 5 8) = (false, false) ∧
      noisy (set (limited 8 (offPoint 4 7)) 5 7) = (true, true) ∧
      noisy (set (limited 7 { offPoint 4 7 with noisy := true }) 5 0) = (false, false) ∧
      replyOf (.setPointMode 0 2 0 4 0) plant = some ⟨0xFF, [0x22, 2, 1]⟩ := by decide +kernel

/-! ### Count inputs -/

/-- A state with input `i` as given. -/
def withInput (s : State) (i : InputId) (a : InputAcq) : State :=
  { s with inputs := Tab.set s.inputs i a }

/-- An IDLE input with a run. -/
def idleInput (run : Nat) : InputAcq :=
  { InputAcq.cold with accepted := .off, run, lastSample := some false }

theorem test_witness_samples :
    Tab.get plant.installed 0 = some 0 ∧ Tab.get plant.installed 16 = some 0 ∧
      ((result (.countSample 0 false) (withInput plant 0 (idleInput 0))).input 0) = idleInput 0 ∧
      ((result (.countSample 0 true) (withInput plant 0 (idleInput 1))).input 0).run = 2 ∧
      ((result (.countSample 0 false) (withInput plant 0 (idleInput 1))).input 0).glitches = 1 ∧
      ((result (.countSample 0 true) plant).input 0).run = 1 ∧
      ((result (.countSample 0 true) (withInput plant 0
        { InputAcq.cold with run := 2, lastSample := some true })).input 0).accepted = .on ∧
      Tab.get (result (.setSlots (List.replicate 32 0xFF)) { plant with
        settings := Settings.default }).settings.slots 0 = none := by decide +kernel

theorem test_witness_glitches_and_frames :
    let s (glitches limit : Nat) (waits noisy : Bool) : State :=
      { withInput running 0 { idleInput 1 with glitches, noisy } with
        awaitsFrame := waits
        settings := { plantSettings with
          inputs := Tab.modify plantSettings.inputs 0 fun d => { d with limit } } }
    let t (glitches limit : Nat) (noisy : Bool) :=
      result (.countSample 0 false) (s glitches limit false noisy)
    let marked (s : State) := (s.line 0).bank.map Bank.countNoisy
    running.servedLine 0 = some 0 ∧ running.awaitsFrame = false ∧
      ((t 254 255 false).input 0).glitches = 255 ∧ ((t 254 255 false).input 0).noisy = true ∧
      (t 254 255 false).latched .countNoisy = true ∧ marked (t 254 255 false) = some true ∧
      marked (t 254 255 true) = some false ∧ ((t 255 9 false).input 0).glitches = 255 ∧
      (t 2 9 false).latched .countNoisy = false ∧ ((t 2 9 false).input 0).glitches = 3 ∧
      ((result (.countSample 16 true) (s 0 0 true false)).input 0).run = 1 ∧
      ((result (.countSample 0 true) (s 0 0 true false)).input 0).run = 2 ∧
      (result (.countSample 0 true) (s 0 0 true false)).awaitsFrame = false := by decide +kernel

/-- Station 0 in a state, with a PACE input of its own or none, and line 0 as given. -/
def paced (pace : Option InputId) (st : StationState) (l : LineLive) : State :=
  { withLine l st with
    settings := { plantSettings with
      stations := Tab.modify plantSettings.stations 0 fun d => d.map fun d => { d with pace } } }

theorem test_witness_counting_edges :
    let against := result (.countSample 0 false)
      (withInput running 0 { idleInput 2 with accepted := .on })
    ((result (.countSample 0 true) (withInput plant 0 (idleInput 2))).input 0).raw = 1 ∧
      (((result (.countSample 0 true) (withInput planned 0 (idleInput 2))).line 0).bank.map
        fun b => b.counts.c) = some 1 ∧
      ((result (.countSample 0 true) (withInput running 0 (idleInput 2))).input 1).windows =
        [⟨320320, 320960⟩] ∧ running.roleOf 0 = .output 0 ∧ running.roleOf 2 = .none ∧
      plant.roleOf 0 = .output 0 ∧ plant.inService 0 = false ∧
      (running.inputDef 0).edge = .leading ∧ against.input 0 = idleInput 0 ∧
      against.lines = running.lines ∧ (against.input 1).windows = [] := by
  decide +kernel

theorem test_witness_pace_edges :
    let edge (i : InputId) (s : State) :=
      result (.countSample (Fin.ofNat 32 i.val) true) (withInput s i (idleInput 2))
    let stalled := lineIn .pendingStop .n (some (stoppage (.candidate 2000))) none
    let own := paced (some 5) .running (running.line 0)
    let timer (s : State) := (s.station 0).stallExpiry
    let pace (s : State) := (s.station 0).tally.map StationTally.pace
    let t (s : State) := (s.line 0).bank.map fun b => b.counts.t
    running.paceSource 0 = some 0 ∧ own.paceSource 0 = some 5 ∧ own.roleOf 5 = .pace 0 ∧
      own.stationServed 0 = true ∧ (paced (some 5) .running (plant.line 0)).stationServed 0 = false ∧
      t (edge 0 running) = some 1 ∧ timer (edge 0 running) = some 1500 ∧
      pace (edge 0 running) = some 1 ∧ t (edge 0 own) = some 1 ∧ timer (edge 0 own) = some 1000 ∧
      pace (edge 0 own) = some 0 ∧ timer (edge 5 own) = some 1500 ∧ pace (edge 5 own) = some 1 ∧
      t (edge 5 own) = some 0 ∧
      ((edge 5 (paced (some 5) .stalled stalled)).station 0).state = .running ∧
      ((edge 5 (paced (some 5) .stalled stalled)).station 0).memory = some ⟨.own, 3, 1005, 1000⟩ ∧
      ((edge 5 (paced (some 5) .stalled stalled)).line 0).state = .running ∧
      ((edge 0 (paced none .stalled stalled)).line 0).state = .running ∧
      pace (edge 5 (paced (some 5) .halted stalled)) = some 1 ∧
      pace (edge 5 (paced (some 5) .running (plant.line 0))) = some 0 := by decide +kernel

/-- The line takes the return of its STALLED constraint, from the state in which the edge counts. -/
theorem test_witness_pace_edge_of_a_stalled_constraint :
    let s := withInput (paced none .stalled
      (lineIn .pendingStop .n (some (stoppage (.candidate 2000))) none)) 0 (idleInput 2)
    let t := result (.countSample 0 true) s
    s.paceSource 0 = some 0 ∧ s.stationServed 0 = true ∧ (t.line 0).slot = none ∧
      (t.line 0).bank.map (fun b => (b.counts.t, b.counts.micro, b.time .m)) = some (1, 1, 100) ∧
      (t.station 0).tally.map (fun y => (y.pace, y.rootMicro, Tab.get y.times 2)) =
        some (1, 100, 1000) ∧ (t.station 0).since = 1000 := by decide +kernel

theorem test_witness_reject_edges :
    let w : Window := ⟨320000, 320640⟩
    let s := withInput running 1 { idleInput 2 with windows := [w] }
    running.qualified 1 = some ⟨10, 20⟩ ∧ w.openAt s.moment = true ∧
      Window.openAt ⟨320001, 320640⟩ s.moment = false ∧
      (((s.rejectEdge 1 0).line 0).bank.map fun b => b.counts.j) = some 1 ∧
      ((s.rejectEdge 1 0).input 1).windows = [] ∧
      (((running.rejectEdge 1 0).line 0).bank.map fun b => b.counts.stray) = some 1 ∧
      (planned.line 0).state = .planned ∧ planned.qualified 1 = some ⟨10, 20⟩ := by
  decide +kernel

theorem test_witness_window_queues :
    let full (n : Nat) : List Window := (List.range n).map fun j => ⟨j, 999999⟩
    let after (n : Nat) := ((result (.countSample 0 true) (withInput (withInput running 0
      (idleInput 2)) 1 { idleInput 0 with windows := full n })).input 1).windows
    let plain (s : State) : State := { s with settings := { s.settings with
      inputs := Tab.set s.settings.inputs 1 .default } }
    after 7 = full 7 ++ [⟨320320, 320960⟩] ∧ after 8 = (full 8).tail ++ [⟨320320, 320960⟩] ∧
      (plain running).qualified 1 = none ∧
      ((((plain running).rejectEdge 1 0).line 0).bank.map fun b => b.counts.j) = some 1 ∧
      ((((plain planned).rejectEdge 1 0).line 0).bank.map fun b => b.counts.j) = some 0 ∧
      running.roleOf 1 = .reject 0 ∧ Tab.get running.installed 1 = some 1 ∧
      (((result (.countSample 1 true) (withInput (plain running) 1 (idleInput 2))).line 0).bank.map
        fun b => b.counts.j) = some 1 := by decide +kernel

theorem test_witness_windows_and_slots :
    let s := withInput plant 1 { idleInput 0 with windows := [⟨0, 320000⟩, ⟨0, 320001⟩] }
    ((result (.windowClose 1) s).input 1).windows = [⟨0, 320001⟩] ∧
      (result .slotTableInstall (result (.setSlots (List.replicate 32 1)) s)).input 0 =
        { InputAcq.cold with accepted := .unsettled } ∧
      (result .slotTableInstall { s with awaitsFrame := true }).awaitsFrame = false := by
  decide +kernel

theorem test_witness_input_settings :
    plant.servedLine 1 = none ∧ running.servedLine 0 = some 0 ∧
      replyOf (.setCountInput 15 1 0 9 ⟨0, ⟨0, 0⟩⟩) plant = some ⟨0xA3, [15, 1, 1, 9, 0]⟩ ∧
      replyOf (.setCountInput 1 0 16 9 ⟨1, ⟨0xFFFF, 0⟩⟩) plant =
        some ⟨0xA3, [1, 0, 15, 9, 1, 0x0F, 0xFF, 0, 1]⟩ ∧
      replyOf (.setCountInput 0 2 3 0 ⟨2, ⟨0, 0⟩⟩) running = some ⟨0xFF, [0x23, 2, 1]⟩ ∧
      replyOf (.setCountInput 0 1 3 0 ⟨2, ⟨0, 0⟩⟩) running = some ⟨0xFF, [0x23, 2, 4]⟩ ∧
      replyOf (.setCountInput 0 1 3 0 ⟨1, ⟨0, 0⟩⟩) running = some ⟨0xFF, [0x23, 6, 0]⟩ ∧
      replyOf (.setCountInput 0 1 3 0 ⟨0, ⟨0, 0⟩⟩) plant = some ⟨0xA3, [0, 1, 3, 0, 0]⟩ ∧
      replyOf (.setSlots (List.replicate 32 1)) running = some ⟨0xFF, [0x24, 8, 0]⟩ ∧
      replyOf (.setSlots (List.replicate 32 0)) running = some ⟨0xFF, [0x24, 8, 1]⟩ ∧
      replyOf (.setSlots (List.replicate 32 15)) running = some ⟨0xFF, [0x24, 8, 0]⟩ ∧
      replyOf (.setSlots (0 :: 1 :: List.replicate 30 0xFF)) running =
        some ⟨0xA4, 0 :: 1 :: List.replicate 30 0xFF⟩ := by
  decide +kernel

/-- The running plant, input 0 as given with a glitch limit of 9, after a SET-COUNT-INPUT of it. -/
def retuned (a : InputAcq) (debounce limit : Byte) : State :=
  result (.setCountInput 0 0 debounce limit ⟨0, ⟨0, 0⟩⟩) { withInput running 0 a with
    settings := { plantSettings with
      inputs := Tab.modify plantSettings.inputs 0 fun d => { d with limit := 9 } } }

theorem test_witness_changed_inputs :
    let counted (s : State) := (s.line 0).bank.map fun b => (b.counts.t, b.countNoisy)
    let input (s : State) := s.input 0
    let noisy : InputAcq := { idleInput 0 with glitches := 5, noisy := true }
    let quiet : InputAcq := { idleInput 0 with glitches := 5 }
    let unsettled := { InputAcq.cold with run := 2, lastSample := some true }
    input (retuned (idleInput 2) 2 9) = { idleInput 0 with accepted := .on, raw := 1 } ∧
      counted (retuned (idleInput 2) 2 9) = some (1, false) ∧
      ((retuned (idleInput 2) 2 9).input 1).windows = [⟨320320, 320960⟩] ∧
      input (retuned { idleInput 2 with accepted := .on } 2 9) = idleInput 0 ∧
      counted (retuned { idleInput 2 with accepted := .on } 2 9) = some (0, false) ∧
      input (retuned (idleInput 2) 3 9) = idleInput 2 ∧
      input (retuned (idleInput 1) 2 9) = idleInput 1 ∧
      input (retuned unsettled 2 9) = { unsettled with accepted := .on, run := 0 } ∧
      input (retuned unsettled 4 9) = unsettled ∧
      input (retuned noisy 3 0) = quiet ∧ input (retuned noisy 3 6) = noisy ∧
      input (retuned quiet 3 6) = quiet ∧ input (retuned quiet 3 5) = noisy ∧
      (retuned quiet 3 5).latched .countNoisy = true ∧
      (retuned quiet 3 6).latched .countNoisy = false ∧
      counted (retuned quiet 3 5) = some (0, true) ∧
      counted (retuned noisy 3 5) = some (0, false) := by decide +kernel

theorem test_witness_changed_qualification :
    let s := withInput running 1 { idleInput 2 with windows := [⟨0, 999999⟩] }
    let t (offset : BitVec 16) :=
      result (.setCountInput 1 0 3 0 ⟨1, ⟨offset, 20⟩⟩) s
    (s.inputDef 1).qual = some ⟨10, 20⟩ ∧ ((t 11).input 1).windows = [] ∧
      (t 11).settings.inputs ≠ s.settings.inputs ∧
      (t 10).inputs = s.inputs ∧ (t 10).settings.inputs = s.settings.inputs ∧
      (t 10).lines = s.lines ∧ (t 10).alerts = s.alerts := by decide +kernel

/-! ### Clock, schedule, settings, causes -/

theorem test_witness_clock :
    let s : State :=
      { running with
        settings := { plantSettings with schedule := [2000] }
        clock := { plant.clock with nextBoundary := some 2000 } }
    (result (.setClock true 1999) s).clock.lastBoundary = none ∧
      (result (.setClock true 2000) s).clock.lastBoundary = some 2000 ∧
      (result (.setClock true 2000) s).clock.nextBoundary = some 8642000 ∧
      ((result (.setClock true 2000) s).line 0).serial = 8 ∧
      ((result (.setClock true 2000) { s with
        lines := Tab.modify s.lines 0 fun l => { l with staging := some closed } }).line
          0).deferred = true ∧
      lastBoundaryBy [2000] 2000 = some 2000 ∧ (result (.setClock false 5) plant).hall = 5 := by
  decide +kernel

theorem test_witness_schedule :
    (scheduleTaken [1, 863999]).Pairwise (· < ·) ∧
      (result (.setSchedule [1, 863999]) plant).settings.schedule = [10, 8639990] ∧
      (result (.setSchedule [1, 863999]) plant).clock.nextBoundary = some 8639990 ∧
      replyOf (.setSchedule [863999, 864000]) plant = some ⟨0xFF, [0x12, 2, 5]⟩ ∧
      replyOf (.setSchedule [0, 1, 2, 3, 4]) plant = some ⟨0xFF, [0x12, 2, 21]⟩ ∧
      replyOf (.setSchedule []) plant = some ⟨0x92, [0]⟩ := by decide +kernel

theorem test_witness_store :
    let s := result .storeSettings plant
    s.queue = [.settings] ∧ s.settingsCopy.map Settings.window = some 10 ∧ s.link.reply = none ∧
      replyOf .settingsWriteComplete s = some ⟨0xA8, [1, 0]⟩ ∧
      (result .settingsWriteComplete s).image.map (fun i => i.contents.window) = some 10 ∧
      (result .settingsWriteComplete s).link.serving = .replying := by decide +kernel

/-- The plant with an image. -/
def imaged (check : BitVec 16) : State :=
  { plant with image := some ⟨{ plantSettings with window := 7 }, check⟩ }

theorem test_witness_recall (g : Settings) :
    replyOf .recallSettings running = some ⟨0xFF, [0x29, 6, 0]⟩ ∧
      (∀ check, (imaged check).Takes .recallSettings ∧ ∀ n, (imaged check).inService n = false) ∧
      imageExamined (some ⟨g, crc16 (Config.imageLayout g)⟩) = .good ∧
      crc16 (Config.imageLayout g) + 1 ≠ crc16 (Config.imageLayout g) ∧
      imageExamined (some ⟨g, crc16 (Config.imageLayout g) + 1⟩) = .damaged ∧
      (plant.recall { plantSettings with window := 7 }).settings.window = 7 ∧
      (plant.recall plantSettings).awaitsFrame = true := by
  refine ⟨by decide +kernel, fun check => ⟨takes ⟨rfl, rfl, rfl⟩ _, ?_⟩, imageExamined_good g,
    check_succ_ne _, imageExamined_damaged (check_succ_ne _), by decide +kernel,
    by decide +kernel⟩
  have h : ∀ n, plant.inService n = false := by decide +kernel
  exact h

theorem test_witness_causes :
    replyOf (.setCause 9 1 0 ⟨0, 0⟩) plant = some ⟨0xFF, [0x25, 3, 9]⟩ ∧
      replyOf (.setCause 10 0 0 ⟨0, 0⟩) plant = some ⟨0xA5, [10, 0, 0, 0]⟩ ∧
      replyOf (.setCause 10 1 5 ⟨0, 0⟩) plant = some ⟨0xFF, [0x25, 0x0E, 10]⟩ ∧
      replyOf (.setCause 10 1 6 ⟨1, 0⟩) plant = some ⟨0xFF, [0x25, 0x0E, 10]⟩ ∧
      replyOf (.setCause 255 1 4 ⟨1, 63⟩) plant = some ⟨0xA5, [255, 1, 1, 4, 1, 63]⟩ ∧
      replyOf (.setCause 255 1 10 ⟨0, 0⟩) plant = some ⟨0xA5, [255, 1, 1, 10, 0]⟩ := by
  decide +kernel

theorem test_witness_malformed_causes :
    replyOf (.setCause 10 1 11 ⟨0, 0⟩) plant = some ⟨0xFF, [0x25, 2, 2]⟩ ∧
      replyOf (.setCause 255 1 255 ⟨2, 63⟩) plant = some ⟨0xFF, [0x25, 2, 2]⟩ ∧
      replyOf (.setCause 10 1 10 ⟨2, 63⟩) plant = some ⟨0xFF, [0x25, 2, 3]⟩ ∧
      replyOf (.setCause 10 1 5 ⟨255, 0⟩) plant = some ⟨0xFF, [0x25, 2, 3]⟩ ∧
      replyOf (.setCause 10 1 11 ⟨2, 64⟩) plant = some ⟨0xFF, [0x25, 3, 64]⟩ ∧
      replyOf (.setCause 10 0 11 ⟨2, 64⟩) plant = some ⟨0xA5, [10, 0, 0, 0]⟩ := by decide +kernel

/-! ### Stations -/

theorem test_witness_station_definitions :
    (result (.defineStation (fieldOf 0)) plant).stationDef 2 =
        some ⟨some ⟨0, 15⟩, some 10, none, none, some 255, some 15, 600⟩ ∧
      (result (.defineStation (fieldOf 0xFF)) plant).stationDef 2 =
        some ⟨none, none, none, none, none, none, 600⟩ ∧
      (result (.defineStation { fieldOf 0 with defined := 0 }) plant).stationDef 2 = none ∧
      replyOf (.defineStation { fieldOf 0 with station := 0, defined := 0 }) running =
        some ⟨0xFF, [0x20, 6, 0]⟩ ∧
      plant.lineOf 2 = none ∧ plant.inService 0 = false ∧ plant.roleOf 15 = .none ∧
      ((plant.members 0).filter (· != 2)).length = 2 ∧ (fieldPoints (fieldOf 0)).Nodup ∧
      plant.positionIn 0 1 = some 1 := by decide +kernel

theorem test_witness_stations_refused :
    let b := fieldOf 0
    let reply (b : StationField) (s : State) : Option (List Byte) :=
      (replyOf (.defineStation b) s).map Reply.body
    let full (count : Nat) : State := { plant with settings := { plantSettings with
      stations := Tab.mapAll (fun k d => if 3 ≤ k.val ∧ k.val < 3 + count then
        some ⟨some ⟨0, Fin.ofNat 16 (k.val - 1)⟩, none, none, none, none, none, 0⟩ else d)
        plantSettings.stations } }
    reply { b with station := 0, line := 0xFF } running = some [0x20, 6, 0] ∧
      reply { b with station := 0, line := 7 } running = some [0x20, 6, 0] ∧
      reply b running = some [0x20, 6, 0] ∧ running.lineOf 2 = none ∧
      reply b (full 10) = some [0x20, 8, 0] ∧ reply b (full 9) = reply b plant ∧
      ((full 10).members 0).length = 12 ∧ ((full 9).members 0).length = 11 ∧
      reply { b with position := 1 } plant = some [0x20, 8, 1] ∧
      reply { b with station := 1, position := 1, run := ⟨1, 2⟩ } plant =
        some [1, 1, 0, 1, 1, 2, 0, 0, 1, 255, 1, 15, 2, 0x58] ∧
      reply b plant = some [2, 1, 0, 15, 1, 10, 0, 0, 1, 255, 1, 15, 2, 0x58] ∧
      reply { b with block := ⟨1, 10⟩ } plant = some [0x20, 8, 10] ∧
      reply { b with fault := ⟨1, 2⟩ } plant = some [0x20, 8, 2] ∧
      reply { b with pace := ⟨1, 0⟩ } plant = some [0x20, 8, 0] ∧
      plant.roleOf 0 = .output 0 ∧ plant.roleOf 15 = .none ∧
      (fieldPoints b) = [] ++ 10 :: [255] := by decide +kernel

/-- Each presence byte in its place, behind fields with and without a value, before IN-SERVICE. -/
theorem test_witness_malformed_stations :
    let b := { fieldOf 7 with fault := ⟨1, 11⟩, block := ⟨1, 12⟩ }
    let none' : Carried Byte := ⟨0, 0⟩
    let reply (b : StationField) : Option (List Byte) :=
      (replyOf (.defineStation b) plant).map Reply.body
    reply { b with run := ⟨2, 1⟩, fault := ⟨2, 1⟩ } = some [0x20, 2, 4] ∧
      reply { b with fault := ⟨2, 1⟩ } = some [0x20, 2, 6] ∧
      reply { b with run := none', fault := ⟨2, 1⟩ } = some [0x20, 2, 5] ∧
      reply { b with block := ⟨255, 1⟩ } = some [0x20, 2, 8] ∧
      reply { b with starve := ⟨2, 1⟩ } = some [0x20, 2, 10] ∧
      reply { b with pace := ⟨2, 15⟩ } = some [0x20, 2, 12] ∧
      reply { b with run := none', fault := none', block := none', starve := none',
                     pace := ⟨2, 15⟩ } = some [0x20, 2, 8] ∧
      (replyOf (.defineStation { fieldOf 0 with run := ⟨2, 1⟩ }) running).map Reply.body =
        some [0x20, 2, 4] := by decide +kernel

theorem test_witness_station_reports :
    running.stationServed 0 = true ∧ running.stationServed 63 = false ∧
      replyOf (.stationFault 63 10) running = some ⟨0xFF, [0x46, 7, 63]⟩ ∧
      replyOf (.stationFault 0 11) running = some ⟨0xFF, [0x46, 0x0E, 11]⟩ ∧
      replyOf (.stationFault 0 0) running = some ⟨0xC6, [0, 1, 0, 0]⟩ ∧
      replyOf (.stationFault 0 10) running = some ⟨0xC6, [0, 1, 0, 10]⟩ ∧
      replyOf (.stationFault 0 10) down = some ⟨0xC6, [0, 3, 10, 0]⟩ ∧
      ((result (.stationFault 0 10) down).station 0).currentCause = 10 ∧
      ((result (.stationFault 0 0) down).station 0).currentCause = 1 ∧
      ((result (.stationFault 0 10) running).station 0).armed = some ⟨10, 1300⟩ := by
  decide +kernel

/-- Acceptable causes: 0, and unplanned host codes with no scope or this one (R43). -/
theorem test_witness_fault_causes :
    let s : State := { running with settings := { plantSettings with
      causes := Tab.set (Tab.set plantSettings.causes 2 (some ⟨.quality, some 0⟩)) 3
        (some ⟨.quality, some 63⟩) } }
    let reply (cause : Byte) := (replyOf (.stationFault 0 cause) s).map Reply.body
    reply 0 = some [0, 1, 0, 0] ∧ reply 10 = some [0, 1, 0, 10] ∧ reply 12 = some [0, 1, 0, 12] ∧
      reply 13 = some [0x46, 0x0E, 13] ∧ reply 11 = some [0x46, 0x0E, 11] ∧
      reply 14 = some [0x46, 0x0E, 14] ∧ reply 9 = some [0x46, 0x0E, 9] ∧
      hostEntry s.settings 12 = some ⟨.quality, some 0⟩ ∧ hostEntry s.settings 9 = none := by
  decide +kernel

/-- The line of a FAULTED constraint walks again at a changed current cause (R59, R80). -/
theorem test_witness_reports_reach_the_line :
    let slot (i : Instr) (s : State) := ((result i s).line 0).slot.map Stoppage.contributors
    slot (.stationFault 0 10) down =
        some [⟨0, 1, .unassigned, 100⟩, ⟨0, 10, .equipment, 0⟩] ∧
      slot (.stationFault 0 0) down = some [⟨0, 1, .unassigned, 0⟩] ∧
      ((result (.stationFault 0 10) down).line 0).bank.map Bank.booking =
        some (.cat .equipment) := by decide +kernel

theorem test_witness_armed_reports :
    let s (e : Nat) : State :=
      { plant with
        stations := Tab.set plant.stations 0
          { StationLive.cold with armed := some ⟨10, e⟩ } }
    ((result (.armedReportExpiry 0) (s 1000)).station 0).armed = none ∧
      ((result (.armedReportExpiry 0) (s 1001)).station 0).armed = some ⟨10, 1001⟩ := by
  decide +kernel

theorem test_witness_stall_timers :
    (running.station 0).stallExpiry = some 1000 ∧
      ((result (.stallTimerExpiry 0) running).station 0).state = .stalled ∧
      ((result (.stallTimerExpiry 0) running).line 0).state = .pendingStop ∧
      ((result (.stallTimerExpiry 0) running).line 0).slot.map Stoppage.contributors =
        some [⟨0, 3, .unassigned, 0⟩] ∧
      ((result (.stallTimerExpiry 0) { running with
        clock := { running.clock with count := 999 } }).station 0).state = .running := by
  decide +kernel

/-- What line 0 does with its members when station `k` goes from a live state to another. -/
def news (l : LineLive) (k : StationId) (v w : StationLive) : State :=
  let s := withLine l .faulted
  State.lineNews { s with stations := Tab.set s.stations k v }
    { s with stations := Tab.set s.stations k w } 0

theorem test_witness_line_reactions :
    let v (state : StationState) : StationLive :=
      { StationLive.cold with state, tally := some .zero }
    let slot (s : State) := (s.line 0).slot.map Stoppage.contributors
    let capped (s : State) := (s.line 0).slot.map fun r => (r.contributors.length, r.markers.capped)
    let tally (s : State) := (s.station 0).tally.map fun y =>
      (y.rootDown, y.rootDownCount, y.rootMicro, y.rootMicroCount)
    let time (s : State) (k : Bucket) := (s.line 0).bank.map fun b => b.time k
    let four := { stoppage (.record 1) with
      contributors := List.replicate 4 ⟨0, 1, .unassigned, 7⟩ }
    let pend := pending.line 0
    let ends := news pend 0 (v .faulted) (v .running)
    let closes := news (down.line 0) 0 (v .faulted) (v .running)
    let goes := news pend 0 (v .faulted) (v .halted)
    (ends.line 0).state = .running ∧ (ends.line 0).slot = none ∧ time ends .m = some 100 ∧
      time ends .n = some 0 ∧ tally ends = some (0, 0, 100, 1) ∧
      (closes.line 0).state = .running ∧ tally closes = some (100, 1, 0, 0) ∧
      closes.journal.map JournalRecord.duration = [100] ∧
      slot goes = some [⟨0, 1, .unassigned, 100⟩, ⟨0, 2, .unassigned, 0⟩] ∧
      slot (news pend 1 (v .running) (v .faulted)) = some [⟨0, 1, .unassigned, 0⟩] ∧
      capped (news (lineIn .down .x (some four) none) 0 (v .faulted) (v .halted)) =
        some (4, true) ∧
      ((news (lineIn .running .u none none) 0 (v .running) (v .halted)).line 0).state =
        .pendingStop ∧
      ((news (lineIn .resuming .x none none) 0 (v .unmonitored) (v .running)).line 0).state =
        .running ∧
      ((news (planned.line 0) 0 (v .running) (v .halted)).line 0).state = .planned := by
  decide +kernel

/-- A line that leaves RUNNING books U, has its running segment credited, and books N from there, or
with a threshold of 0 the category of the cause. -/
theorem test_witness_line_stops :
    let v (state : StationState) : StationLive := { StationLive.cold with state }
    let s (threshold : Nat) : State := { running with settings := { plantSettings with
      lines := Tab.modify plantSettings.lines 0 fun d => { d with threshold } } }
    let t (threshold : Nat) := ((State.lineNews
      { s threshold with stations := Tab.set running.stations 0 (v .running) }
      { s threshold with stations := Tab.set running.stations 0 (v .faulted) } 0).line 0)
    let bank (l : LineLive) := l.bank.map fun b =>
      ((b.counts.ideal, b.counts.remainder, b.counts.stoppage), b.runStart, b.segStart)
    let times (l : LineLive) := l.bank.map fun b => (b.booking, b.time .u, b.time .n)
    bank (t 30) = some ((1, 0, 0), none, 1000) ∧ times (t 30) = some (.n, 600, 0) ∧
      bank (t 0) = some ((1, 0, 1), none, 1000) ∧
      times (t 0) = some (.cat .unassigned, 600, 0) ∧
      (t 30).slot.map Stoppage.kind = some (.candidate 4000) ∧
      (t 0).slot.map Stoppage.kind = some (.record 2) := by decide +kernel

/-- An event that changes a flag and a state is the change of the flags and then that of the states. -/
theorem test_witness_flags_before_states :
    let v (state : StationState) (degraded : Bool) : StationLive :=
      { StationLive.cold with state, degraded, tally := some .zero }
    let s (w : StationLive) : State :=
      { pending with stations := Tab.set pending.stations 0 w }
    let once := State.lineNews (s (v .faulted false)) (s (v .halted true)) 0
    let flags := State.lineNews (s (v .halted false)) (s (v .halted true)) 0
    let twice := State.lineNews (s (v .faulted true)) flags 0
    once.lines = twice.lines ∧ once.stations = twice.stations ∧ once.journal = twice.journal ∧
      (once.line 0).slot.map (fun r => (r.contributors.length, r.markers.degraded)) =
        some (2, true) := by decide +kernel

theorem test_witness_degraded_lines :
    let v (degraded : Bool) : StationLive := { StationLive.cold with state := .faulted, degraded }
    let marks (s : State) := (((s.line 0).slot.map fun r => r.markers.degraded),
      ((s.line 0).bank.map Bank.degraded))
    marks (news (pending.line 0) 0 (v false) (v true)) = (some true, some true) ∧
      marks (news (pending.line 0) 0 (v false) (v false)) = (some false, some false) ∧
      marks (news (lineIn .running .u none none) 0 (v false) (v true)) = (none, some true) := by
  decide +kernel

theorem test_witness_stations_follow_points :
    let s := withPoint (offPoint 4 0)
    ((result (.matrixScan 0 1) s).station 0).state = .running ∧
      ((result (.matrixScan 0 1) s).station 1).state = .unmonitored ∧
      ((result (.matrixScan 0 0) { s with
        points := Tab.set s.points 0 { offPoint 4 0 with accepted := .on } }).station 0).state =
          .halted := by decide +kernel

/-- The running plant with station 0 as given, its RUN point about to change. -/
def aboutToMove (v : StationLive) (level fault : Bool) : State :=
  { running with
    stations := Tab.set running.stations 0 v
    points := Tab.set (Tab.set running.points 0
      { offPoint 4 0 with accepted := Level.of level }) 1
      { offPoint 0 0 with accepted := Level.of fault } }

theorem test_witness_station_entries :
    let v (state : StationState) : StationLive := { StationLive.cold with state }
    let starts (v : StationLive) := (result (.matrixScan 0 1) (aboutToMove v false false)).station 0
    let stops (v : StationLive) (fault : Bool) (sense : BitVec 16) :=
      (result (.matrixScan 0 sense) (aboutToMove v true fault)).station 0
    (starts { v .halted with reported := some ⟨10, 5⟩ }).memory = some ⟨.own, 10, 1005, 1000⟩ ∧
      (starts { v .halted with reported := some ⟨10, 5⟩ }).reported = none ∧
      (starts (v .starved)).memory = some ⟨.starved, 0, 1005, 1000⟩ ∧
      (starts (v .blocked)).memory = some ⟨.blocked, 0, 1005, 1000⟩ ∧
      (starts (v .unmonitored)).memory = none ∧ (starts (v .halted)).stallExpiry = some 1500 ∧
      (starts (v .stalled)).state = .stalled ∧
      (stops { v .running with armed := some ⟨10, 2000⟩ } true 2).state = .faulted ∧
      (stops { v .running with armed := some ⟨10, 2000⟩ } true 2).reported = some ⟨10, 1005⟩ ∧
      (stops { v .running with armed := some ⟨10, 2000⟩ } true 2).armed = none ∧
      (stops (v .running) false 0).state = .halted ∧
      (stops (v .running) false 0).reported = none := by decide +kernel

/-- A state whose point 0 is about to leave a level. -/
def moving (s : State) (level : Bool) : State :=
  { s with points := Tab.set s.points 0 { offPoint 4 0 with accepted := Level.of level } }

/-- A scan reaches the line: it opens a candidate, ends one, closes a record, or walks again. -/
theorem test_witness_scans_reach_lines :
    let stops := result (.matrixScan 0 0) (moving running true)
    let ends := result (.matrixScan 0 1) (moving pending false)
    let closes := result (.matrixScan 0 1) (moving down false)
    let walks := result (.matrixScan 0 0) { moving down true with
      points := Tab.set (Tab.set down.points 0 (offPoint 0 0)) 1
        { offPoint 4 0 with accepted := .on } }
    let slot (s : State) := (s.line 0).slot.map Stoppage.contributors
    (stops.line 0).state = .pendingStop ∧ slot stops = some [⟨0, 2, .unassigned, 0⟩] ∧
      (ends.line 0).state = .running ∧ ends.journal = [] ∧
      (ends.line 0).bank.map (fun b => (b.time .m, b.counts.micro)) = some (100, 1) ∧
      (closes.line 0).state = .running ∧ closes.journal.map JournalRecord.duration = [100] ∧
      (closes.station 0).tally.map StationTally.rootDown = some 100 ∧
      (walks.station 0).state = .halted ∧
      slot walks = some [⟨0, 1, .unassigned, 100⟩, ⟨0, 2, .unassigned, 0⟩] := by decide +kernel

/-- The running plant with stations 0 and 1 in given states, the second one with a memory. -/
def chain (a b : StationState) (m : Option StopMemory) : State :=
  { plant with
    stations := Tab.set (Tab.set plant.stations 0 { StationLive.cold with state := a }) 1
      { StationLive.cold with state := b, memory := m } }

theorem test_witness_walks :
    plant.members 0 = [] ++ 0 :: [1] ∧
      (chain .faulted .running none).walk 0 = (0, 1) ∧
      (chain .starved .running none).walk 0 = (0, 6) ∧
      (chain .blocked .running none).walk 0 = (1, 5) ∧
      (chain .blocked .blocked none).walk 0 = (1, 7) ∧
      (chain .blocked .starved none).walk 0 = (1, 8) ∧
      (chain .blocked .unmonitored none).walk 0 = (1, 9) ∧
      (chain .blocked .halted none).walk 0 = (1, 2) ∧
      (chain .blocked .running (some ⟨.own, 10, 0, 1000⟩)).walk 0 = (1, 10) ∧
      (chain .unmonitored .running none).walk 0 = (0, 9) ∧
      StopMemory.within ⟨.own, 10, 0, 1000⟩ 12000 13000 = true ∧
      StopMemory.within ⟨.own, 10, 0, 1000⟩ 12000 13001 = false := by decide +kernel

/-! ### Lines -/

theorem test_witness_line_definitions :
    replyOf (.defineLine 0 0xFF ⟨1, 3⟩ [2, 4]) plant =
        some ⟨0xA1, [0, 0xFF, 1, 3, 2, 2, 4]⟩ ∧
      replyOf (.defineLine 7 63 ⟨0, 0⟩ []) plant = some ⟨0xA1, [7, 63, 0, 0]⟩ ∧
      replyOf (.defineLine 0 0 ⟨0, 0⟩ []) running = some ⟨0xFF, [0x21, 6, 0]⟩ ∧
      replyOf (.defineLine 7 0 ⟨1, 0⟩ []) plant = some ⟨0xFF, [0x21, 8, 0]⟩ ∧
      replyOf (.defineLine 7 0 ⟨1, 3⟩ [2, 1]) plant = some ⟨0xFF, [0x21, 8, 1]⟩ ∧
      replyOf (.defineLine 0 0 ⟨1, 1⟩ [0]) plant = some ⟨0xA1, [0, 0, 1, 1, 1, 0]⟩ ∧
      replyOf (.defineLine 7 0 ⟨1, 3⟩ [3]) plant = some ⟨0xFF, [0x21, 8, 3]⟩ ∧
      replyOf (.defineLine 7 0 ⟨0, 0⟩ [15, 15]) plant = some ⟨0xFF, [0x21, 8, 15]⟩ ∧
      plant.roleOf 1 = .reject 0 ∧ plant.roleOf 2 = .none := by decide +kernel

theorem test_witness_malformed_lines :
    replyOf (.defineLine 0 0 ⟨2, 15⟩ [15, 15]) running = some ⟨0xFF, [0x21, 2, 2]⟩ ∧
      replyOf (.defineLine 7 0xFF ⟨255, 0⟩ []) plant = some ⟨0xFF, [0x21, 2, 2]⟩ ∧
      replyOf (.defineLine 8 64 ⟨0, 0⟩ [1, 2, 3]) plant = some ⟨0xFF, [0x21, 2, 7]⟩ ∧
      replyOf (.defineLine 8 64 ⟨1, 16⟩ [1, 2, 16, 17]) plant = some ⟨0xFF, [0x21, 2, 9]⟩ := by
  decide +kernel

theorem test_witness_enabling :
    let s (st : StationState) : State :=
      { plant with stations := Tab.set plant.stations 0 { StationLive.cold with state := st } }
    ((result (.enableLine 0) (s .running)).line 0).state = .running ∧
      ((result (.enableLine 0) (s .unmonitored)).line 0).state = .resuming ∧
      ((result (.enableLine 0) (s .faulted)).line 0).state = .pendingStop ∧
      ((result (.enableLine 0) { s .faulted with settings := { plantSettings with
        lines := Tab.modify plantSettings.lines 0 fun d => { d with threshold := 0 } } }).line
          0).state = .down ∧
      replyOf (.enableLine 0) (s .running) =
        some ⟨0xC0, 0 :: ([0, 0, 0, 1] ++ [0, 0, 0, 0, 3, 0xED] ++ [2])⟩ ∧
      replyOf (.enableLine 0) running = some ⟨0xFF, [0x40, 0x0B, 2]⟩ ∧
      replyOf (.enableLine 7) State.reset = some ⟨0xFF, [0x40, 0x0F, 0]⟩ ∧
      replyOf (.enableLine 7) plant = some ⟨0xFF, [0x40, 9, 1]⟩ ∧
      replyOf (.enableLine 0) { plant with settings := { plantSettings with
        lines := Tab.modify plantSettings.lines 0 fun d => { d with rate := none } } } =
        some ⟨0xFF, [0x40, 9, 3]⟩ ∧
      plant.constraintReady 0 = true ∧ (plant.line 0).coherent = true ∧
      plant.lineInputs 0 = [0, 1] ∧ slotCount plant.settings.slots 0 = 2 := by decide +kernel

theorem test_witness_enabled_bookings :
    let s (st : StationState) (threshold : Nat) : State :=
      { plant with
        stations := Tab.set plant.stations 0 { StationLive.cold with state := st }
        settings := { plantSettings with
          lines := Tab.modify plantSettings.lines 0 fun d => { d with threshold } } }
    let books (st : StationState) (threshold : Nat) :=
      ((result (.enableLine 0) (s st threshold)).line 0).bank.map fun b => (b.booking, b.runStart)
    books .running 30 = some (.u, some 1000) ∧ books .unmonitored 30 = some (.x, none) ∧
      books .faulted 30 = some (.n, none) ∧
      books .faulted 0 = some (.cat .unassigned, none) ∧
      ((result (.enableLine 0) (s .faulted 30)).line 0).slot.map Stoppage.contributors =
        some [⟨0, 1, .unassigned, 0⟩] := by decide +kernel

theorem test_witness_not_enabled :
    let with' (f : Settings → Settings) : State := { plant with settings := f plantSettings }
    let constraint (k : Option StationId) := with' fun g =>
      { g with lines := Tab.modify g.lines 0 fun d => { d with constraint := k } }
    let station (f : StationDef → StationDef) := with' fun g =>
      { g with stations := Tab.modify g.stations 0 fun d => d.map f }
    let slots (i : InputId) := with' fun g =>
      { g with slots := Vector.replicate 32 (some i) }
    let refused (detail : Byte) : Option Reply := some ⟨0xFF, [0x40, 9, detail]⟩
    replyOf (.enableLine 0) (constraint none) = refused 2 ∧
      replyOf (.enableLine 0) (constraint (some 63)) = refused 2 ∧
      replyOf (.enableLine 0) (station fun d => { d with run := none }) = refused 2 ∧
      replyOf (.enableLine 0) (station fun d => { d with place := some ⟨7, 0⟩ }) = refused 2 ∧
      replyOf (.enableLine 0) (station fun d => { d with place := none }) = refused 2 ∧
      (slots 0).roleOf 1 = .reject 0 ∧ (slots 1).roleOf 0 = .output 0 ∧
      replyOf (.enableLine 0) (slots 1) = refused 0x10 ∧
      replyOf (.enableLine 0) (slots 0) = refused 0x11 ∧
      replyOf (.enableLine 0) (slots 15) = refused 0x10 := by decide +kernel

theorem test_witness_entering_service :
    let s (st : StationState) : State :=
      { withInput (withInput plant 1 { idleInput 1 with windows := [⟨0, 9⟩] }) 2
          { idleInput 1 with windows := [⟨0, 9⟩] } with
        stations := Tab.set (Tab.set plant.stations 0
          { StationLive.cold with state := st, stallExpiry := some 7 }) 1
          { StationLive.cold with state := .running, stallExpiry := some 7 } }
    let t (st : StationState) := result (.enableLine 0) (s st)
    let timer (s : State) (k : StationId) := (s.station k).stallExpiry
    plant.members 0 = [0, 1] ∧ (plant.lineDef 0).rejects = [1] ∧
      timer (t .running) 0 = some 1500 ∧ timer (t .running) 1 = none ∧
      timer (t .unmonitored) 0 = some 7 ∧ (t .running).input 1 = idleInput 1 ∧
      ((t .running).input 2).windows = [⟨0, 9⟩] ∧
      (t .running).station 2 = plant.station 2 := by decide +kernel

theorem test_witness_disabling :
    let t := result (.disableLine 0) down
    replyOf (.disableLine 7) plant = some ⟨0xFF, [0x41, 0x0B, 0]⟩ ∧
      replyOf (.disableLine 0) staged = some ⟨0xFF, [0x41, 5, 0]⟩ ∧
      t.inService 0 = false ∧ t.queue = [.bank 0] ∧
      (t.line 0).staging.map ClosedBank.reason = some .disable ∧ t.journal.length = 1 ∧
      t.link.reply = some ⟨0xC1, [0, 0, 0, 0, 7]⟩ := by decide +kernel

theorem test_witness_closing :
    replyOf (.closeShift 7) plant = some ⟨0xFF, [0x42, 7, 7]⟩ ∧
      replyOf (.closeShift 0) staged = some ⟨0xFF, [0x42, 5, 0]⟩ ∧
      replyOf (.closeShift 0) running =
        some ⟨0xC2, [0, 0, 0, 0, 7, 0, 0, 0, 0, 3, 0xED, 0, 0, 0, 8, 0]⟩ ∧
      replyOf (.closeShift 0) pending =
        some ⟨0xC2, [0, 0, 0, 0, 7, 0, 0, 0, 0, 3, 0xED, 0, 0, 0, 8, 1, 0, 0, 0, 1]⟩ ∧
      ((result (.closeShift 0) pending).line 0).state = .down ∧
      ((result (.closeShift 0) down).line 0).nextNumber = 2 ∧
      (result (.closeShift 0) down).journal.map JournalRecord.state = [.lapsed] := by
  decide +kernel

/-- What of the closed record and of its continuation a close leaves. -/
structure Split where
  number : Nat
  state : RecordState
  markers : RecordMarkers
  contributors : List Contributor
  continued : Option (List Contributor)
  marked : Option RecordMarkers
  booking : Option Bucket
deriving DecidableEq

/-- Line 0 after a CLOSE-SHIFT. -/
def split (s : State) : Option Split :=
  let t := result (.closeShift 0) s
  t.journal.getLast?.map fun j =>
    { number := j.number, state := j.state, markers := j.markers, contributors := j.contributors
      continued := (t.line 0).slot.map Stoppage.contributors
      marked := (t.line 0).slot.map Stoppage.markers
      booking := (t.line 0).bank.map Bank.booking }

/-- What a close of line 0 leaves staged, entered and open: the closed bank's reason, whether it was
deferred, its stoppages, three of its buckets, and the root-down time and count of station 0; the
number, the state and the SHIFT-END marker of the record entered; and the bucket the new bank books
in. -/
structure ShiftClose where
  reason : CloseReason
  deferred : Bool
  stoppages : Nat
  times : List Nat
  credited : Option (Nat × Nat)
  entered : Option (Nat × RecordState × Bool)
  booking : Option Bucket
deriving DecidableEq

/-- The close of line 0 that a command made. -/
def shiftClose (t : State) : Option ShiftClose :=
  (t.line 0).staging.map fun c =>
    { reason := c.reason, deferred := c.deferred, stoppages := c.view.counts.stoppage
      times := [Bucket.u, .n, .cat .unassigned].map (timeOf c.view.times)
      credited := (c.tallyOf 0).map fun y => (y.rootDown, y.rootDownCount)
      entered := t.journal.getLast?.map fun j => (j.number, j.state, j.markers.shiftEnd)
      booking := (t.line 0).bank.map Bank.booking }

theorem test_witness_continuations :
    let close : RecordMarkers := { RecordMarkers.clear with shiftEnd := true }
    let on : RecordMarkers := { RecordMarkers.clear with continued := true }
    let ended (number : Nat) (markers : RecordMarkers) : Option Split :=
      some ⟨number, .lapsed, close, [⟨0, 1, .unassigned, 100⟩], some [⟨0, 1, .unassigned, 0⟩],
        some markers, some (.cat .unassigned)⟩
    let worn : State := { down with
      stations := Tab.modify down.stations 0 fun v => { v with degraded := true } }
    let two := withLine (lineIn .down (.cat .material) (some { stoppage (.record 1) with
      operatorCause := some 10
      contributors := [⟨0, 1, .unassigned, 60⟩, ⟨1, 10, .material, 0⟩], lastSince := 960 }) none)
        .faulted
    split down = ended 1 on ∧ split pending = ended 2 on ∧
      split worn = ended 1 { on with degraded := true } ∧
      split two = some ⟨1, .confirmed, close, [⟨0, 1, .unassigned, 60⟩, ⟨1, 10, .material, 40⟩],
        some [⟨1, 10, .equipment, 0⟩], some on, some (.cat .equipment)⟩ ∧
      shiftClose (result (.closeShift 0) two) = some ⟨.request, false, 0, [500, 0, 0],
        some (60, 1), some (1, .confirmed, true), some (.cat .equipment)⟩ := by decide +kernel

/-- The closes of line 0 with a reason, RUNNING, DOWN, and PENDING-STOP. -/
def threeCloses (reason : CloseReason) (deferred : Bool) (stopped : Nat)
    (running down pending : Option Bucket) : List (Option ShiftClose) :=
  let stop (number stoppages : Nat) (booking : Option Bucket) : ShiftClose :=
    ⟨reason, deferred, stoppages, [500, 0, stopped], some (stopped, 1),
      some (number, .lapsed, true), booking⟩
  [some ⟨reason, deferred, 0, [500 + stopped, 0, 0], some (0, 0), none, running⟩,
    some (stop 1 0 down), some (stop 2 1 pending)]

theorem test_witness_closes :
    let states := [running, down, pending]
    let unassigned : Option Bucket := some (.cat .unassigned)
    let due (s : State) : State := { s with clock := { s.clock with nextBoundary := some 1005 } }
    let long (s : State) : State := { s with clock := { s.clock with count := 267840400 } }
    let owed (s : State) : State := { s with
      lines := Tab.modify s.lines 0 fun l => { l with staging := some closed, deferred := true }
      queue := [.bank 0] }
    (states.map fun s => shiftClose (result (.closeShift 0) s)) =
        threeCloses .request false 100 (some .u) unassigned unassigned ∧
      (states.map fun s => shiftClose (result (.disableLine 0) s)) =
        threeCloses .disable false 100 none none none ∧
      (states.map fun s => shiftClose (result .boundaryReached (due s))) =
        threeCloses .boundary false 100 (some .u) unassigned unassigned ∧
      (states.map fun s => shiftClose (result (.shiftLengthLimit 0) (long s))) =
        threeCloses .length false 267839500 (some .u) unassigned unassigned ∧
      (states.map fun s => shiftClose (result .archiveWriteComplete (owed s))) =
        threeCloses .boundary true 100 (some .u) unassigned unassigned := by decide +kernel

theorem test_witness_charged_only_by_its_line : pending.ChargedOnlyBy 0 0 := by
  intro m r c hm h _
  have empty : ∀ m : LineId, m ≠ 0 → (pending.line m).slot = none := by decide +kernel
  rw [empty m hm] at h
  cases h

theorem test_witness_new_bookings :
    let booking (s : State) := ((result (.closeShift 0) s).line 0).bank.map Bank.booking
    let overdue := withLine (lineIn .planned .o none (some { plan with overrun := true })) .running
    booking running = some .u ∧ booking planned = some (.cat .cleaning) ∧ booking overdue = some .o ∧
      booking (withLine (lineIn .resuming .x none none) .unmonitored) = some .x ∧
      (result (.closeShift 0) running).journal = [] := by decide +kernel

theorem test_witness_rates :
    replyOf (.setRate 0 0) running = some ⟨0xFF, [0x43, 3, 0]⟩ ∧
      replyOf (.setRate 7 1) plant = some ⟨0xC3, [7, 0, 0, 0, 1]⟩ ∧
      replyOf (.setRate 0 150001) running = some ⟨0xC3, [0, 0, 2, 0x49, 0xF0]⟩ ∧
      (((result (.setRate 0 1) running).line 0).bank.map fun b =>
        (b.counts.ideal, b.counts.remainder, b.runStart)) = some (1, 0, some 1000) := by
  decide +kernel

theorem test_witness_thresholds :
    ((result (.setLineTimers 0 1 0 0) pending).line 0).state = .down ∧
      ((result (.setLineTimers 0 2 0 0) pending).line 0).slot.map Stoppage.kind =
        some (.candidate 1100) ∧
      replyOf (.setLineTimers 0 601 3601 7201) running =
        some ⟨0xA6, [0, 2, 0x58, 0x0E, 0x10, 0x1C, 0x20]⟩ ∧
      ((result (.thresholdExpiry 0) pending).line 0).state = .down ∧
      ((result (.thresholdExpiry 0) pending).line 0).nextNumber = 3 ∧
      (((result (.thresholdExpiry 0) pending).line 0).bank.map fun b =>
        (b.time .n, b.time (.cat .unassigned))) = some (0, 100) ∧
      ((result (.thresholdExpiry 0) { pending with
        clock := { pending.clock with count := 999 } }).line 0).state = .pendingStop := by
  decide +kernel

theorem test_witness_plans :
    replyOf (.planBegin 7 11 ⟨0, 0⟩) plant = some ⟨0xFF, [0x44, 7, 7]⟩ ∧
      replyOf (.planBegin 0 10 ⟨0, 0⟩) running = some ⟨0xFF, [0x44, 0x0E, 10]⟩ ∧
      replyOf (.planBegin 0 11 ⟨1, 0⟩) down = some ⟨0xC4, 0 :: ([11, 7] ++
        [0, 0, 0, 0, 3, 0xED] ++ [1, 0, 0, 0, 1] ++ [0, 0, 0, 0] ++ [0] ++ [2, 0, 0, 0, 1])⟩ ∧
      ((result (.planBegin 0 11 ⟨0, 0⟩) pending).line 0).slot = none ∧
      (((result (.planBegin 0 11 ⟨0, 0⟩) pending).line 0).bank.map fun b => b.counts.micro) =
        some 1 ∧
      (((result (.planBegin 0 11 ⟨0, 0⟩) pending).line 0).bank.map fun b =>
        (b.time .n, b.time .m)) = some (0, 100) ∧
      (((result (.planBegin 0 11 ⟨0, 0⟩) pending).station 0).tally.map StationTally.rootMicro) =
        some 100 ∧
      (((result (.planBegin 0 11 ⟨0, 0⟩) down).station 0).tally.map StationTally.rootDown) =
        some 100 ∧
      (result (.planBegin 0 11 ⟨0, 0⟩) down).journal.map (fun r => r.markers.plan) = [true] := by
  decide +kernel

/-- A PLAN-BEGIN and a failure in RUNNING credit the running segment and end it. -/
theorem test_witness_running_segments_end :
    let bank (s : State) := (s.line 0).bank.map fun b =>
      ((b.counts.ideal, b.counts.remainder), b.runStart, b.segStart, b.time .u)
    bank (result (.planBegin 0 11 ⟨0, 0⟩) running) = some ((1, 0), none, 1000, 600) ∧
      bank (result .powerFail running) = some ((1, 0), none, 1000, 600) ∧
      bank (result (.planBegin 0 11 ⟨0, 0⟩) pending) = some ((0, 0), none, 1000, 500) ∧
      replyOf (.planBegin 0 11 ⟨2, 0⟩) running = some ⟨0xFF, [0x44, 2, 2]⟩ ∧
      replyOf (.planBegin 7 9 ⟨255, 0⟩) plant = some ⟨0xFF, [0x44, 2, 2]⟩ := by decide +kernel

theorem test_witness_plan_ends :
    replyOf (.planEnd 0) running = some ⟨0xFF, [0x45, 0x0B, 2]⟩ ∧
      ((result (.planEnd 0) planned).line 0).state = .running ∧
      (plan.elapsedAt 1000 = 100) ∧
      ((result (.planOverrun 0) planned).line 0).bank.map Bank.booking = some .o ∧
      ((result (.planOverrun 0) { planned with
        clock := { planned.clock with count := 999 } }).line 0).plan = some plan := by
  decide +kernel

/-- What a PLAN-END leaves of line 0: its state, the bucket it books in, where its segment and its
running segment began, the time of the plan, and its stoppages. -/
structure PlanEnded where
  state : LineState
  booking : Bucket
  since : Nat
  runStart : Option Nat
  time : Nat
  stoppages : Nat
deriving DecidableEq

/-- The plant PLANNED, its constraint in a state, with a threshold. -/
def plannedWith (st : StationState) (threshold : Nat) : State :=
  let s := withLine (lineIn .planned (.cat .cleaning) none (some plan)) st
  { s with settings := { s.settings with
    lines := Tab.modify s.settings.lines 0 fun d => { d with threshold } } }

/-- Line 0 after a PLAN-END. -/
def planEnded (s : State) : Option PlanEnded :=
  let l := (result (.planEnd 0) s).line 0
  l.bank.map fun b =>
    ⟨l.state, b.booking, b.segStart, b.runStart, b.time (.cat .cleaning), b.counts.stoppage⟩

theorem test_witness_plan_end_bookings :
    planEnded (plannedWith .running 1) = some ⟨.running, .u, 1000, some 1000, 100, 0⟩ ∧
      planEnded (plannedWith .unmonitored 1) = some ⟨.resuming, .x, 1000, none, 100, 0⟩ ∧
      planEnded (plannedWith .faulted 1) = some ⟨.pendingStop, .n, 1000, none, 100, 0⟩ ∧
      planEnded (plannedWith .faulted 0) =
        some ⟨.down, .cat .unassigned, 1000, none, 100, 1⟩ ∧
      ((result (.planEnd 0) (plannedWith .faulted 1)).line 0).slot.map Stoppage.contributors =
        some [⟨0, 1, .unassigned, 0⟩] := by decide +kernel

/-! ### The journal -/

theorem test_witness_closed_records :
    let s : State :=
      { down with
        journal := List.replicate 192 (record 1 .lapsed)
        lost := 4294967295 }
    (down.line 0).slot = some (stoppage (.record 1)) ∧
      (down.closeRecord 0 .returned 1000).journal.map JournalRecord.state =
        [.unconfirmed 61000] ∧
      (down.closeRecord 0 .returned 1000).journal.map JournalRecord.contributors =
        [[⟨0, 1, .unassigned, 100⟩]] ∧
      (((down.closeRecord 0 .returned 1000).station 0).tally.map StationTally.rootDown) =
        some 100 ∧
      (down.closeRecord 0 .shiftEnd 1000).journal.map JournalRecord.state = [.lapsed] ∧
      ({ down with clock := { down.clock with count := 61000 } }.closeRecord 0 .outage
        1000).journal.map JournalRecord.state = [.lapsed] ∧
      (s.closeRecord 0 .returned 1000).journal.length = 192 ∧
      (s.closeRecord 0 .returned 1000).lost = 4294967295 := by decide +kernel

theorem test_witness_classification :
    let s := withJournal [record 1 (.unconfirmed 1000), record 3 .lapsed]
    replyOf (.classify (key 2) 10) pending = some ⟨0xFF, [0x47, 0x10, 0]⟩ ∧
      replyOf (.classify (key 9) 10) s = some ⟨0xFF, [0x47, 0x0A, 0]⟩ ∧
      replyOf (.classify (key 3) 10) s = some ⟨0xFF, [0x47, 0x0C, 0]⟩ ∧
      replyOf (.classify (key 1) 12) s = some ⟨0xFF, [0x47, 0x0E, 12]⟩ ∧
      replyOf (.classify (key 1) 10) { plant with journal := s.journal } =
        some ⟨0xFF, [0x47, 0x0D, 0]⟩ ∧
      replyOf (.classify (key 1) 10) s =
        some ⟨0xC7, (key 1).bytes ++ [0x13, 10, 0, 5, 0] ++ [0, 0, 0, 60]⟩ ∧
      s.candidateHasKey (key 1) = false ∧ s.record? (key 1) = some (record 1 (.unconfirmed 1000)) ∧
      down.openHasKey (key 1) = true ∧
      replyOf (.classify (key 1) 10) down =
        some ⟨0xC7, (key 1).bytes ++ [0x10, 10, 0, 5, 0] ++ [0, 0, 0, 100]⟩ := by decide +kernel

theorem test_witness_open_records :
    let two := withLine (let l := lineIn .down (.cat .material) (some { stoppage (.record 1) with
        contributors := [⟨0, 1, .unassigned, 60⟩, ⟨1, 10, .material, 0⟩], lastSince := 960 }) none
      { l with bank := l.bank.map fun b =>
        { b with times := Tab.set b.times (Bucket.cat .unassigned).index 60, segStart := 960 } })
        .faulted
    let classified (s : State) := result (.classify (key 1) 10) s
    let bank (s : State) := ((classified s).line 0).bank.map fun b =>
      (b.time (.cat .unassigned), b.time (.cat .equipment), b.time (.cat .material))
    let booking (s : State) := ((classified s).line 0).bank.map Bank.booking
    let again := classified down
    bank down = some (0, 100, 0) ∧ booking down = some (.cat .equipment) ∧
      bank two = some (0, 60, 40) ∧ booking two = some (.cat .material) ∧
      (classified two).link.reply =
        some ⟨0xC7, (key 1).bytes ++ [0x10, 10, 0, 5, 0] ++ [0, 0, 0, 60]⟩ ∧
      replyOf (.classify (key 1) 10) { again with link := down.link } =
        some ⟨0xC7, (key 1).bytes ++ [0x10, 10, 0, 0, 0] ++ [0, 0, 0, 0]⟩ := by decide +kernel

theorem test_witness_open_record_causes :
    replyOf (.classify (key 1) 12) down = some ⟨0xFF, [0x47, 0x0E, 12]⟩ ∧
      replyOf (.classify (key 1) 0) down = some ⟨0xFF, [0x47, 0x0E, 0]⟩ ∧
      down.candidateHasKey (key 1) = false ∧ down.record? (key 1) = none ∧
      hostEntry plantSettings 12 = none := by decide +kernel

theorem test_witness_deadlines :
    let s := withJournal [record 1 (.unconfirmed 1000), record 2 (.held 0), record 3 .confirmed,
      record 4 (.unconfirmed 1001), record 5 (.held 7)]
    let states (i : Instr) := (result i s).journal.map JournalRecord.state
    states (.holdRecord (key 1)) =
        [.held 0, .held 0, .confirmed, .unconfirmed 1001, .held 7] ∧
      states (.releaseRecord (key 2)) =
        [.unconfirmed 1000, .lapsed, .confirmed, .unconfirmed 1001, .held 7] ∧
      states (.releaseRecord (key 5)) =
        [.unconfirmed 1000, .held 0, .confirmed, .unconfirmed 1001, .unconfirmed 1007] ∧
      states (.deadlineExpiry (key 1)) =
        [.lapsed, .held 0, .confirmed, .unconfirmed 1001, .held 7] ∧
      states (.deadlineExpiry (key 4)) = states .frameGapTimeout ∧
      replyOf (.holdRecord (key 3)) s = some ⟨0xFF, [0x48, 0x0B, 0x13]⟩ ∧
      replyOf (.releaseRecord (key 1)) s = some ⟨0xFF, [0x49, 0x0B, 0x11]⟩ := by decide +kernel

theorem test_witness_keys_not_held :
    replyOf (.holdRecord (key 2)) pending = some ⟨0xFF, [0x48, 0x10, 0]⟩ ∧
      replyOf (.releaseRecord (key 2)) pending = some ⟨0xFF, [0x49, 0x10, 0]⟩ ∧
      replyOf (.holdRecord (key 1)) pending = some ⟨0xFF, [0x48, 0x0A, 0]⟩ ∧
      replyOf (.releaseRecord ⟨0, 6, 2⟩) pending = some ⟨0xFF, [0x49, 0x0A, 0]⟩ ∧
      replyOf (.holdRecord (key 1)) down = some ⟨0xFF, [0x48, 0x0B, 0x10]⟩ ∧
      replyOf (.releaseRecord (key 1)) down = some ⟨0xFF, [0x49, 0x0B, 0x10]⟩ ∧
      replyOf (.holdRecord (key 2)) down = some ⟨0xFF, [0x48, 0x0A, 0]⟩ := by decide +kernel

theorem test_witness_fetching :
    let s := withJournal [record 1 .lapsed, record 2 (.held 5), record 3 .confirmed]
    let long := withJournal (List.replicate 5
      { record 1 .lapsed with contributors := List.replicate 4 ⟨0, 1, .unassigned, 15⟩ })
    let reply (s : State) (n : Byte) :=
      (replyOf (.fetchRecords n) s).map fun r => (r.body.getD 1 0, r.body.length)
    (result (.fetchRecords 0) s).journal = [record 2 (.held 5), record 3 .confirmed] ∧
      (result (.fetchRecords 6) s).journal = [record 2 (.held 5)] ∧ reply s 6 = some (2, 66) ∧
      reply long 5 = some (4, 214) := by decide +kernel

/-! ### Shifts and the archive -/

theorem test_witness_boundaries :
    let s (b : Nat) : State :=
      { running with clock := { running.clock with nextBoundary := some b } }
    (s 1005).hall = 1005 ∧ ((result .boundaryReached (s 1005)).line 0).serial = 8 ∧
      ((result .boundaryReached (s 1006)).line 0).serial = 7 ∧
      ((result .boundaryReached { s 1005 with lines := staged.lines }).line 0).deferred = true ∧
      (result .boundaryReached (s 1005)).clock.lastBoundary = some 1005 := by decide +kernel

theorem test_witness_length_limit :
    let s (t : Nat) : State := { running with clock := { running.clock with count := t } }
    ((result (.shiftLengthLimit 0) (s 267840400)).line 0).serial = 8 ∧
      ((result (.shiftLengthLimit 0) (s 267840399)).line 0).serial = 7 := by decide +kernel

theorem test_witness_archive_writes :
    let s : State := { staged with
      lines := Tab.modify staged.lines 0 fun l => { l with deferred := true } }
    staged.queue = [.bank 0] ∧
      ((result .archiveWriteComplete staged).line 0).staging = none ∧
      (Tab.get (result .archiveWriteComplete staged).archive 0).length = 1 ∧
      ((result .archiveWriteComplete s).line 0).staging.map ClosedBank.deferred = some true ∧
      (result .archiveWriteComplete s).queue = [.bank 0] := by decide +kernel

/-! ### Power and starts -/

theorem test_witness_failures :
    (result .powerFail running).power = ⟨false, false, false, some 1000, true⟩ ∧
      (result .resetAssert running).power = ⟨true, true, false, some 1000, false⟩ ∧
      ((result .powerFail running).line 0).bank.map Bank.booking = some .x ∧
      (result .powerReturn (result .powerFail running)).power =
        ⟨true, false, false, some 1000, true⟩ ∧
      (result .resetRelease (result .resetAssert running)).power =
        ⟨true, false, false, some 1000, false⟩ ∧
      (result .powerFail (result .resetAssert running)).power =
        ⟨false, true, false, some 1000, true⟩ := by decide +kernel

theorem test_witness_limits_at_a_failure :
    let s (t : Nat) (l : LineLive) : State :=
      { running with lines := Tab.set running.lines 0 l, clock := { running.clock with count := t } }
    let t (at' : Nat) (l : LineLive) := (result .powerFail (s at' l)).line 0
    (t 267840399 (running.line 0)).serial = 7 ∧ (t 267840400 (running.line 0)).serial = 8 ∧
      (t 267840400 (running.line 0)).staging.map ClosedBank.reason = some .length ∧
      (t 267840400 (staged.line 0)).serial = 7 := by decide +kernel

theorem test_witness_warm_starts :
    (failed down).power.running = false ∧ (failed down).queue = [] ∧
      (failed staged).queue = [.bank 0] ∧
      ((result .warmStart (failed down)).line 0).state = .resuming ∧
      (result .warmStart (failed down)).journal.map (fun r => r.markers.outage) = [true] ∧
      ((result .warmStart (failed planned)).line 0).state = .planned ∧
      (result .warmStart (failed plant)).line 0 = (failed plant).line 0 ∧
      (result .warmStart (failed running)).latched .outage = true := by decide +kernel

theorem test_witness_coherent_failure : (failed down).Coherent := by
  unfold State.Coherent
  decide +kernel

/-- A state with a schedule that failed at `f` and stands at `now`, before its start. -/
def outage (s : State) (schedule : List Nat) (f now : Nat) : State :=
  let s := result .powerFail { s with
    settings := { s.settings with schedule }, clock := { s.clock with count := f } }
  { s with
    power := { s.power with main := true }
    clock := { s.clock with count := now } }

/-- The line 0 that a warm start leaves: why and when the old shift closed, and the new one's serial
and opening. -/
structure Turned where
  reason : Option CloseReason
  closed : Option Nat
  serial : Nat
  opened : Option Nat
deriving DecidableEq

/-- Line 0 after the warm start of a state. -/
def turned (s : State) : Turned :=
  let l := (result .warmStart s).line 0
  ⟨l.staging.map ClosedBank.reason, l.staging.map ClosedBank.closeStamp, l.serial, l.openStamp⟩

theorem test_witness_outage_closes :
    turned (outage running [2000] 1000 1994) = ⟨none, none, 7, some 405⟩ ∧
      turned (outage running [2000] 1000 1995) =
        ⟨some .outageBoundary, some 2000, 8, some 2000⟩ ∧
      turned (outage running [2000, 3000] 1000 3000) =
        ⟨some .outageBoundary, some 2000, 9, some 3000⟩ ∧
      turned (outage running [] 1000 267840399) = ⟨none, none, 7, some 405⟩ ∧
      turned (outage running [] 1000 267840400) =
        ⟨some .length, some 267840405, 8, some 267840405⟩ ∧
      turned (outage running [1000] 267840399 267841000) =
        ⟨some .length, some 267840405, 8, some 267841000⟩ := by decide +kernel

/-- A state with a boundary deferred on line 0. -/
def late (s : State) : State :=
  { s with lines := Tab.modify s.lines 0 fun l => { l with deferred := true } }

theorem test_witness_outage_boundaries :
    turned (late (outage running [] 1000 1500)) =
        ⟨some .outageBoundary, some 1005, 8, some 1005⟩ ∧
      turned (late (outage running [] 1000 267841001)) =
        ⟨some .outageBoundary, some 1005, 8, some 1005⟩ ∧
      turned (late (outage running [2000] 1000 2000)) =
        ⟨some .outageBoundary, some 1005, 9, some 2000⟩ ∧
      (result .warmStart (outage running [2000, 3000] 1000 3000)).latched .boundarySkipped =
        true ∧
      (result .warmStart (outage running [2000, 3000] 1000 3000)).clock.lastBoundary =
        some 3000 := by decide +kernel

theorem test_witness_outage_instants :
    let s := outage running [2000] 1000 1995
    s.power.failure = some 1000 ∧ s.clock.isSet = true ∧ s.hallAt 1000 = 1005 ∧ s.hall = 2000 ∧
      s.clock.lastBoundary = none ∧ s.settings.schedule = [2000] ∧
      (∀ x : Nat, x ∈ [2000] ↔ 1005 < x ∧ x ≤ 2000 ∧ x % 8640000 ∈ [2000]) ∧
      ∀ x : Nat, x ∈ ([] : List Nat) ↔ 1005 < x ∧ x ≤ 1999 ∧ x % 8640000 ∈ [2000] := by
  refine ⟨by decide +kernel, by decide +kernel, by decide +kernel, by decide +kernel,
    by decide +kernel, by decide +kernel, fun x => ?_, fun x => ?_⟩
  · simp only [List.mem_singleton]
    exact ⟨fun h => by subst h; decide, fun h => by omega⟩
  · simp only [List.mem_singleton, List.not_mem_nil, false_iff]
    omega

/-- What a warm start leaves of a stoppage of line 0: the times in X, N and M and the micro-stops of the
bank it stood in, the staged one where its shift closed, and the root times and counts of station
0. -/
structure Outage where
  times : List Nat
  micro : Nat
  root : Option (Nat × Nat × Nat × Nat)
deriving DecidableEq

/-- What the warm start of a state leaves of the stoppage of line 0. -/
def ended (s : State) : Option Outage :=
  let t := result .warmStart s
  let now := t.clock.count
  let l := t.line 0
  let root (y : StationTally) := (y.rootMicro, y.rootMicroCount, y.rootDown, y.rootDownCount)
  let of' (v : BankView) (y : Option StationTally) : Outage :=
    ⟨[Bucket.x, .n, .m].map (timeOf v.times), v.counts.micro, y.map root⟩
  match l.staging with
  | some c => some (of' c.view (c.tallyOf 0))
  | none => l.bank.map fun b => of' (t.bankView 0 b now) (t.station 0).tally

theorem test_witness_outage_stoppages :
    let next (s : State) := (result .warmStart s).clock.nextBoundary
    ended (outage pending [2000] 1000 1994) = some ⟨[994, 0, 100], 1, some (100, 1, 0, 0)⟩ ∧
      ended (outage down [2000] 1000 1994) = some ⟨[994, 0, 0], 0, some (0, 0, 100, 1)⟩ ∧
      ended (outage pending [2000] 1000 1999) = some ⟨[995, 0, 100], 1, some (100, 1, 0, 0)⟩ ∧
      ended (outage down [2000] 1000 1999) = some ⟨[995, 0, 0], 0, some (0, 0, 100, 1)⟩ ∧
      ended (late (outage pending [] 1000 1500)) = some ⟨[0, 0, 100], 1, some (100, 1, 0, 0)⟩ ∧
      (outage pending [2000] 1000 1994).journal = [] ∧
      (result .warmStart (outage pending [2000] 1000 1994)).journal = [] ∧
      next (outage pending [2000] 1000 1994) = some 2000 ∧
      next (outage pending [2000] 1000 1995) = some 8642000 ∧
      next (outage pending [] 1000 1995) = none ∧
      next (failed { pending with clock := { pending.clock with isSet := false } }) = none := by
  decide +kernel

theorem test_witness_warm_settling :
    let forced : State := { failed running with settings := { plantSettings with
      points := Tab.modify plantSettings.points 0 fun d => { d with mode := .forceOn } } }
    let s := outage (withJournal [record 1 (.unconfirmed 1500), record 2 (.unconfirmed 1501)])
      [] 1000 1500
    ((result .warmStart forced).line 0).state = .running ∧
      ((result .warmStart (failed running)).line 0).state = .resuming ∧
      (result .warmStart s).journal.map JournalRecord.state = [.lapsed, .unconfirmed 1501] := by
  decide +kernel

theorem test_witness_cold_starts :
    let s (entries : List Stored) (q : List WriteItem) : State :=
      { result .powerFail plant with queue := q, archive := Tab.set plant.archive 0 entries }
    (s [] []).power.main = false ∧ (s [] []).power.reset = false ∧
      (result .coldStart (s [] [])).imageStatus = .blank ∧
      (result .coldStart (s [] [])).alerts = 0x40 ∧
      ((result .coldStart (s [] [])).line 0).serial = 0 ∧
      (Tab.get (s [closed.stored] []).archive 0).map Stored.bank = [closed] ∧
      (s [] [.settings]).queue = [.settings] ∧
      (result .coldStart (s [] [])).settings.window = 10 := by decide +kernel

theorem test_witness_cut_off_writes :
    let s (entries : List Stored) : State :=
      { result .powerFail plant with
        queue := [.bank 0], archive := Tab.set plant.archive 0 entries
        pins := { plant.pins with straps := 5 } }
    let stored (count : Nat) : List Stored := List.replicate count ⟨closed, 0⟩
    (Tab.get (s (stored 7)).archiveFound 0) = stored 7 ∧
      (Tab.get (s (stored 8)).archiveFound 0).length = 8 ∧
      (Tab.get (s (stored 8)).archiveFound 0).take 7 = stored 7 ∧
      (result .coldStart (s [])).link.receiver = .hunt ∧
      (result .coldStart (s [])).link.serving = .ready ∧
      (result .coldStart (s [])).link.address = 5 ∧
      (result .coldStart { s [] with pins := plant.pins }).link.address = 1 := by decide +kernel

theorem test_witness_serials_found (c : ClosedBank) :
    let damaged : Stored := ⟨c, crc16 c.contents + 1⟩
    damaged.check ≠ crc16 damaged.bank.contents ∧ recover [c.stored] = (c.serial, false) ∧
      recover [damaged, c.stored] = (c.serial, true) ∧ recover [damaged] = (0, true) ∧
      tearOldest 0 (List.replicate 7 c.stored) = List.replicate 7 c.stored ∧
      tearOldest 0 (List.replicate 8 c.stored) =
        List.replicate 7 c.stored ++ [c.stored.torn 0] ∧
      (c.stored.torn 0).check ≠ crc16 (c.stored.torn 0).bank.contents := by
  have h := check_succ_ne (crc16 c.contents)
  refine ⟨h, ?_, ?_, ?_, rfl, rfl, tornCheck_ne _ _⟩ <;> simp [recover, Stored.damaged, ClosedBank.stored]

theorem test_witness_interrupted_images :
    let s : State := { result .powerFail plant with
      queue := [.settings], image := some ⟨plantSettings, 0⟩, settingsCopy := some .default }
    s.queue = [.settings] ∧ s.power.main = false ∧ s.power.reset = false ∧
      s.settingsCopy.getD s.settings = .default ∧
      s.image.map Image.contents = some plantSettings ∧ s.now = 1000 := by decide +kernel

theorem test_interrupted_images (new : Settings) (old : Option Image) :
    imageExamined (some (tornImage new old 1000)) = .damaged ∧
      settingsFound (some (tornImage new old 1000)) = .default := by
  constructor <;> simp only [imageExamined, settingsFound, tornImage_damaged, if_true]

/-- Line 0 of settings mixed from the plant's and the defaults, with the items of some rows new. -/
def mixedLine (written : Nat → Bool) : LineSettings :=
  Tab.get (plantSettings.mix (fun row _ => written row) .default).lines 0

theorem test_mixed_settings :
    mixedLine (fun _ => true) = Tab.get plantSettings.lines 0 ∧
      mixedLine (fun _ => false) = .default ∧
      mixedLine (fun row => row == 6) = { LineSettings.default with rate := some 3600 } ∧
      (Tab.get (Tab.mix (fun k => k == 0) plantSettings.stations Settings.default.stations)
        1).isNone = true := by decide +kernel

end Sys2Proof.Tests
end

