-- ==== Sys2Proof/Proofs/AttributionWalk.lean ====
section
/-! The attribution walk (R77 to R79): how a walk judges the station it reaches, how it goes along
the stations in one direction, and which stations lie on each side of the constraint. -/

namespace Sys2Proof.Machine

/-! ### The verdict on the station reached (R78) -/

section Judge

variable {d : Direction} {lookback t : Nat} {v : StationLive} {m : StopMemory}

theorem judge_of_stopped
    (h : v.state = .faulted ∨ v.state = .halted ∨ v.state = .stalled) :
    judge d lookback t v = some v.currentCause := by
  unfold judge
  rcases h with h | h | h <;> rw [h]

theorem judge_of_unmonitored (h : v.state = .unmonitored) : judge d lookback t v = some 9 := by
  unfold judge
  rw [h]

/-- A station held up in the walk's own direction passes the stop on. -/
theorem judge_of_same (h : v.state = d.same) : judge d lookback t v = none := by
  cases d <;> simp [judge, h, Direction.same]

/-- A station held up from the other side contradicts the walk: SENSOR-CONFLICT. -/
theorem judge_of_opposite (h : v.state = .blocked ∨ v.state = .starved) (hne : v.state ≠ d.same) :
    judge d lookback t v = some 8 := by
  rcases h with h | h <;> rw [h] at hne <;> simp [judge, h, hne]

/-- A memory within the lookback decides the verdict on a RUNNING station by its kind. -/
theorem judge_of_remembered (h : v.state = .running) (hm : v.memory = some m)
    (hw : t ≤ m.endCount + lookback) :
    judge d lookback t v =
      if m.kind = d.kind then none
      else if m.kind = .own then some m.cause else some d.shortage := by
  simp [judge, h, hm, StopMemory.within, hw]

/-- A RUNNING station without a memory within the lookback is charged with the shortage. -/
theorem judge_of_forgotten (h : v.state = .running)
    (hold : ∀ m, v.memory = some m → m.endCount + lookback < t) :
    judge d lookback t v = some d.shortage := by
  cases hm : v.memory with
  | none => simp [judge, h, hm]
  | some m =>
    have hw : m.within lookback t = false := by simpa [StopMemory.within] using hold m hm
    simp [judge, h, hm, hw]

end Judge

/-! ### Along the stations in one direction (R78) -/

section WalkOn

variable {s : State} {d : Direction} {lookback : Nat} {last : StationId}
  {passed rest : List StationId}

/-- Stations that pass the stop on leave of themselves only which was the last one reached. -/
theorem State.walkOn_append_of_passed
    (h : ∀ x ∈ passed, judge d lookback s.now (s.station x) = none) :
    s.walkOn d lookback last (passed ++ rest) =
      s.walkOn d lookback (passed.getLast?.getD last) rest := by
  induction passed generalizing last with
  | nil => rfl
  | cons x xs ih =>
    obtain ⟨hx, hxs⟩ := List.forall_mem_cons.mp h
    calc s.walkOn d lookback last (x :: xs ++ rest)
        = s.walkOn d lookback x (xs ++ rest) := by simp [State.walkOn, hx]
      _ = s.walkOn d lookback (xs.getLast?.getD x) rest := ih hxs
      _ = s.walkOn d lookback ((x :: xs).getLast?.getD last) rest := by
        rw [List.getLast?_cons, Option.getD_some]

theorem State.walkOn_eq_runOut
    (h : ∀ x ∈ passed, judge d lookback s.now (s.station x) = none) :
    s.walkOn d lookback last passed = (passed.getLast?.getD last, d.runOut) := by
  simpa [State.walkOn] using State.walkOn_append_of_passed (last := last) (rest := []) h

theorem State.walkOn_eq_verdict {k : StationId} {c : CauseCode}
    (h : ∀ x ∈ passed, judge d lookback s.now (s.station x) = none)
    (hk : judge d lookback s.now (s.station k) = some c) :
    s.walkOn d lookback last (passed ++ k :: rest) = (k, c) := by
  rw [State.walkOn_append_of_passed h]
  simp [State.walkOn, hk]

end WalkOn

/-! ### The two sides of the constraint (R78) -/

section Sides

variable {k : StationId} {up down : List StationId}

theorem upstreamOf_append_cons (h : k ∉ up) : upstreamOf k (up ++ k :: down) = up.reverse := by
  have hne : ∀ x ∈ up, (x != k) = true := fun x hx => bne_iff_ne.mpr fun e => h (e ▸ hx)
  simp [upstreamOf, List.takeWhile_append_of_pos hne]

theorem downstreamOf_append_cons (h : k ∉ up) : downstreamOf k (up ++ k :: down) = down := by
  have hne : ∀ x ∈ up, (x != k) = true := fun x hx => bne_iff_ne.mpr fun e => h (e ▸ hx)
  simp [downstreamOf, List.dropWhile_append_of_pos hne]

end Sides

/-! ### The walk from the constraint (R77) -/

section Walk

variable {s : State} {n : LineId} {k : StationId} {up down : List StationId}

theorem State.walk_of_constraint (hc : (s.lineDef n).constraint = some k) :
    s.walk n = s.walkFrom n k := by
  simp [State.walk, hc]

theorem State.walkFrom_of_stopped (h : (s.station k).state = .faulted ∨
    (s.station k).state = .halted ∨ (s.station k).state = .stalled) :
    s.walkFrom n k = (k, (s.station k).currentCause) := by
  unfold State.walkFrom
  rcases h with h | h | h <;> rw [h]

theorem State.walkFrom_of_unmonitored (h : (s.station k).state = .unmonitored) :
    s.walkFrom n k = (k, 9) := by
  simp [State.walkFrom, h]

theorem State.walkFrom_of_starved (hm : s.members n = up ++ k :: down) (hk : k ∉ up)
    (h : (s.station k).state = .starved) :
    s.walkFrom n k = s.walkOn .upstream ((s.lineDef n).lookback * 100) k up.reverse := by
  simp [State.walkFrom, h, hm, upstreamOf_append_cons hk]

theorem State.walkFrom_of_blocked (hm : s.members n = up ++ k :: down) (hk : k ∉ up)
    (h : (s.station k).state = .blocked) :
    s.walkFrom n k = s.walkOn .downstream ((s.lineDef n).lookback * 100) k down := by
  simp [State.walkFrom, h, hm, downstreamOf_append_cons hk]

end Walk

/-! ### The table of verdicts (R78, R79) -/

/-- The table of R78 for one direction, in the direction's own names: the verdicts by the state of
the station, and those on a RUNNING station by its memory. -/
theorem judge_table (d : Direction) (lookback t : Nat) (v : StationLive)
    (opposite : StationState) (hopp : opposite = .blocked ∨ opposite = .starved)
    (hne : opposite ≠ d.same) :
    (v.state = d.same → judge d lookback t v = none) ∧
    ((v.state = .faulted ∨ v.state = .halted ∨ v.state = .stalled) →
      judge d lookback t v = some v.currentCause) ∧
    (v.state = opposite → judge d lookback t v = some 8) ∧
    (v.state = .unmonitored → judge d lookback t v = some 9) ∧
    (v.state = .running →
      (∀ m, v.memory = some m → t ≤ m.endCount + lookback →
        (m.kind = d.kind → judge d lookback t v = none) ∧
        (m.kind = .own → judge d lookback t v = some m.cause) ∧
        (m.kind ≠ d.kind → m.kind ≠ .own → judge d lookback t v = some d.shortage)) ∧
      ((∀ m, v.memory = some m → m.endCount + lookback < t) →
        judge d lookback t v = some d.shortage)) := by
  refine ⟨judge_of_same, judge_of_stopped, fun h => ?_, judge_of_unmonitored, fun hrun =>
    ⟨fun m hm hw => ?_, judge_of_forgotten hrun⟩⟩
  · subst h
    exact judge_of_opposite hopp hne
  · have hown : MemoryKind.own ≠ d.kind := by cases d <;> decide
    rw [judge_of_remembered hrun hm hw]
    exact ⟨fun hk => if_pos hk, fun ho => by rw [ho, if_neg hown, if_pos rfl],
      fun hk ho => by rw [if_neg hk, if_neg ho]⟩

/-- Settles O49: the walk's course from the constraint, its way along the stations that pass the
stop on, and the table of verdicts, each for both directions. -/
theorem walksFindTheStationThatStopped : Obligations.WalksFindTheStationThatStopped := by
  unfold Obligations.WalksFindTheStationThatStopped
  refine ⟨fun s n k up down hc hm hk => ?_, fun s d lookback last passed hp => ?_,
    fun d lookback t v same opposite kind shortage hd => ?_⟩
  · rw [State.walk_of_constraint hc]
    exact ⟨State.walkFrom_of_stopped, State.walkFrom_of_unmonitored,
      State.walkFrom_of_starved hm hk, State.walkFrom_of_blocked hm hk⟩
  · refine ⟨?_, fun k rest c hk => State.walkOn_eq_verdict hp hk⟩
    rw [State.walkOn_eq_runOut hp]
    cases d <;> rfl
  · obtain ⟨rfl, rfl, rfl, rfl, rfl⟩ | ⟨rfl, rfl, rfl, rfl, rfl⟩ := hd
    · exact judge_table .upstream lookback t v .blocked (.inl rfl) (by decide)
    · exact judge_table .downstream lookback t v .starved (.inr rfl) (by decide)

end Sys2Proof.Machine
end

/-! READ-ALERTS empties the alert set (R165): what the emptied set leaves of the ATTN output (R166),
and the reply. -/

namespace Sys2Proof.Machine

/-- The state with the alert set empty, as READ-ALERTS leaves it before the reply (R165). -/
def State.clearAlerts (s : State) : State := { s with alerts := 0 }

@[simp] theorem State.holdsSettled_clearAlerts (s : State) :
    s.clearAlerts.holdsSettled = s.holdsSettled := rfl

/-- With no alert latched, only a settled record of the journal keeps ATTN of a running part asserted
(R166). -/
theorem State.attn_clearAlerts {s : State} (h : s.power.running = true) :
    s.clearAlerts.attn = s.holdsSettled := by
  have hrun : s.clearAlerts.power.running = true := h
  have hempty : s.clearAlerts.alerts = 0 := rfl
  simp [State.attn, hrun, hempty]

/-- READ-ALERTS has no refusal of its own: where the part takes it, it is served (R165). -/
theorem execReadAlerts_of_takes {s : State} (h : s.Takes .readAlerts) :
    execReadAlerts s = .next (s.clearAlerts.owe (some ⟨0x82,
      [s.alerts, flag s.clearAlerts.holdsSettled, flag s.clearAlerts.attn]⟩)) :=
  congrArg Host.Outcome.next (h.serve_done (refusal := accepted) rfl _)

theorem exec_readAlerts (s : State) : exec .readAlerts s = execReadAlerts s := rfl

/-- Settles O17: after the set is emptied, the two flags of the reply both say whether the journal
holds a settled record. -/
theorem readAlertsReturnsAndEmptiesTheSet : Obligations.ReadAlertsReturnsAndEmptiesTheSet := by
  intro s h
  rw [exec_readAlerts, execReadAlerts_of_takes h, State.attn_clearAlerts h.running,
    State.holdsSettled_clearAlerts]
  rfl

end Sys2Proof.Machine

/-! IDENTIFY reports the part (R177), and SET-GUARD sets the guard mode in force and the stored one
(R175) or is refused by the guard (R174). -/

namespace Sys2Proof.Machine

/-! ### The guard -/

/-- The guard lets a guarded request pass exactly under OPEN, and under KEYED with KEY asserted
(R174). -/
theorem guardRefusal_eq_none_iff {mode : GuardMode} {key : Bool} :
    guardRefusal mode key = none ↔ mode = .opened ∨ mode = .keyed ∧ key = true := by
  cases mode with
  | opened => simp [guardRefusal]
  | keyed => simp [guardRefusal]
  | sealed => simp [guardRefusal]

/-- A guarded request of the right length that the guard refuses is refused GUARDED, whatever its
range and its owner would say (R162 check 3). -/
theorem State.serve_guarded {s : State} {kind : RequestKind} {detail : Byte}
    (h : s.receives = true) (hkind : kind.guarded = true)
    (hguard : guardRefusal s.guardMode s.pins.key = some detail)
    (range : Option Refused) (owner : State → State × Answer) :
    s.serve kind none range owner = s.owe (some ⟨0xFF, [kind.code, 0x04, detail]⟩) := by
  have hcheck : s.guardCheck kind = some ⟨.guarded, detail⟩ := by
    simp [State.guardCheck, hkind, hguard]
  have hcommon : s.commonRefusal kind none range = some ⟨.guarded, detail⟩ := by
    simp [State.commonRefusal, firstRefusal, hcheck]
  exact State.serve_refused h hcommon owner

/-! ### Codes of the guard modes (R178) -/

theorem GuardMode.ofByte_code (m : GuardMode) : GuardMode.ofByte m.code = some m := by
  cases m <;> rfl

theorem GuardMode.code_le (m : GuardMode) : m.code.toNat ≤ 2 := by
  cases m <;> decide

/-- A byte above the codes of the guard modes names none. -/
theorem GuardMode.ofByte_above {b : Byte} (h : 2 < b.toNat) : GuardMode.ofByte b = none := by
  refine List.find?_eq_none.mpr fun m _ hm => ?_
  have hcode : m.code = b := eq_of_beq hm
  have hle := m.code_le
  rw [hcode] at hle
  omega

theorem StoredGuard.code_eq_ite (m : StoredGuard) : m.code = if m = .opened then 0 else 1 := by
  cases m <;> rfl

/-! ### IDENTIFY -/

/-- IDENTIFY has no refusal of its own and only reads: where the part takes it, the state is kept
but for the reply owed (R177). -/
theorem execIdentify_of_takes {s : State} (h : s.Takes .identify) :
    execIdentify s = .next (s.owe (some ⟨0x81, identity ++
      [s.link.address, s.guardMode.code, s.settings.storedGuard.code, flag s.pins.key,
        s.imageStatus.code]⟩)) :=
  congrArg Host.Outcome.next (h.serve_reading (refusal := accepted) rfl _)

theorem exec_identify (s : State) : exec .identify s = execIdentify s := rfl

/-- Settles O19: the reply is that of `execIdentify_of_takes`, with its codes written out; the code
of a stored mode is that of the mode it gives. -/
theorem identifyReports : Obligations.IdentifyReports := by
  intro s h
  rw [exec_identify, execIdentify_of_takes h]
  cases s.settings.storedGuard with
  | opened => rfl
  | keyed => rfl

/-! ### SET-GUARD -/

theorem exec_setGuard (b : Byte) (s : State) : exec (.setGuard b) s = execSetGuard b s := rfl

/-- The part takes a SET-GUARD while it runs, owes no reply and the guard lets it pass. -/
theorem State.takes_setGuard {s : State} (h : s.receives = true)
    (hguard : s.guardMode = .opened ∨ s.guardMode = .keyed ∧ s.pins.key = true) :
    s.Takes .setGuard :=
  have ⟨hrun, hready⟩ := s.receives_iff.mp h
  ⟨hrun, hready, fun _ => guardRefusal_eq_none_iff.mpr hguard⟩

theorem exec_setGuard_guarded {s : State} {detail : Byte} (h : s.receives = true)
    (hguard : guardRefusal s.guardMode s.pins.key = some detail) (b : Byte) :
    exec (.setGuard b) s = .next (s.owe (some ⟨0xFF, [0x2A, 0x04, detail]⟩)) :=
  congrArg Host.Outcome.next (State.serve_guarded h rfl hguard none _)

/-- A SET-GUARD taken with the code of a guard mode sets that mode (R175). -/
theorem exec_setGuard_code {s : State} (h : s.Takes .setGuard) (m : GuardMode) :
    exec (.setGuard m.code) s = .next ((s.setGuard m).owe
      (some ⟨0xAA, [m.code, (m.storedAfter s.settings.storedGuard).code]⟩)) := by
  have hnamed : refuseIf (GuardMode.ofByte m.code).isNone .malformed 0 = none := by
    rw [GuardMode.ofByte_code]; rfl
  rw [exec_setGuard, execSetGuard, h.serve_done hnamed, GuardMode.ofByte_code]
  rfl

/-- A SET-GUARD taken with a byte that names no guard mode is refused MALFORMED (R175). -/
theorem exec_setGuard_malformed {s : State} (h : s.Takes .setGuard) {b : Byte}
    (hb : GuardMode.ofByte b = none) :
    exec (.setGuard b) s = .next (s.owe (some ⟨0xFF, [0x2A, 0x02, 0]⟩)) := by
  have hrefused : refuseIf (GuardMode.ofByte b).isNone .malformed 0 = some ⟨.malformed, 0⟩ := by
    rw [hb]; rfl
  rw [exec_setGuard, execSetGuard, h.serve_refusal hrefused]
  rfl

/-- Settles O20: the guard's two refusals, and where it lets the request pass, one case for each
mode's code and one for the bytes above them. -/
theorem setGuardSetsBothModes : Obligations.SetGuardSetsBothModes := by
  intro s b hrun hready
  have hrec : s.receives = true := s.receives_iff.mpr ⟨hrun, hready⟩
  refine ⟨fun hsealed => exec_setGuard_guarded hrec (by rw [hsealed]; rfl) b,
    fun hkeyed hkey => exec_setGuard_guarded hrec (by rw [hkeyed, hkey]; rfl) b,
    fun hguard => ?_⟩
  have htakes : s.Takes .setGuard := State.takes_setGuard hrec hguard
  refine ⟨?opened, ?keyed, ?sealed, fun habove =>
    exec_setGuard_malformed htakes (GuardMode.ofByte_above habove)⟩
  case opened => rintro rfl; exact exec_setGuard_code htakes .opened
  case keyed => rintro rfl; exact exec_setGuard_code htakes .keyed
  case sealed =>
    rintro rfl
    rw [← StoredGuard.code_eq_ite]
    exact exec_setGuard_code htakes .sealed

end Sys2Proof.Machine

/-! FETCH-RECORDS takes the oldest settled records of the journal (R113, R182). One lemma for each
thing that a selection in a room of bytes says; the records' lengths turn the room into the limit of
the reply's body. -/

namespace Sys2Proof.Machine

/-! ### The length of a record (R180) -/

/-- An optional field has its presence byte. -/
theorem optional_length_pos {α : Type} (bytes : α → List Byte) (a : Option α) :
    0 < (optional bytes a).length := by
  cases a <;> exact Nat.zero_lt_succ _

@[simp] theorem JournalRecord.bytes_length (r : JournalRecord) (t : Nat) :
    (r.bytes t).length = r.length := by
  have hcs : (contributorBytes r.contributors).length = 1 + 7 * r.contributors.length := by
    simp [contributorBytes, List.length_flatMap]
    omega
  have hfields : (r.bytes t).length =
      25 + 7 * r.contributors.length + ((optional (field 4) (r.state.remaining t)).length - 1) := by
    have hpresence := optional_length_pos (field 4) (r.state.remaining t)
    simp only [JournalRecord.bytes, JournalRecord.keyBytes, stamp, List.length_append,
      List.length_cons, List.length_nil, field_length, hcs]
    omega
  rw [hfields, JournalRecord.length]
  cases r.state <;> simp [RecordState.remaining, optional]

/-- A settled record carries no deadline. -/
theorem JournalRecord.length_of_settled {r : JournalRecord} (h : r.state.settled = true) :
    r.length = 25 + 7 * r.contributors.length := by
  rw [JournalRecord.length]
  cases hs : r.state with
  | unconfirmed expiry => simp [hs, RecordState.settled] at h
  | held remainder => simp [hs, RecordState.settled] at h
  | confirmed => rfl
  | lapsed => rfl

/-! ### What a selection takes and leaves

The cases of each induction are the branches of `fetchFrom`: the journal's end, a settled record at
which the selection ends, a settled record taken, and an unsettled record passed over. -/

section Selection

variable (n room : Nat) (journal : List JournalRecord)

theorem fetchFrom_kept_sublist : (fetchFrom n room journal).2.Sublist journal := by
  fun_induction fetchFrom n room journal with
  | case1 => exact List.Sublist.refl _
  | case2 => exact List.Sublist.refl _
  | case3 n room r rest hs hfit found ih => exact ih.cons _
  | case4 n room r rest hs found ih => exact ih.cons_cons _

/-- The records taken are the first settled ones of the journal; the others are kept, in order. -/
theorem fetchFrom_settled :
    journal.filter (fun r => r.state.settled) = (fetchFrom n room journal).1 ++
      (fetchFrom n room journal).2.filter (fun r => r.state.settled) := by
  fun_induction fetchFrom n room journal with
  | case1 => rfl
  | case2 => rfl
  | case3 n room r rest hs hfit found ih => simp [hs, ih, found]
  | case4 n room r rest hs found ih => simp [hs, ih, found]

/-- Every unsettled record is kept. -/
theorem fetchFrom_unsettled :
    journal.filter (fun r => !r.state.settled) =
      (fetchFrom n room journal).2.filter (fun r => !r.state.settled) := by
  fun_induction fetchFrom n room journal with
  | case1 => rfl
  | case2 => rfl
  | case3 n room r rest hs hfit found ih => simp [hs, ih, found]
  | case4 n room r rest hs found ih => simp [hs, ih, found]

theorem fetchFrom_taken_length_le : (fetchFrom n room journal).1.length ≤ n := by
  fun_induction fetchFrom n room journal with
  | case1 => exact Nat.zero_le _
  | case2 => exact Nat.zero_le _
  | case3 n room r rest hs hfit found ih =>
    have ih : found.1.length ≤ n - 1 := ih
    simp only [List.length_cons]
    omega
  | case4 n room r rest hs found ih => exact ih

/-- The records taken fit into the room. -/
theorem fetchFrom_taken_fits :
    ((fetchFrom n room journal).1.map JournalRecord.length).sum ≤ room := by
  fun_induction fetchFrom n room journal with
  | case1 => exact Nat.zero_le _
  | case2 => exact Nat.zero_le _
  | case3 n room r rest hs hfit found ih =>
    have ih : (found.1.map JournalRecord.length).sum ≤ room - r.length := ih
    simp only [List.map_cons, List.sum_cons]
    omega
  | case4 n room r rest hs found ih => exact ih

/-- A selection that ends early with a settled record left had no room for the next one. -/
theorem fetchFrom_next_passes (hfew : (fetchFrom n room journal).1.length < n) {r : JournalRecord}
    (hnext : ((fetchFrom n room journal).2.filter fun r => r.state.settled).head? = some r) :
    room < ((fetchFrom n room journal).1.map JournalRecord.length).sum + r.length := by
  fun_induction fetchFrom n room journal with
  | case1 => cases hnext
  | case2 n room first rest hs hstop =>
    obtain rfl : first = r := by simpa [hs] using hnext
    have hnone : n ≠ 0 := Nat.ne_of_gt hfew
    simpa using hstop.resolve_left hnone
  | case3 n room first rest hs hfit found ih =>
    have hrest : found.1.length < n - 1 := by
      simp only [List.length_cons] at hfew
      omega
    have ih : room - first.length < (found.1.map JournalRecord.length).sum + r.length :=
      ih hrest hnext
    simp only [List.map_cons, List.sum_cons]
    omega
  | case4 n room first rest hs found ih =>
    exact ih hfew (by simpa [hs] using hnext)

/-- A record taken is a settled record of the journal. -/
theorem mem_of_mem_fetchFrom_taken {r : JournalRecord} (h : r ∈ (fetchFrom n room journal).1) :
    r ∈ journal ∧ r.state.settled = true :=
  List.mem_filter.mp (fetchFrom_settled n room journal ▸ List.mem_append_left _ h)

end Selection

/-! ### Four records always fit (R182) -/

/-- A settled record of at most four contributors is 53 bytes long at most. -/
theorem JournalRecord.length_le_of_settled {r : JournalRecord} (h : r.state.settled = true)
    (hcs : r.contributors.length ≤ 4) : r.length ≤ 53 := by
  rw [JournalRecord.length_of_settled h]
  omega

/-- In a room of four settled records, a selection takes four, or as many as asked for, or all. -/
theorem fetchFrom_takes_four {n room : Nat} {journal : List JournalRecord} (hroom : 4 * 53 ≤ room)
    (hcs : ∀ r ∈ journal, r.contributors.length ≤ 4) :
    min 4 (min n (journal.countP fun r => r.state.settled)) ≤
      (fetchFrom n room journal).1.length := by
  by_contra hless
  have hcount : (journal.countP fun r => r.state.settled) = (fetchFrom n room journal).1.length +
      ((fetchFrom n room journal).2.filter fun r => r.state.settled).length := by
    rw [List.countP_eq_length_filter, fetchFrom_settled n room journal, List.length_append]
  obtain ⟨r, hnext⟩ : ∃ r,
      ((fetchFrom n room journal).2.filter fun r => r.state.settled).head? = some r :=
    Option.isSome_iff_exists.mp (List.isSome_head?.mpr (List.ne_nil_of_length_pos (by omega)))
  have hpass : room < ((fetchFrom n room journal).1.map JournalRecord.length).sum + r.length :=
    fetchFrom_next_passes n room journal (by omega) hnext
  have hr : r.length ≤ 53 := by
    obtain ⟨hkept, hs⟩ := List.mem_filter.mp (List.mem_of_head? hnext)
    exact JournalRecord.length_le_of_settled hs
      (hcs r ((fetchFrom_kept_sublist n room journal).subset hkept))
  have hsum : ((fetchFrom n room journal).1.map JournalRecord.length).sum ≤
      (fetchFrom n room journal).1.length * 53 := by
    rw [← List.length_map JournalRecord.length]
    refine List.sum_le_card_nsmul _ 53 fun l hl => ?_
    obtain ⟨r, hmem, rfl⟩ := List.mem_map.mp hl
    obtain ⟨hjournal, hs⟩ := mem_of_mem_fetchFrom_taken n room journal hmem
    exact JournalRecord.length_le_of_settled hs (hcs r hjournal)
  omega

/-! ### FETCH-RECORDS -/

/-- The body of a FETCH-RECORDS reply: the count used, the number of records and the records
(R182). -/
def fetchBody (n : Nat) (taken : List JournalRecord) (now : Nat) : List Byte :=
  BitVec.ofNat 8 n :: BitVec.ofNat 8 taken.length :: taken.flatMap fun r => r.bytes now

theorem fetchBody_length (n : Nat) (taken : List JournalRecord) (now : Nat) :
    (fetchBody n taken now).length = 2 + (taken.map JournalRecord.length).sum := by
  have hrecords : (taken.flatMap fun r => r.bytes now).length =
      (taken.map JournalRecord.length).sum := by
    simp [List.length_flatMap]
  simp only [fetchBody, List.length_cons, hrecords]
  omega

/-- FETCH-RECORDS has no refusal of its own: where the part takes it, the journal keeps the records
left, and the reply carries the others (R113, R182). -/
theorem exec_fetchRecords {s : State} (h : s.Takes .fetchRecords) {count : Byte} {n : Nat}
    (hn : n = clamp 1 5 count.toNat) :
    exec (.fetchRecords count) s = .next (State.owe { s with journal := (fetched n s.journal).2 }
      (some ⟨0xCA, fetchBody n (fetched n s.journal).1 s.clock.count⟩)) := by
  subst hn
  exact congrArg Host.Outcome.next (h.serve_done (refusal := accepted) rfl _)

/-- Settles O55: the reply is that of `exec_fetchRecords`, and each clause is what the selection in
the body's room of 238 bytes says. -/
theorem fetchesTakeTheOldestSettledRecords : Obligations.FetchesTakeTheOldestSettledRecords := by
  intro s count n htakes hn
  refine ⟨(fetched n s.journal).1, (fetched n s.journal).2, _, exec_fetchRecords htakes hn, rfl,
    ?limit, fetchFrom_taken_length_le n 238 s.journal, fetchFrom_kept_sublist n 238 s.journal,
    fetchFrom_settled n 238 s.journal, fetchFrom_unsettled n 238 s.journal, ?stops,
    fetchFrom_takes_four (by decide)⟩
  case limit =>
    have hfits : ((fetched n s.journal).1.map JournalRecord.length).sum ≤ 238 :=
      fetchFrom_taken_fits n 238 s.journal
    rw [fetchBody_length]
    omega
  case stops =>
    intro hfew r hnext
    have hpass : 238 < ((fetched n s.journal).1.map JournalRecord.length).sum + r.length :=
      fetchFrom_next_passes n 238 s.journal hfew hnext
    rw [fetchBody_length, JournalRecord.bytes_length]
    omega

end Sys2Proof.Machine

/-! Steps (00_scope.md) and the state after reset (R155): what one step is, what a cold start with an
erased image holds, and that it is sound. -/

namespace Sys2Proof.Machine

/-! ### Steps -/

/-- Settles O1: `step` is defined by the queue of commands. -/
theorem stepRunsTheFrontCommand : Obligations.StepRunsTheFrontCommand := by
  intro s c rest hpending
  simp only [step, hpending]

theorem State.tick_eq (s : State) : s.tick = { s with clock := { s.clock with
    sub := if s.clock.sub + 1 < 320 then s.clock.sub + 1 else 0
    count := if s.clock.sub + 1 < 320 then s.clock.count
      else (s.clock.count + 1) % 2 ^ 48 } } := by
  by_cases h : s.clock.sub + 1 < 320
  · simp [State.tick, Config.slotsPerCs, h]
  · simp [State.tick, Config.slotsPerCs, Config.clockModulus, h]

/-- Settles O2: an idle part with nothing due ticks. -/
theorem idleStepPassesOneSlot : Obligations.IdleStepPassesOneSlot := by
  intro s hpending hdue
  have hstep : step s = .next s.tick := by simp only [step, hpending, idle, hdue]
  rw [hstep, State.tick_eq]

/-! ### The state after reset -/

@[simp] theorem State.point_reset (p : PointId) : State.reset.point p = PointAcq.restarted :=
  Tab.get_replicate _ p

@[simp] theorem State.input_reset (i : InputId) : State.reset.input i = InputAcq.cold :=
  Tab.get_replicate _ i

@[simp] theorem State.line_reset (n : LineId) : State.reset.line n = LineLive.cold 0 :=
  Tab.get_replicate _ n

@[simp] theorem State.lineDef_reset (n : LineId) : State.reset.lineDef n = LineSettings.default :=
  Tab.get_replicate _ n

@[simp] theorem State.pointDef_reset (p : PointId) :
    State.reset.pointDef p = PointSettings.default :=
  Tab.get_replicate _ p

@[simp] theorem State.inputDef_reset (i : InputId) :
    State.reset.inputDef i = InputSettings.default :=
  Tab.get_replicate _ i

@[simp] theorem State.stationDef_reset (k : StationId) : State.reset.stationDef k = none :=
  Tab.get_replicate _ k

/-- The default slot table has CIk in slots k and k + 16 (R36). -/
theorem defaultSlots_val (j : SlotId) :
    (Tab.get defaultSlots j).map Fin.val = some (j.val % 16) := by
  simp [Tab.get, defaultSlots]

/-- Settles O4: each table after reset is one record repeated, so that each value is read off. -/
theorem resetHoldsTheColdStartValues : Obligations.ResetHoldsTheColdStartValues := by
  refine ⟨fun p => State.pointDef_reset p, fun p => ?point, rfl, fun i => State.inputDef_reset i,
    fun i => ?input, defaultSlots_val, rfl, State.stationDef_reset, fun n => State.lineDef_reset n,
    fun n => ?line, rfl, rfl, rfl, rfl, rfl, rfl, rfl, rfl, rfl, rfl, rfl, rfl, rfl, rfl⟩
  case point => rw [State.point_reset]; exact ⟨rfl, rfl, rfl, rfl, rfl⟩
  case input => rw [State.input_reset]; exact ⟨rfl, rfl, rfl, rfl, rfl, rfl⟩
  case line => rw [State.line_reset]; exact ⟨rfl, rfl, rfl, rfl, rfl, rfl, rfl⟩

/-- The default settings are sound: no boundary, and no REJECT input. -/
theorem Settings.sound_default : Settings.default.Sound where
  values := by simp [Settings.default]
  rising := List.Pairwise.nil
  rejects := fun n => by
    have hline : Tab.get Settings.default.lines n = LineSettings.default := Tab.get_replicate _ n
    rw [hline]; exact List.nodup_nil

theorem State.withinCapacity_reset : State.reset.WithinCapacity where
  journal := Nat.zero_le _
  archive := fun n => by
    have hempty : Tab.get State.reset.archive n = [] := Tab.get_replicate _ n
    rw [hempty]; exact Nat.zero_le _
  windows := fun i => by rw [State.input_reset]; exact Nat.zero_le _
  activity := fun p => by rw [State.point_reset]; exact Nat.zero_le _
  glitches := fun i => by rw [State.input_reset]; exact Nat.zero_le _
  lost := Nat.zero_le _
  settings := Settings.sound_default
  copy := fun _ h => nomatch h
  image := fun _ h => nomatch h

/-- Settles O5: nothing is held after reset, and no line has a bank. -/
theorem resetIsSound : Obligations.ResetIsSound := by
  have hbank : ∀ n b, (State.reset.line n).bank ≠ some b := fun n b => by
    rw [State.line_reset]; exact fun h => nomatch h
  refine ⟨State.withinCapacity_reset, fun n => ?coherent, ?accounted, fun n b _ h _ =>
    absurd h (hbank n b)⟩
  case coherent => rw [State.line_reset]; rfl
  case accounted =>
    exact { outage := rfl, kept := Nat.zero_le _, banks := fun n b h => absurd h (hbank n b) }

/-! ### Requests are served (R160 to R162) -/

/-- What owners other than RECALL-SETTINGS keep to: a request that its owner refuses changes no state
(R161). -/
def KeepsRefused (owner : State → State × Answer) : Prop :=
  ∀ s r, (owner s).2 = .refused r → (owner s).1 = s

theorem keepsRefused_checked (refusal : State → Option Refused)
    (effect : State → State × List Byte) : KeepsRefused (checked refusal effect) := by
  intro s r h
  unfold checked at h ⊢
  split at h
  · rfl
  · exact absurd h (by simp)

theorem keepsRefused_later (f : State → State) : KeepsRefused fun s => (f s, .later) :=
  fun _ _ h => nomatch h

theorem refuseIf_eq_none {cond : Bool} (h : cond = false) (reason : Reason) (detail : Byte) :
    refuseIf cond reason detail = none := by simp [refuseIf, h]

theorem refuseIf_eq_some {cond : Bool} (h : cond = true) (reason : Reason) (detail : Byte) :
    refuseIf cond reason detail = some ⟨reason, detail⟩ := by simp [refuseIf, h]

/-- Every addressed request is served: the common checks, with no complaint of the length where the
link can carry the request, and then its owner. -/
theorem exec_served {i : Instr} {kind : RequestKind} (hi : i.request? = some kind)
    (hb : ∀ h, i ≠ .setClock true h) :
    ∃ length range owner, (∀ s, exec i s = .next (s.serve kind length range owner)) ∧
      (i.wellFormed = true → length = none) ∧ (kind ≠ .recallSettings → KeepsRefused owner) := by
  cases i with
  | frameComplete | frameGapTimeout | replyStart | replyComplete | matrixScan | chatterWindowEnd
  | slotTableInstall | countSample | windowClose | stallTimerExpiry | armedReportExpiry
  | thresholdExpiry | planOverrun | deadlineExpiry | boundaryReached | shiftLengthLimit
  | archiveWriteComplete | settingsWriteComplete | powerFail | resetAssert | powerReturn
  | resetRelease | warmStart | coldStart | characterReceived => exact nomatch hi
  | setClock broadcast hall =>
    cases broadcast with
    | true => exact absurd rfl (hb hall)
    | false =>
      obtain rfl := Option.some.inj hi
      exact ⟨_, _, _, fun _ => congrArg Host.Outcome.next (if_neg Bool.false_ne_true),
        fun _ => rfl, fun _ => keepsRefused_checked _ _⟩
  | recallSettings =>
    obtain rfl := Option.some.inj hi
    exact ⟨_, _, _, fun _ => rfl, fun _ => rfl, fun h => absurd rfl h⟩
  | storeSettings =>
    obtain rfl := Option.some.inj hi
    exact ⟨_, _, _, fun _ => rfl, fun _ => rfl, fun _ => keepsRefused_later _⟩
  | setSchedule values =>
    obtain rfl := Option.some.inj hi
    refine ⟨_, _, _, fun _ => rfl, fun hw => ?_, fun _ => keepsRefused_checked _ _⟩
    have hlen : values.length ≤ 4 := of_decide_eq_true hw
    exact refuseIf_eq_none (decide_eq_false (by omega)) _ _
  | defineLine line constraint output rejects =>
    obtain rfl := Option.some.inj hi
    refine ⟨_, _, _, fun _ => rfl, fun hw => ?_, fun _ => keepsRefused_checked _ _⟩
    have hlen : rejects.length ≤ 2 := of_decide_eq_true (Bool.and_eq_true_iff.mp hw).2
    exact refuseIf_eq_none (decide_eq_false (by omega)) _ _
  | setSlots entries =>
    obtain rfl := Option.some.inj hi
    refine ⟨_, _, _, fun _ => rfl, fun hw => ?_, fun _ => keepsRefused_checked _ _⟩
    have hlen : entries.length = 32 := of_decide_eq_true hw
    exact refuseIf_eq_none (decide_eq_false (not_not_intro hlen)) _ _
  | _ =>
    obtain rfl := Option.some.inj hi
    exact ⟨_, _, _, fun _ => rfl, fun _ => rfl, fun _ => keepsRefused_checked _ _⟩

/-! ### Requests that are not received (R158, R167) -/

/-- An addressed request is discarded unless the part runs and owes no reply, and so is a broadcast. -/
theorem exec_discarded {s : State} (h : s.receives = false) {i : Instr} {kind : RequestKind}
    (hi : i.request? = some kind) : exec i s = .next s := by
  by_cases hb : ∃ hall, i = .setClock true hall
  · obtain ⟨hall, rfl⟩ := hb
    simp [exec, execSetClock, h]
  · obtain ⟨length, range, owner, hserved, -, -⟩ := exec_served hi fun hall e => hb ⟨hall, e⟩
    rw [hserved, State.serve_discarded h]

/-- Settles O11: a part that does not run, or owes a reply, receives no request. -/
theorem requestsAreDiscardedUnlessReady : Obligations.RequestsAreDiscardedUnlessReady := by
  intro i kind s hi hdeaf
  refine exec_discarded (Bool.eq_false_iff.mpr fun hrec => ?_) hi
  obtain ⟨hrun, hready⟩ := s.receives_iff.mp hrec
  cases hdeaf with
  | inl hstopped => rw [hstopped] at hrun; exact absurd hrun (by decide)
  | inr howed => exact howed hready

/-! ### Replies (R159) -/

/-- Settles O16: a formed reply begins from SERVING, and ends from REPLYING. -/
theorem repliesAreTransmitted : Obligations.RepliesAreTransmitted := by
  intro s r hrun hreply
  refine ⟨fun hserving => ⟨?start, rfl⟩, fun hreplying => ?complete⟩
  case start => simp [exec, execReplyStart, hrun, hreply, hserving]
  case complete => simp [exec, execReplyComplete, State.dir, hrun, hreplying]

end Sys2Proof.Machine

/-! What the operations of a line are made of. Every relation of states that is reflexive and transitive
and holds of the five primitive updates (a line's record, a station's record, the entry of a journal
record, the lapsing of a shift, the joining of the write queue) holds of every operation of the line
tracker and of the shift calendar. -/

namespace Sys2Proof.Machine

/-- A relation between the states before and after that the primitive updates of a line keep to. -/
structure LineRel (R : State → State → Prop) : Prop where
  refl : ∀ s, R s s
  trans : ∀ {s t u}, R s t → R t u → R s u
  line : ∀ (s : State) (n : LineId) (f : LineLive → LineLive), R s (s.modLine n f)
  station : ∀ (s : State) (k : StationId) (f : StationLive → StationLive), R s (s.modStation k f)
  enter : ∀ (s : State) (r : JournalRecord), R s (s.journalEnter r)
  lapse : ∀ (s : State) (n : LineId) (serial : Nat), R s (s.lapseShift n serial)
  join : ∀ (s : State) (w : WriteItem), R s (s.queueJoin w)

namespace LineRel

variable {R : State → State → Prop}

theorem foldl (h : LineRel R) {α : Type} {f : State → α → State} (hf : ∀ s a, R s (f s a))
    (l : List α) (s : State) : R s (l.foldl f s) := by
  induction l generalizing s with
  | nil => exact h.refl s
  | cons a l ih => exact h.trans (hf s a) (ih _)

/-! ### The tally unit -/

theorem bank (h : LineRel R) (s : State) (n : LineId) (f : Bank → Bank) : R s (s.modBank n f) :=
  h.line s n _

theorem slot (h : LineRel R) (s : State) (n : LineId) (f : Stoppage → Stoppage) :
    R s (s.modSlot n f) := h.line s n _

theorem tally (h : LineRel R) (s : State) (k : StationId) (f : StationTally → StationTally) :
    R s (s.modTally k f) := h.station s k _

theorem rebook (h : LineRel R) (s : State) (n : LineId) (t : Nat) : R s (s.rebook n t) :=
  h.line s n _

theorem enterLine (h : LineRel R) (s : State) (n : LineId) (st : LineState) (t : Nat) :
    R s (s.enterLine n st t) := h.trans (h.line s n _) (h.rebook _ n t)

theorem openTallies (h : LineRel R) (s : State) (n : LineId) (t : Nat) :
    R s (s.openTallies n t) := h.foldl (fun s k => h.station s k _) _ s

theorem dropTallies (h : LineRel R) (s : State) (n : LineId) : R s (s.dropTallies n) :=
  h.foldl (fun s k => h.station s k _) _ s

theorem creditRoots (h : LineRel R) (s : State) (micro : Bool) (cs : List Contributor) :
    R s (s.creditRoots micro cs) := by
  unfold State.creditRoots
  extract_lets u
  have hu : R s u := h.foldl (fun s c => h.tally s c.station _) cs s
  clear_value u
  cases cs with
  | nil => exact hu
  | cons c cs => exact h.trans hu (h.tally u c.station _)

/-! ### The line tracker -/

theorem testDegraded (h : LineRel R) (s : State) (n : LineId) : R s (s.testDegraded n) := by
  unfold State.testDegraded
  split
  · exact h.refl s
  · split
    · exact h.trans (h.slot s n _) (h.bank _ n _)
    · exact h.refl s

theorem promote (h : LineRel R) (s : State) (n : LineId) (t : Nat) : R s (s.promote n t) := by
  unfold State.promote
  split
  · exact h.refl s
  · exact h.trans (h.line s n _) (h.enterLine _ n .down t)

theorem openCandidate (h : LineRel R) (s : State) (n : LineId) : R s (s.openCandidate n) := by
  unfold State.openCandidate
  extract_lets w threshold r u v
  have hv : R s v := h.trans (h.line s n _) (h.trans (h.enterLine u n _ _) (h.testDegraded _ n))
  clear_value v
  split
  · exact h.trans hv (h.promote v n _)
  · exact hv

theorem endMicro (h : LineRel R) (s : State) (n : LineId) (t : Nat) : R s (s.endMicro n t) := by
  unfold State.endMicro
  split
  · exact h.refl s
  · exact h.trans (h.line s n _) (h.creditRoots _ true _)

theorem closeRecord (h : LineRel R) (s : State) (n : LineId) (kind : CloseKind) (t : Nat) :
    R s (s.closeRecord n kind t) := by
  unfold State.closeRecord
  split
  · exact h.refl s
  · exact h.trans (h.trans (h.enter s _) (h.creditRoots _ false _)) (h.line _ n _)

theorem evaluate (h : LineRel R) (s : State) (n : LineId) : R s (s.evaluate n) := by
  unfold State.evaluate
  split
  · exact h.enterLine s n _ _
  · exact h.enterLine s n _ _
  all_goals exact h.openCandidate s n

theorem rewalk (h : LineRel R) (s : State) (n : LineId) : R s (s.rewalk n) := by
  unfold State.rewalk
  split
  · exact h.refl s
  · extract_lets w same r markers c u
    have hu : R s u := by
      subst u
      split
      · exact h.line s n _
      · split
        · exact h.line s n _
        · exact h.trans (h.line s n _) (h.rebook _ n _)
    exact h.trans hu (h.testDegraded u n)

theorem lineNews (h : LineRel R) (old s : State) (n : LineId) : R s (State.lineNews old s n) := by
  unfold State.lineNews
  split
  · exact h.refl s
  · split
    · exact h.refl s
    · extract_lets s1 walked s2 mine others st
      have h1 : R s s1 := by
        subst s1
        split
        · exact h.bank s n _
        · exact h.refl s
      have h2 : R s s2 := by
        subst s2
        split
        · exact h.trans h1 (h.testDegraded s1 n)
        · exact h1
      clear_value s2
      refine h.trans h2 ?_
      split
      · split
        · exact h.evaluate s2 n
        · exact h.refl s2
      · split
        · exact h.openCandidate s2 n
        · exact h.refl s2
      · split
        · exact h.trans (h.endMicro s2 n _) (h.enterLine _ n _ _)
        · split
          · exact h.rewalk s2 n
          · exact h.refl s2
      · split
        · exact h.trans (h.closeRecord s2 n _ _) (h.enterLine _ n _ _)
        · split
          · exact h.rewalk s2 n
          · exact h.refl s2
      · exact h.refl s2
      · exact h.refl s2

theorem settleLines (h : LineRel R) (old s : State) : R s (State.settleLines old s) :=
  h.foldl (fun s n => h.lineNews old s n) allLines s

/-! ### The stations -/

theorem changeStation (h : LineRel R) (s : State) (k : StationId) (st : StationState) :
    R s (s.changeStation k st) := h.station s k _

theorem derive (h : LineRel R) (s : State) (k : StationId) : R s (s.derive k) := by
  unfold State.derive
  extract_lets st
  split
  · exact h.refl s
  · exact h.changeStation s k st

theorem refreshDegraded (h : LineRel R) (s : State) (k : StationId) : R s (s.refreshDegraded k) :=
  h.station s k _

theorem settlePoints (h : LineRel R) (old s : State) : R s (State.settlePoints old s) := by
  unfold State.settlePoints
  exact h.trans (h.trans (h.foldl h.refreshDegraded _ s) (h.foldl h.derive _ _))
    (h.settleLines old _)

theorem paceEdge (h : LineRel R) (s : State) (k : StationId) : R s (s.paceEdge k) := by
  unfold State.paceEdge
  extract_lets s1 timer
  have h1 : R s s1 := h.tally s k _
  split
  · exact h.trans h1 (h.station s1 k _)
  · exact h.trans h1 (h.trans (h.changeStation s1 k _) (h.settleLines s _))
  all_goals exact h1

theorem startTimers (h : LineRel R) (s : State) (n : LineId) : R s (s.startTimers n) := by
  refine h.foldl (fun s k => ?_) _ s
  split
  · exact h.station s k _
  · exact h.refl s

theorem stopTimers (h : LineRel R) (s : State) (n : LineId) : R s (s.stopTimers n) := by
  refine h.foldl (fun s k => ?_) _ s
  refine h.trans ?_ (h.station _ k _)
  split
  · exact h.changeStation s k _
  · exact h.refl s

/-! ### Shifts -/

theorem settleSlot (h : LineRel R) (s : State) (n : LineId) (t : Nat) : R s (s.settleSlot n t) := by
  unfold State.settleSlot
  split
  · exact h.refl s
  · extract_lets u
    have hu : R s u := by
      subst u
      split
      · exact h.promote s n t
      · exact h.refl s
    exact h.trans hu (h.closeRecord u n _ t)

theorem stage (h : LineRel R) (s : State) (n : LineId) (reason : CloseReason) (deferred : Bool)
    (t : Nat) : R s (s.stage n reason deferred t) := by
  unfold State.stage
  split
  · exact h.refl s
  · exact h.trans (h.line s n _) (h.join _ _)

theorem closeShift (h : LineRel R) (s : State) (n : LineId) (reason : CloseReason)
    (deferred : Bool) (t : Nat) : R s (s.closeShift n reason deferred t) :=
  h.trans (h.settleSlot s n t) (h.trans (h.lapse _ n _) (h.stage _ n reason deferred t))

theorem openShift (h : LineRel R) (s : State) (n : LineId) (serial t : Nat) :
    R s (s.openShift n serial t) := h.trans (h.line s n _) (h.openTallies _ n t)

theorem turnShift (h : LineRel R) (s : State) (n : LineId) (reason : CloseReason)
    (deferred : Bool) (t : Nat) : R s (s.turnShift n reason deferred t) := by
  unfold State.turnShift
  extract_lets serial slot u
  have hu : R s u := h.closeShift s n reason deferred t
  clear_value slot u
  cases slot with
  | none => exact h.trans hu (h.openShift u n serial t)
  | some r =>
    exact h.trans hu (h.trans (h.line u n _) (h.trans (h.openShift _ n serial t)
      (h.testDegraded _ n)))

theorem lineBoundary (h : LineRel R) (s : State) (n : LineId) : R s (s.lineBoundary n) := by
  unfold State.lineBoundary
  split
  · exact h.refl s
  · split
    · exact h.line s n _
    · exact h.turnShift s n _ _ _

theorem takeLimit (h : LineRel R) (s : State) (n : LineId) : R s (s.takeLimit n) := by
  unfold State.takeLimit
  split
  · exact h.turnShift s n _ _ _
  · exact h.refl s

theorem takeLimits (h : LineRel R) (s : State) : R s s.takeLimits :=
  h.foldl h.takeLimit allLines s

theorem takeDeferred (h : LineRel R) (s : State) (n : LineId) : R s (s.takeDeferred n) := by
  unfold State.takeDeferred
  split
  · exact h.trans (h.line s n _) (h.turnShift _ n _ _ _)
  · exact h.refl s

/-! ### Service and plans -/

theorem newThreshold (h : LineRel R) (s : State) (n : LineId) (threshold : Nat) :
    R s (s.newThreshold n threshold) := by
  unfold State.newThreshold
  split
  · exact h.refl s
  · split
    · exact h.refl s
    · split
      · exact h.promote s n _
      · exact h.slot s n _

theorem endForPlan (h : LineRel R) (s : State) (n : LineId) : R s (s.endForPlan n) := by
  unfold State.endForPlan
  split
  · exact h.refl s
  · split
    · exact h.endMicro s n _
    · exact h.closeRecord s n _ _

theorem beginPlan (h : LineRel R) (s : State) (n : LineId) (p : Plan) : R s (s.beginPlan n p) :=
  h.trans (h.trans (h.endForPlan s n) (h.line _ n _)) (h.enterLine _ n _ _)

theorem endPlan (h : LineRel R) (s : State) (n : LineId) : R s (s.endPlan n) :=
  h.trans (h.line s n _) (h.evaluate _ n)

theorem overrun (h : LineRel R) (s : State) (n : LineId) : R s (s.overrun n) :=
  h.trans (h.line s n _) (h.rebook _ n _)

/-! ### Starts -/

theorem placeResuming (h : LineRel R) (s : State) (n : LineId) : R s (s.placeResuming n) :=
  h.line s n _

theorem resumeLine (h : LineRel R) (s : State) (f : Nat) (n : LineId) :
    R s (s.resumeLine f n) := by
  unfold State.resumeLine
  split
  · exact h.placeResuming s n
  · exact h.trans (h.endMicro s n f) (h.placeResuming _ n)
  · exact h.trans (h.closeRecord s n _ f) (h.placeResuming _ n)
  all_goals exact h.refl s

theorem turnOutage (h : LineRel R) (s : State) (n : LineId) (o : OutageTurn) :
    R s (s.turnOutage n o) :=
  h.trans (h.trans (h.closeShift s n _ _ _) (h.openShift _ n _ _)) (h.line _ n _)

theorem resumePlan (h : LineRel R) (s : State) (n : LineId) : R s (s.resumePlan n) := by
  unfold State.resumePlan
  split
  · exact h.trans (h.line s n _) (h.rebook _ n _)
  · exact h.refl s

theorem settleLine (h : LineRel R) (s : State) (n : LineId) : R s (s.settleLine n) := by
  unfold State.settleLine
  split
  · exact h.evaluate s n
  · exact h.refl s

end LineRel

end Sys2Proof.Machine

/-! What every command keeps: the queue of commands that wait, the alerts latched (R164) and the
capacities of the part (R2, R21, R28, R95, R99, R143, R151). Each operation is shown to keep all three
at once (`State.Orderly`); READ-ALERTS and COLD-START, which take alerts away, keep the other two
(`State.Contained`). -/

namespace Sys2Proof.Machine

/-! ### The two relations -/

/-- The queue of commands is kept, and the capacities with it. -/
structure State.Contained (s t : State) : Prop where
  pending : t.pending = s.pending
  capacity : s.WithinCapacity → t.WithinCapacity

/-- The alerts latched stay so as well. -/
structure State.Orderly (s t : State) : Prop extends s.Contained t where
  alerts : ∀ a, s.latched a = true → t.latched a = true

theorem State.Contained.refl (s : State) : s.Contained s := ⟨rfl, id⟩

theorem State.Contained.trans {s t u : State} (h : s.Contained t) (g : t.Contained u) :
    s.Contained u := ⟨g.pending.trans h.pending, fun c => g.capacity (h.capacity c)⟩

theorem State.Orderly.refl (s : State) : s.Orderly s := ⟨.refl s, fun _ => id⟩

theorem State.Orderly.trans {s t u : State} (h : s.Orderly t) (g : t.Orderly u) : s.Orderly u :=
  ⟨h.toContained.trans g.toContained, fun a l => g.alerts a (h.alerts a l)⟩

theorem State.Orderly.foldl {α : Type} {f : State → α → State} (hf : ∀ (s : State) (a : α), s.Orderly (f s a))
    (l : List α) (s : State) : s.Orderly (l.foldl f s) := by
  induction l generalizing s with
  | nil => exact .refl s
  | cons a l ih => exact (hf s a).trans (ih _)

theorem State.Orderly.ite {s t u : State} {c : Prop} [Decidable c] (h : s.Orderly t)
    (g : s.Orderly u) : s.Orderly (if c then t else u) := by
  split
  · exact h
  · exact g

/-! ### Parts of the state that nothing of this is about -/

/-- A change of anything that has no capacity, is no alert and is not the queue of commands. -/
theorem State.Orderly.live (s : State) (lines : Vector LineLive 8)
    (stations : Vector StationLive 64) (clock : Clock) (queue : List WriteItem) (link : Link)
    (power : Power) (guardMode : GuardMode) (status : ImageStatus)
    (installed : Vector (Option InputId) 32) (awaits : Bool) :
    s.Orderly { s with
      lines := lines, stations := stations, clock := clock, queue := queue, link := link
      power := power, guardMode := guardMode, imageStatus := status, installed := installed
      awaitsFrame := awaits } where
  pending := rfl
  alerts := fun _ => id
  capacity := fun h => ⟨h.journal, h.archive, h.windows, h.activity, h.glitches, h.lost, h.settings,
    h.copy, h.image⟩

theorem State.Orderly.modLine (s : State) (n : LineId) (f : LineLive → LineLive) :
    s.Orderly (s.modLine n f) := .live s _ _ _ _ _ _ _ _ _ _

theorem State.Orderly.modStation (s : State) (k : StationId) (f : StationLive → StationLive) :
    s.Orderly (s.modStation k f) := .live s _ _ _ _ _ _ _ _ _ _

theorem State.Orderly.owe (s : State) (r : Option Reply) : s.Orderly (s.owe r) :=
  .live s _ _ _ _ _ _ _ _ _ _

theorem State.Orderly.formBoundary (s : State) : s.Orderly s.formBoundary :=
  .live s _ _ _ _ _ _ _ _ _ _

theorem State.Orderly.onlyStations {s t : State} (h : s.OnlyStations t) : s.Orderly t := by
  rw [h]; exact .live s _ _ _ _ _ _ _ _ _ _

/-! ### Alerts -/

theorem State.latched_latch_of_latched {s : State} {a : Alert} (h : s.latched a = true)
    (b : Alert) : (s.latch b).latched a = true := by
  have hs : s.alerts &&& a.bit ≠ 0 := of_decide_eq_true h
  refine decide_eq_true fun hz => hs ?_
  rw [State.latch_alerts, BitVec.and_comm, BitVec.and_or_distrib_left] at hz
  rw [BitVec.and_comm]
  exact (BitVec.or_eq_zero_iff.mp hz).1

theorem State.Orderly.latch (s : State) (a : Alert) : s.Orderly (s.latch a) where
  pending := rfl
  alerts := fun _ h => State.latched_latch_of_latched h a
  capacity := fun h => ⟨h.journal, h.archive, h.windows, h.activity, h.glitches, h.lost, h.settings,
    h.copy, h.image⟩

theorem State.Orderly.latchIf (s : State) (cond : Bool) (a : Alert) :
    s.Orderly (s.latchIf cond a) := by
  unfold State.latchIf
  exact .ite (.latch s a) (.refl s)

/-! ### The journal and the write queue -/

theorem State.Orderly.journal (s : State) {j : List JournalRecord}
    (h : j.length ≤ s.journal.length) : s.Orderly { s with journal := j } where
  pending := rfl
  alerts := fun _ => id
  capacity := fun c => ⟨h.trans c.journal, c.archive, c.windows, c.activity, c.glitches, c.lost,
    c.settings, c.copy, c.image⟩

theorem State.Orderly.modRecord (s : State) (k : Key) (f : JournalRecord → JournalRecord) :
    s.Orderly (s.modRecord k f) := .journal s (List.length_map _).le

theorem State.Orderly.lapseShift (s : State) (n : LineId) (serial : Nat) :
    s.Orderly (s.lapseShift n serial) := .journal s (List.length_map _).le

theorem State.Orderly.lapseDue (s : State) (t : Nat) : s.Orderly (s.lapseDue t) :=
  .journal s (List.length_map _).le

/-- The journal has room for a record, since a full one drops its oldest (R99). -/
theorem State.Orderly.journalEnter (s : State) (r : JournalRecord) :
    s.Orderly (s.journalEnter r) where
  pending := by unfold State.journalEnter; split <;> rfl
  alerts := fun a h => by
    unfold State.journalEnter
    split
    · exact State.latched_latch_of_latched (s := { s with journal := _, lost := _ }) h _
    · exact h
  capacity := fun c => by
    have hsame := (State.OnlyLine.journalEnter s 0 r).same
    refine ⟨State.journalEnter_length s r c.journal, ?_, ?_, ?_, ?_, ?_, hsame.settings ▸ c.settings,
      ?_, hsame.image ▸ c.image⟩
    · rw [hsame.archive]; exact c.archive
    · unfold State.input; rw [hsame.inputs]; exact c.windows
    · unfold State.point; rw [hsame.points]; exact c.activity
    · unfold State.input; rw [hsame.inputs]; exact c.glitches
    · rw [State.journalEnter_lost]
      split
      · exact c.lost
      · exact Nat.min_le_right _ _
    · have hcopy : (s.journalEnter r).settingsCopy = s.settingsCopy := by
        unfold State.journalEnter; split <;> rfl
      rw [hcopy]; exact c.copy

/-- The copy of a settings write is of the settings in force, which are sound (R170). -/
theorem State.Orderly.serveHead (s : State) : s.Orderly s.serveHead where
  pending := by unfold State.serveHead; split <;> rfl
  alerts := fun a h => by unfold State.serveHead; split <;> exact h
  capacity := fun c => by
    unfold State.serveHead
    split
    · exact ⟨c.journal, c.archive, c.windows, c.activity, c.glitches, c.lost, c.settings,
        fun g hg => Option.some.inj hg ▸ c.settings, c.image⟩
    · exact ⟨c.journal, c.archive, c.windows, c.activity, c.glitches, c.lost, c.settings,
        fun _ hg => (nomatch hg), c.image⟩
    · exact ⟨c.journal, c.archive, c.windows, c.activity, c.glitches, c.lost, c.settings,
        fun _ hg => (nomatch hg), c.image⟩

theorem State.Orderly.queueJoin (s : State) (w : WriteItem) : s.Orderly (s.queueJoin w) := by
  unfold State.queueJoin
  split
  · exact (State.Orderly.live s _ _ _ _ _ _ _ _ _ _).trans (.serveHead _)
  · exact .live s _ _ _ _ _ _ _ _ _ _

theorem State.Orderly.queuePop (s : State) : s.Orderly s.queuePop :=
  (State.Orderly.live s _ _ _ _ _ _ _ _ _ _).trans (.serveHead _)

/-- The operations of the lines are orderly. -/
theorem lineRel_orderly : LineRel State.Orderly where
  refl := .refl
  trans := .trans
  line := .modLine
  station := .modStation
  enter := .journalEnter
  lapse := .lapseShift
  join := .queueJoin

/-! ### Settings -/

/-- Soundness of settings is a matter of the schedule and of the REJECT inputs. -/
theorem Settings.Sound.of_eq {g g' : Settings} (h : g.Sound) (hs : g'.schedule = g.schedule)
    (hr : ∀ n, (Tab.get g'.lines n).rejects = (Tab.get g.lines n).rejects) : g'.Sound where
  values := hs ▸ h.values
  rising := hs ▸ h.rising
  rejects := fun n => hr n ▸ h.rejects n

theorem State.Orderly.settings (s : State) {g : Settings} (hg : s.WithinCapacity → g.Sound) :
    s.Orderly { s with settings := g } where
  pending := rfl
  alerts := fun _ => id
  capacity := fun c => ⟨c.journal, c.archive, c.windows, c.activity, c.glitches, c.lost,
    hg c, c.copy, c.image⟩

theorem State.Orderly.modSettings (s : State) {f : Settings → Settings}
    (hf : s.settings.Sound → (f s.settings).Sound) : s.Orderly (s.modSettings f) :=
  .settings s fun c => hf c.settings

/-- A change of settings that touches neither the schedule nor the lines. -/
theorem State.Orderly.modSettings_same (s : State) {f : Settings → Settings}
    (hs : (f s.settings).schedule = s.settings.schedule)
    (hl : (f s.settings).lines = s.settings.lines) : s.Orderly (s.modSettings f) :=
  .modSettings s fun h => h.of_eq hs fun n => by rw [hl]

theorem State.Orderly.modLineDef (s : State) (n : LineId) {f : LineSettings → LineSettings}
    (hf : (s.lineDef n).rejects.Nodup → (f (s.lineDef n)).rejects.Nodup) :
    s.Orderly (s.modLineDef n f) := by
  refine .modSettings s fun h => ⟨h.values, h.rising, fun m => ?_⟩
  by_cases hm : m = n
  · subst hm
    rw [Tab.get_modify_same]
    exact hf (h.rejects m)
  · rw [Tab.get_modify_ne _ hm]
    exact h.rejects m

/-! ### Points -/

theorem PointAcq.activity_becomeNoisy (a : PointAcq) (d : PointSettings) :
    (a.becomeNoisy d).activity = a.activity := by
  unfold PointAcq.becomeNoisy; split <;> rfl

theorem PointAcq.activity_bump_le {a : PointAcq} (h : a.activity ≤ 255) (d : PointSettings) :
    (a.bump d).1.activity ≤ 255 := by
  unfold PointAcq.bump
  split
  · exact h
  · dsimp only
    split
    · rw [PointAcq.activity_becomeNoisy]
      exact Nat.lt_of_not_le ‹_›
    · exact Nat.lt_of_not_le ‹_›

theorem PointAcq.activity_accept_le {a : PointAcq} (h : a.activity ≤ 255) (d : PointSettings)
    (b : Bool) : (a.accept d b).1.activity ≤ 255 :=
  PointAcq.activity_bump_le (a := { a with accepted := Level.of b, run := 0 }) h d

theorem PointAcq.activity_scan_le {a : PointAcq} (h : a.activity ≤ 255) (d : PointSettings)
    (raw : Bool) : (a.scan d raw).1.activity ≤ 255 := by
  unfold PointAcq.scan
  split
  · extract_lets run
    split <;> exact h
  · dsimp only
    split
    · split
      · exact h
      · exact PointAcq.activity_bump_le (a := { a with run := 0, lastRaw := some raw }) h d
    · split
      · exact PointAcq.activity_accept_le (a := { a with lastRaw := some raw }) h d raw
      · exact h

theorem PointAcq.activity_newDebounce_le {a : PointAcq} (h : a.activity ≤ 255)
    (d : PointSettings) : (a.newDebounce d).1.activity ≤ 255 := by
  unfold PointAcq.newDebounce
  split
  · exact h
  · split
    · exact PointAcq.activity_accept_le h d _
    · split <;> exact h

theorem PointAcq.activity_newLimit (a : PointAcq) (d : PointSettings) :
    (a.newLimit d).1.activity = a.activity := by
  unfold PointAcq.newLimit
  split
  · rfl
  · split
    · exact PointAcq.activity_becomeNoisy a d
    · rfl

theorem PointAcq.activity_newMode (a : PointAcq) (d : PointSettings) :
    (a.newMode d).activity = a.activity := by
  unfold PointAcq.newMode
  split
  · split <;> rfl
  · rfl

theorem PointAcq.activity_reconfigure_le {a : PointAcq} (h : a.activity ≤ 255)
    (old new : PointSettings) : (a.reconfigure old new).1.activity ≤ 255 := by
  unfold PointAcq.reconfigure
  have h1 : (if new.debounce = old.debounce then (a, false) else a.newDebounce new).1.activity
      ≤ 255 := by
    split
    · exact h
    · exact PointAcq.activity_newDebounce_le h new
  have h2 : ∀ b : PointAcq, b.activity ≤ 255 →
      (if new.polarity = old.polarity then b else PointAcq.restarted).activity ≤ 255 := by
    intro b hb
    split
    · exact hb
    · exact Nat.zero_le _
  have h3 : ∀ b : PointAcq, b.activity ≤ 255 →
      (if new.limit = old.limit then (b, false) else b.newLimit new).1.activity ≤ 255 := by
    intro b hb
    split
    · exact hb
    · rw [PointAcq.activity_newLimit]; exact hb
  have h4 : ∀ b : PointAcq, b.activity ≤ 255 →
      (if new.mode = old.mode then b else b.newMode new).activity ≤ 255 := by
    intro b hb
    split
    · exact hb
    · rw [PointAcq.activity_newMode]; exact hb
  exact h4 _ (h3 _ (h2 _ h1))

theorem State.Orderly.points (s : State) {v : Vector PointAcq 256}
    (h : ∀ p, (s.point p).activity ≤ 255 → (Tab.get v p).activity ≤ 255) :
    s.Orderly { s with points := v } where
  pending := rfl
  alerts := fun _ => id
  capacity := fun c => ⟨c.journal, c.archive, c.windows, fun p => h p (c.activity p), c.glitches,
    c.lost, c.settings, c.copy, c.image⟩

theorem State.Orderly.putPoint (s : State) (p : PointId) {r : PointAcq × Bool}
    (h : (s.point p).activity ≤ 255 → r.1.activity ≤ 255) : s.Orderly (s.putPoint p r) := by
  refine State.Orderly.trans (.points s fun q hq => ?_) (.latchIf _ r.2 _)
  by_cases hpq : q = p
  · subst hpq
    rw [Tab.get_modify_same]
    exact h hq
  · rw [Tab.get_modify_ne _ hpq]
    exact hq

theorem State.Orderly.scanDrive (s : State) (drive : DriveId) (sense : BitVec 16) :
    s.Orderly (s.scanDrive drive sense) :=
  .foldl (fun s _ => .putPoint s _ fun h => PointAcq.activity_scan_le h _ _) _ s

theorem State.Orderly.restartPoints (s : State) : s.Orderly s.restartPoints :=
  .points s fun p _ => by rw [Tab.get_mapAll]; exact Nat.zero_le _

/-! ### Count inputs -/

/-- An input's record holds no more than there is room for. -/
def InputAcq.Fits (a : InputAcq) : Prop := a.windows.length ≤ 8 ∧ a.glitches ≤ 255

theorem InputAcq.fits_glitch {a : InputAcq} (h : a.Fits) (d : InputSettings) :
    (a.glitch d).1.Fits := by
  unfold InputAcq.glitch
  split
  · exact h
  · have hup : a.glitches + 1 ≤ 255 := Nat.lt_of_not_le ‹_›
    dsimp only
    split
    · exact ⟨h.1, hup⟩
    · exact ⟨h.1, hup⟩

theorem InputAcq.fits_sample {a : InputAcq} (h : a.Fits) (d : InputSettings) (active : Bool) :
    (a.sample d active).acq.Fits := by
  unfold InputAcq.sample
  split
  · extract_lets run
    split <;> exact h
  · dsimp only
    split
    · split
      · exact h
      · exact InputAcq.fits_glitch (a := { a with run := 0, lastSample := some active }) h d
    · split <;> exact h

theorem InputAcq.fits_newDebounce {a : InputAcq} (h : a.Fits) (d : InputSettings) :
    (a.newDebounce d).acq.Fits := by
  unfold InputAcq.newDebounce
  split
  · exact h
  · split
    · exact h
    · split <;> exact h

theorem InputAcq.fits_newLimit {a : InputAcq} (h : a.Fits) (d : InputSettings) :
    (a.newLimit d).1.Fits := by
  unfold InputAcq.newLimit
  split
  · exact h
  · split <;> exact h

theorem InputAcq.fits_appendWindow {a : InputAcq} (h : a.Fits) (q : Qualification) (t : Nat) :
    (a.appendWindow q t).Fits := by
  refine ⟨?_, h.2⟩
  have hlen := h.1
  unfold InputAcq.appendWindow
  have hcap : Config.windowCapacity = 8 := rfl
  simp only [List.length_append, List.length_cons, List.length_nil]
  split
  · rw [List.length_drop]; omega
  · omega

theorem InputAcq.fits_windowEnd {a : InputAcq} (h : a.Fits) (d : InputSettings) :
    (a.windowEnd d).Fits := ⟨h.1, Nat.zero_le _⟩

theorem InputAcq.fits_installed {a : InputAcq} (h : a.Fits) (before after : Nat) :
    (a.installed before after).Fits := by
  unfold InputAcq.installed
  split
  · exact h
  · split <;> exact h

theorem InputAcq.fits_restart (a : InputAcq) : a.restart.Fits := ⟨Nat.zero_le _, Nat.zero_le _⟩

theorem InputAcq.Fits.fewer {a : InputAcq} (h : a.Fits) {ws : List Window}
    (hw : ws.length ≤ a.windows.length) : InputAcq.Fits { a with windows := ws } :=
  ⟨hw.trans h.1, h.2⟩

theorem consumeWindow_length {t : Nat} {ws rest : List Window}
    (h : consumeWindow t ws = some rest) : rest.length ≤ ws.length := by
  induction ws generalizing rest with
  | nil => exact nomatch h
  | cons w ws ih =>
    unfold consumeWindow at h
    split at h
    · obtain rfl := Option.some.inj h
      exact Nat.le_succ _
    · obtain ⟨r, hr, rfl⟩ := Option.map_eq_some_iff.mp h
      exact Nat.succ_le_succ (ih hr)

theorem State.Orderly.inputs (s : State) (installed : Vector (Option InputId) 32) (awaits : Bool)
    {v : Vector InputAcq 16} (h : ∀ i, (s.input i).Fits → (Tab.get v i).Fits) :
    s.Orderly { s with inputs := v, installed := installed, awaitsFrame := awaits } where
  pending := rfl
  alerts := fun _ => id
  capacity := fun c =>
    have hfits : ∀ i, (Tab.get v i).Fits := fun i => h i ⟨c.windows i, c.glitches i⟩
    ⟨c.journal, c.archive, fun i => (hfits i).1, c.activity, fun i => (hfits i).2, c.lost,
      c.settings, c.copy, c.image⟩

theorem State.Orderly.modInput (s : State) (i : InputId) {f : InputAcq → InputAcq}
    (h : (s.input i).Fits → (f (s.input i)).Fits) : s.Orderly (s.modInput i f) := by
  refine .inputs s s.installed s.awaitsFrame fun j hj => ?_
  by_cases hij : j = i
  · subst hij
    rw [Tab.get_modify_same]
    exact h hj
  · rw [Tab.get_modify_ne _ hij]
    exact hj

theorem State.Orderly.mapInputs (s : State) (installed : Vector (Option InputId) 32)
    (awaits : Bool) {f : InputId → InputAcq → InputAcq} (h : ∀ i a, a.Fits → (f i a).Fits) :
    s.Orderly { s with
      inputs := Tab.mapAll f s.inputs, installed := installed, awaitsFrame := awaits } :=
  .inputs s installed awaits fun i hi => by rw [Tab.get_mapAll]; exact h i _ hi

theorem State.Orderly.dropWindows (s : State) : s.Orderly s.dropWindows := by
  refine .mapInputs s s.installed s.awaitsFrame fun i a h => ?_
  split
  · exact h
  · exact h.fewer (Nat.zero_le _)

theorem State.Orderly.emptyQueues (s : State) (n : LineId) : s.Orderly (s.emptyQueues n) := by
  refine .mapInputs s s.installed s.awaitsFrame fun i a h => ?_
  split
  · exact h.fewer (Nat.zero_le _)
  · exact h

theorem State.Orderly.openWindows (s : State) (n : LineId) : s.Orderly (s.openWindows n) := by
  refine .foldl (fun s i => ?_) _ s
  split
  · exact .modInput s i fun h => InputAcq.fits_appendWindow h _ _
  · exact .refl s

theorem State.Orderly.countReject (s : State) (n : LineId) (stray : Bool) :
    s.Orderly (s.countReject n stray) := by
  unfold State.countReject
  split
  · exact .refl s
  · exact .modLine s n _

theorem State.Orderly.rejectEdge (s : State) (i : InputId) (n : LineId) :
    s.Orderly (s.rejectEdge i n) := by
  unfold State.rejectEdge
  split
  · exact .countReject s n _
  · split
    · exact .refl s
    · split
      · have hrest := consumeWindow_length ‹_›
        exact (State.Orderly.modInput s i fun h => h.fewer hrest).trans (.countReject _ n _)
      · exact .countReject s n _

theorem State.Orderly.outputEdge (s : State) (i : InputId) (n : LineId) :
    s.Orderly (s.outputEdge i n) := by
  unfold State.outputEdge
  extract_lets u
  have hu : s.Orderly u := (State.Orderly.modLine s n _).trans (.openWindows _ n)
  clear_value u
  split
  · exact .ite (hu.trans (lineRel_orderly.paceEdge u _)) hu
  · exact hu

theorem State.Orderly.countingEdge (s : State) (i : InputId) : s.Orderly (s.countingEdge i) := by
  unfold State.countingEdge
  extract_lets u
  have hu : s.Orderly u := .modInput s i fun h => h
  clear_value u
  split
  · exact hu
  · exact .ite (hu.trans (.outputEdge u i _)) hu
  · exact .ite (hu.trans (.rejectEdge u i _)) hu
  · exact .ite (hu.trans (lineRel_orderly.paceEdge u _)) hu

theorem State.Orderly.handNoisy (s : State) (i : InputId) (wasNoisy : Bool) :
    s.Orderly (s.handNoisy i wasNoisy) := by
  unfold State.handNoisy
  extract_lets u
  have hu : s.Orderly u := .latch s _
  clear_value u
  split
  · exact hu
  · split
    · exact hu.trans (.modLine u _ _)
    · exact hu

theorem State.Orderly.putSample (s : State) (i : InputId) {r : Sampled}
    (h : (s.input i).Fits → r.acq.Fits) : s.Orderly (s.putSample i r) := by
  unfold State.putSample
  extract_lets wasNoisy u v
  have hu : s.Orderly u := .modInput s i h
  have hv : s.Orderly v := .ite (hu.trans (.handNoisy u i wasNoisy)) hu
  clear_value v
  split
  · exact .ite (hv.trans (.countingEdge v i)) hv
  · exact hv

theorem State.Orderly.sampleSlot (s : State) (slot : SlotId) (active : Bool) :
    s.Orderly (s.sampleSlot slot active) := by
  unfold State.sampleSlot
  split
  · exact .refl s
  · exact .putSample s _ fun h => InputAcq.fits_sample h _ _

theorem State.Orderly.installSlots (s : State) : s.Orderly s.installSlots :=
  .mapInputs s _ _ fun _ _ h => InputAcq.fits_installed h _ _

theorem State.Orderly.restartInputs (s : State) : s.Orderly s.restartInputs :=
  .mapInputs s _ _ fun _ a _ => a.fits_restart

theorem State.Orderly.restartAcquisition (s : State) : s.Orderly s.restartAcquisition :=
  ((State.Orderly.restartPoints s).trans (.restartInputs _)).trans
    (.live s.restartPoints.restartInputs _ _ _ _ _ _ _ _ _ _)

theorem State.Orderly.endWindow (s : State) : s.Orderly s.endWindow := by
  unfold State.endWindow
  refine State.Orderly.trans ?_ (lineRel_orderly.settlePoints s _)
  have hp : s.Orderly { s with points := Tab.mapAll (fun p a => a.windowEnd (s.pointDef p)) s.points } :=
    .points s fun p _ => by rw [Tab.get_mapAll]; exact Nat.zero_le _
  refine hp.trans (State.Orderly.trans (.mapInputs _ s.installed s.awaitsFrame
    fun i a h => InputAcq.fits_windowEnd h (s.inputDef i)) (.live _ _ _ _ _ _ _ _ _ _ _))

theorem State.Orderly.setInput (s : State) (i : InputId) (d : InputSettings) :
    s.Orderly (s.setInput i d) := by
  unfold State.setInput
  extract_lets old u v w
  have hu : s.Orderly u := .modSettings_same s rfl rfl
  have hv : s.Orderly v := .ite hu (hu.trans (.putSample u i fun h => InputAcq.fits_newDebounce h _))
  have hw : s.Orderly w := by
    refine .ite hv (hv.trans ?_)
    unfold State.changeInputLimit
    extract_lets wasNoisy r x
    have hx : v.Orderly x := .modInput v i fun h => InputAcq.fits_newLimit h _
    exact .ite (hx.trans (.handNoisy x i wasNoisy)) hx
  exact .ite hw (hw.trans (.modInput w i fun h => h.fewer (Nat.zero_le _)))

end Sys2Proof.Machine

/-! Every command answers a next state and keeps what `State.Orderly` names. -/

namespace Sys2Proof.Machine

/-! ### Requests -/

theorem State.Orderly.serve (s : State) (kind : RequestKind) (length range : Option Refused)
    {owner : State → State × Answer} (h : s.Orderly (owner s).1) :
    s.Orderly (s.serve kind length range owner) := by
  unfold State.serve
  split
  · split
    · exact .owe s _
    · exact h.trans (.owe _ _)
  · exact .refl s

theorem State.Orderly.checked (s : State) {refusal : State → Option Refused}
    {effect : State → State × List Byte} (h : refusal s = none → s.Orderly (effect s).1) :
    s.Orderly (checked refusal effect s).1 := by
  unfold Machine.checked
  split
  · exact .refl s
  · exact h ‹_›

/-- A request with an owner that checks and then acts. -/
theorem State.Orderly.request (s : State) (kind : RequestKind) (length range : Option Refused)
    {refusal : State → Option Refused} {effect : State → State × List Byte}
    (h : refusal s = none → s.Orderly (effect s).1) :
    s.Orderly (s.serve kind length range (Machine.checked refusal effect)) :=
  .serve s kind length range (.checked s h)

/-- A request that reads. -/
theorem State.Orderly.reads (s : State) (kind : RequestKind) (length range : Option Refused)
    (refusal : State → Option Refused) (body : State → List Byte) :
    s.Orderly (s.serve kind length range (reading refusal body)) :=
  .request s kind length range fun _ => .refl s

/-! ### Settings that requests write -/

/-- A schedule in which no value is found that does not rise is rising (R143). -/
theorem pairwise_of_notRising {place : Nat} {values : List Nat} (h : notRising place values = none) :
    values.Pairwise (· < ·) := by
  rw [← List.isChain_iff_pairwise]
  induction values generalizing place with
  | nil => exact .nil
  | cons a values ih =>
    cases values with
    | nil => exact .singleton a
    | cons b rest =>
      unfold notRising at h
      split at h
      · exact .cons_cons ‹_› (ih h)
      · exact nomatch h

theorem scheduleTaken_lt {values : List (BitVec 32)} {v : Nat} (h : v ∈ scheduleTaken values) :
    v < 864000 := by
  obtain ⟨x, -, rfl⟩ := List.mem_map.mp h
  simp only [clamp]
  omega

/-- A schedule that SET-SCHEDULE does not refuse is sound (R143). -/
theorem State.Orderly.setSchedule (s : State) {values : List (BitVec 32)}
    (h : scheduleRefusal values s = none) : s.Orderly (s.setSchedule (scheduleTaken values)) := by
  have hrising := pairwise_of_notRising (Option.map_eq_none_iff.mp h)
  refine State.Orderly.trans (.modSettings s fun hg => ⟨fun v hv => ?_, ?_, hg.rejects⟩)
    (.formBoundary _)
  · obtain ⟨x, hx, rfl⟩ := List.mem_map.mp hv
    have := scheduleTaken_lt hx
    omega
  · exact List.pairwise_map.mpr (hrising.imp fun hab => Nat.mul_lt_mul_of_pos_left hab (by decide))

/-- Inputs none of which is named twice are distinct (R68). -/
theorem nodup_of_find {inputs : List InputId}
    (h : (inputs.find? fun i => 2 ≤ inputs.count i) = none) : inputs.Nodup := by
  refine List.nodup_iff_count_le_one.mpr fun i => ?_
  by_cases hi : i ∈ inputs
  · have := List.find?_eq_none.mp h i hi
    simp only [decide_eq_true_eq] at this
    omega
  · rw [List.count_eq_zero_of_not_mem hi]; exact Nat.zero_le _

theorem firstRefusal_eq_none_iff {checks : List (Option Refused)} :
    firstRefusal checks = none ↔ ∀ c ∈ checks, c = none := by
  simp [firstRefusal]

theorem State.Orderly.defineLine (s : State) {line : Byte} {output : Carried Byte}
    {rejects : List Byte} (h : lineRefusal line output rejects s = none)
    (constraint : Option StationId) : s.Orderly (s.defineLine (lineOfByte line) constraint
      (carriedInput output) (rejects.map inputOfByte)) := by
  refine .modLineDef s _ fun _ => ?_
  have htwice := firstRefusal_eq_none_iff.mp h
    (((lineInputsCarried output rejects).find? fun i =>
      2 ≤ (lineInputsCarried output rejects).count i).map fun i => ⟨.inUse, idByte i⟩) (by simp)
  exact (nodup_of_find (Option.map_eq_none_iff.mp htwice)).of_append_right

theorem State.Orderly.defineStation (s : State) (k : StationId) (d : Option StationDef) :
    s.Orderly (s.defineStation k d) :=
  State.Orderly.trans (.modSettings_same s rfl rfl) (.onlyStations (.rebuildStation _ k))

theorem State.Orderly.setPoint (s : State) (p : PointId) (d : PointSettings) :
    s.Orderly (s.setPoint p d) := by
  unfold State.setPoint
  extract_lets r s1
  have h1 : s.Orderly s1 := .modSettings_same s rfl rfl
  have h2 : s1.Orderly (s1.putPoint p r) :=
    .putPoint s1 p fun h => PointAcq.activity_reconfigure_le h _ _
  exact (h1.trans h2).trans (lineRel_orderly.settlePoints s _)

theorem State.Orderly.setCause (s : State) (code : CauseCode) (e : Option CauseEntry) :
    s.Orderly (s.modSettings fun g => g.setCause code e) := by
  refine .modSettings_same s ?_ ?_ <;>
  · unfold Settings.setCause
    split <;> rfl

theorem State.Orderly.setTimers (s : State) (n : LineId) (threshold lookback deadline : Nat) :
    s.Orderly (s.setTimers n threshold lookback deadline) :=
  State.Orderly.trans (.modLineDef s n id) (lineRel_orderly.newThreshold _ n _)

theorem State.Orderly.setRate (s : State) (n : LineId) (rate : Nat) :
    s.Orderly (s.setRate n rate) :=
  State.Orderly.trans (.ite (.modLine s n _) (.refl s)) (.modLineDef _ n id)

theorem State.Orderly.setWindow (s : State) (w : Nat) : s.Orderly (s.setWindow w) :=
  State.Orderly.trans (.modSettings_same s rfl rfl)
    (.live (s.modSettings fun g => { g with window := w }) _ _ _ _ _ _ _ _ _ _)

theorem State.Orderly.setGuard (s : State) (m : GuardMode) : s.Orderly (s.setGuard m) :=
  State.Orderly.trans (.live s _ _ _ _ _ _ _ _ _ _) (.modSettings_same _ rfl rfl)

theorem State.Orderly.storeSettings (s : State) : s.Orderly s.storeSettings :=
  State.Orderly.trans (.live s _ _ _ _ _ _ _ _ _ _) (.queueJoin _ _)

theorem not_damaged_of_examined {i : Image} (h : imageExamined (some i) = .good) :
    i.damaged = false := by
  cases hd : i.damaged
  · rfl
  · simp [imageExamined, hd] at h

/-- An image found good holds sound settings, so that a recall takes sound ones (R173). -/
theorem State.Orderly.recall (s : State) {i : Image} (hi : s.image = some i)
    (hgood : i.damaged = false) : s.Orderly (s.recall i.contents) := by
  unfold State.recall
  extract_lets u a v
  have hu : s.Orderly u := State.Orderly.trans (.settings s fun c => c.image i hi hgood)
    (.live { s with settings := i.contents } _ _ _ _ _ _ _ _ _ _)
  have ha : u.Orderly a := .restartAcquisition u
  have hv : a.Orderly v := .live a _ _ _ _ _ _ _ _ _ _
  clear_value v a u
  exact (hu.trans (ha.trans hv)).trans ((State.Orderly.onlyStations (.rebuildStations v)).trans
    (.formBoundary _))

theorem State.Orderly.recallOwner (s : State) : s.Orderly (recallOwner s).1 := by
  unfold Machine.recallOwner
  split
  · exact .checked s fun _ => .refl s
  · extract_lets u
    have hu : s.Orderly u := .live s _ _ _ _ _ _ _ _ _ _
    clear_value u
    refine hu.trans (.checked u fun hnone => ?_)
    have hgood : imageExamined u.image = .good := by
      have h := firstRefusal_eq_none_iff.mp hnone
        (refuseIf (imageExamined u.image ≠ .good) .notFound 0) (by simp)
      simpa [refuseIf] using h
    split
    · rename_i i hi
      refine State.Orderly.recall u hi ?_
      rw [hi] at hgood
      exact not_damaged_of_examined hgood
    · exact .refl u

/-! ### Lines, clock, journal, archive -/

theorem State.Orderly.enable (s : State) (n : LineId) : s.Orderly (s.enable n) :=
  (lineRel_orderly.openShift s n _ _).trans ((lineRel_orderly.startTimers _ n).trans
    ((State.Orderly.emptyQueues _ n).trans (lineRel_orderly.evaluate _ n)))

theorem State.Orderly.disable (s : State) (n : LineId) : s.Orderly (s.disable n) :=
  (lineRel_orderly.closeShift s n _ _ _).trans ((State.Orderly.modLine _ n _).trans
    ((lineRel_orderly.dropTallies _ n).trans ((lineRel_orderly.stopTimers _ n).trans
      (.dropWindows _))))

theorem State.Orderly.takeBoundary (s : State) (b : Nat) : s.Orderly (s.takeBoundary b) :=
  (State.Orderly.live s _ _ _ _ _ _ _ _ _ _).trans ((State.Orderly.formBoundary _).trans
    (.foldl lineRel_orderly.lineBoundary _ _))

theorem State.Orderly.setHall (s : State) (hall : Nat) : s.Orderly (s.setHall hall) := by
  unfold State.setHall
  extract_lets jump c u
  have hu : s.Orderly u := .live s _ _ _ _ _ _ _ _ _ _
  clear_value jump u
  cases jump with
  | none => exact hu.trans (.formBoundary u)
  | some b => exact hu.trans (.takeBoundary u b)

theorem State.Orderly.reportFault (s : State) (k : StationId) (cause : CauseCode) :
    s.Orderly (s.reportFault k cause) :=
  (State.Orderly.modStation s k _).trans (lineRel_orderly.settleLines s _)

theorem State.Orderly.classify (s : State) (key : Key) (cause : CauseCode) (c : Category) :
    s.Orderly (s.classify key cause c) := by
  unfold State.classify
  extract_lets n u
  have hu : s.Orderly u := by
    subst u
    split
    · unfold State.moveFirst
      exact .ite (.refl s) (.modLine s _ _)
    · exact .refl s
  clear_value u
  exact .ite (hu.trans (.modRecord u key _)) (hu.trans ((State.Orderly.modLine u n _).trans
    (lineRel_orderly.rebook _ n _)))

theorem State.Orderly.readArchive (s : State) (line depth part : Byte) :
    s.Orderly (s.readArchive line depth part).1 := by
  unfold State.readArchive
  split
  · exact .refl s
  · exact .refl s
  · split
    · exact .latch s _
    · exact .refl s

/-- The newest eight entries are kept (R151). -/
theorem State.Orderly.archiveWrite (s : State) (n : LineId) (e : Stored) :
    s.Orderly { s with
      archive := Tab.modify s.archive n fun es => (e :: es).take Config.archiveCapacity } where
  pending := rfl
  alerts := fun _ => id
  capacity := fun c => by
    refine ⟨c.journal, fun m => ?_, c.windows, c.activity, c.glitches, c.lost, c.settings, c.copy,
      c.image⟩
    by_cases hm : m = n
    · subst hm
      rw [Tab.get_modify_same]
      exact List.length_take_le _ _
    · rw [Tab.get_modify_ne _ hm]
      exact c.archive m

theorem State.Orderly.bankWritten (s : State) (n : LineId) : s.Orderly (s.bankWritten n) := by
  unfold State.bankWritten
  split
  · exact .queuePop s
  · exact (State.Orderly.archiveWrite s n _).trans ((State.Orderly.modLine _ n _).trans
      (.queuePop _))

theorem State.Orderly.settingsWritten (s : State) : s.Orderly s.settingsWritten := by
  unfold State.settingsWritten
  extract_lets contents
  have himage : s.Orderly { s with
      image := some { contents, check := imageCheck contents }, imageStatus := .good } := by
    refine ⟨⟨rfl, fun c => ⟨c.journal, c.archive, c.windows, c.activity, c.glitches, c.lost,
      c.settings, c.copy, fun i hi _ => ?_⟩⟩, fun _ => id⟩
    obtain rfl := Option.some.inj hi
    change (s.settingsCopy.getD s.settings).Sound
    cases hcopy : s.settingsCopy with
    | none => exact c.settings
    | some g => exact c.copy g hcopy
  exact himage.trans (.queuePop _)

theorem State.Orderly.replyStored (s : State) : s.Orderly s.replyStored := by
  unfold State.replyStored
  exact .ite (.live s _ _ _ _ _ _ _ _ _ _) (.refl s)

/-! ### Failures and starts -/

theorem State.Orderly.failOnce (s : State) : s.Orderly s.failOnce := by
  unfold State.failOnce
  exact .ite ((lineRel_orderly.takeLimits s).trans (.live s.takeLimits _ _ _ _ _ _ _ _ _ _))
    (.refl s)

theorem State.Orderly.restartWrite (s : State) : s.Orderly s.restartWrite :=
  .ite (.serveHead s) (.refl s)

theorem State.Orderly.outageLine (f : Nat) (s : State) (n : LineId) :
    s.Orderly (State.outageLine f s n) := by
  unfold State.outageLine
  split
  · exact .refl s
  · split
    · exact .refl s
    · exact (lineRel_orderly.turnOutage s n _).trans (.latchIf _ _ _)

theorem State.Orderly.settleOutage (s : State) (f : Nat) : s.Orderly (s.settleOutage f) := by
  unfold State.settleOutage
  extract_lets a b c last d clock e
  have ha : s.Orderly a := .live s _ _ _ _ _ _ _ _ _ _
  have hb : a.Orderly b := .foldl (fun s n => lineRel_orderly.resumeLine s f n) _ a
  have hc : b.Orderly c := .lapseDue b _
  have hd : c.Orderly d := .foldl (State.Orderly.outageLine f) _ c
  have he : d.Orderly e := .live d _ _ _ _ _ _ _ _ _ _
  exact ha.trans (hb.trans (hc.trans (hd.trans (he.trans (.formBoundary e)))))

theorem State.Orderly.resume (s : State) : s.Orderly s.resume :=
  (State.Orderly.restartAcquisition s).trans ((State.Orderly.onlyStations (.rebuildStations _)).trans
    ((State.Orderly.foldl lineRel_orderly.resumePlan _ _).trans
      (.foldl lineRel_orderly.settleLine _ _)))

theorem State.Orderly.restart (s : State) : s.Orderly s.restart := .live s _ _ _ _ _ _ _ _ _ _

theorem tearOldest_length (count : Nat) (es : List Stored) :
    (tearOldest count es).length = es.length := by
  unfold tearOldest
  split
  · rfl
  · rename_i hfull
    have hcap : Config.archiveCapacity = 8 := rfl
    cases es using List.reverseRecOn with
    | nil => exact absurd (by decide) hfull
    | append_singleton es e => simp

theorem State.archiveFound_length (s : State) (n : LineId) :
    (Tab.get s.archiveFound n).length = (Tab.get s.archive n).length := by
  unfold State.archiveFound
  split
  · rename_i m _ _
    by_cases hm : n = m
    · subst hm; rw [Tab.get_modify_same, tearOldest_length]
    · rw [Tab.get_modify_ne _ hm]
  · rfl
  · rfl

/-- An image that a cold start finds good is the image that was there: one cut off is damaged. -/
theorem State.imageFound_good {s : State} {i : Image} (h : s.imageFound = some i)
    (hgood : i.damaged = false) : s.image = some i := by
  unfold State.imageFound at h
  split at h
  · obtain rfl := Option.some.inj h
    rw [tornImage_damaged] at hgood
    exact nomatch hgood
  · exact h
  · exact h

theorem State.Contained.cold (s : State) : s.Contained s.cold where
  pending := rfl
  capacity := fun c => by
    refine ⟨Nat.zero_le _, fun n => ?_, fun i => ?_, fun p => ?_, fun i => ?_, Nat.zero_le _, ?_,
      fun _ h => (nomatch h), fun i hi hgood => c.image i (State.imageFound_good hi hgood) hgood⟩
    · exact (State.archiveFound_length s n).le.trans (c.archive n)
    · have hcold : s.cold.input i = InputAcq.cold := Tab.get_replicate _ i
      rw [hcold]; exact Nat.zero_le _
    · have hcold : s.cold.point p = PointAcq.restarted := Tab.get_replicate _ p
      rw [hcold]; exact Nat.zero_le _
    · have hcold : s.cold.input i = InputAcq.cold := Tab.get_replicate _ i
      rw [hcold]; exact Nat.zero_le _
    · change (settingsFound s.imageFound).Sound
      unfold settingsFound
      split
      · exact Settings.sound_default
      · split
        · exact Settings.sound_default
        · rename_i i hi hdamaged
          have hgood := Bool.eq_false_iff.mpr hdamaged
          exact c.image i (State.imageFound_good hi hgood) hgood

/-! ### Commands -/

theorem Instr.ne_of_request {i j : Instr} {kind : RequestKind} (hi : i.request? = some kind)
    (hj : j.request? = none) : i ≠ j := fun e => by
  rw [e, hj] at hi
  exact nomatch hi

theorem execSetClock_orderly (broadcast : Bool) (hall : BitVec 48) (s : State) :
    ∃ t, execSetClock broadcast hall s = .next t ∧ s.Orderly t := by
  refine ⟨_, rfl, ?_⟩
  split
  · exact .ite (.setHall s _) (.refl s)
  · exact .request s _ _ _ fun _ => .setHall s _

theorem execSetPointMode_orderly (point polarity debounce mode limit : Byte) (s : State) :
    ∃ t, execSetPointMode point polarity debounce mode limit s = .next t ∧ s.Orderly t := by
  refine ⟨_, rfl, .request s _ _ _ fun _ => ?_⟩
  dsimp only
  exact .setPoint s _ _

theorem execSetSlots_orderly (entries : List Byte) (s : State) :
    ∃ t, execSetSlots entries s = .next t ∧ s.Orderly t := by
  exact ⟨_, rfl, .request s _ _ _ fun _ =>
    .modSettings_same s (f := fun g => { g with slots := slotsOf entries }) rfl rfl⟩

theorem execSetMonitor_orderly (window : Byte) (s : State) :
    ∃ t, execSetMonitor window s = .next t ∧ s.Orderly t := by
  refine ⟨_, rfl, .request s _ _ _ fun _ => ?_⟩
  dsimp only
  exact .setWindow s _

theorem execStationFault_orderly (station cause : Byte) (s : State) :
    ∃ t, execStationFault station cause s = .next t ∧ s.Orderly t := by
  refine ⟨_, rfl, .request s _ _ _ fun _ => ?_⟩
  dsimp only
  exact .reportFault s _ _

/-- Every request but READ-ALERTS. -/
theorem exec_orderly_request (i : Instr) (s : State) {kind : RequestKind}
    (hi : i.request? = some kind) (hread : i ≠ .readAlerts) :
    ∃ t, exec i s = .next t ∧ s.Orderly t := by
  cases i with
  | readAlerts => exact absurd rfl hread
  | frameComplete | frameGapTimeout | replyStart | replyComplete | matrixScan | chatterWindowEnd
  | slotTableInstall | countSample | windowClose | stallTimerExpiry | armedReportExpiry
  | thresholdExpiry | planOverrun | deadlineExpiry | boundaryReached | shiftLengthLimit
  | archiveWriteComplete | settingsWriteComplete | powerFail | resetAssert | powerReturn
  | resetRelease | warmStart | coldStart | characterReceived => exact nomatch hi
  | identify | readClock | readLine | readStation | readPoints | readCountInput | readTally
  | readStationTally | readOpen | readJournalStatus | readCause =>
    exact ⟨_, rfl, .reads s _ _ _ _ _⟩
  | setClock => exact execSetClock_orderly _ _ s
  | setSchedule => exact ⟨_, rfl, .request s _ _ _ fun h => .setSchedule s h⟩
  | defineStation => exact ⟨_, rfl, .request s _ _ _ fun _ => .defineStation s _ _⟩
  | defineLine => exact ⟨_, rfl, .request s _ _ _ fun h => .defineLine s h _⟩
  | setPointMode => exact execSetPointMode_orderly _ _ _ _ _ s
  | setCountInput => exact ⟨_, rfl, .request s _ _ _ fun _ => .setInput s _ _⟩
  | setSlots => exact execSetSlots_orderly _ s
  | setCause => exact ⟨_, rfl, .request s _ _ _ fun _ => .setCause s _ _⟩
  | setLineTimers => exact ⟨_, rfl, .request s _ _ _ fun _ => .setTimers s _ _ _ _⟩
  | setMonitor => exact execSetMonitor_orderly _ s
  | storeSettings => exact ⟨_, rfl, .serve s _ _ _ (.storeSettings s)⟩
  | recallSettings => exact ⟨_, rfl, .serve s _ _ _ (.recallOwner s)⟩
  | setGuard => exact ⟨_, rfl, .request s _ _ _ fun _ => .setGuard s _⟩
  | enableLine =>
    refine ⟨_, rfl, .request s _ _ _ fun _ => ?_⟩
    dsimp only
    exact .enable s _
  | disableLine =>
    refine ⟨_, rfl, .request s _ _ _ fun _ => ?_⟩
    dsimp only
    exact .disable s _
  | closeShift =>
    refine ⟨_, rfl, .request s _ _ _ fun _ => ?_⟩
    dsimp only
    exact lineRel_orderly.turnShift s _ _ _ _
  | setRate =>
    refine ⟨_, rfl, .request s _ _ _ fun _ => ?_⟩
    dsimp only
    exact .setRate s _ _
  | planBegin =>
    refine ⟨_, rfl, .request s _ _ _ fun _ => ?_⟩
    dsimp only
    exact lineRel_orderly.beginPlan s _ _
  | planEnd =>
    refine ⟨_, rfl, .request s _ _ _ fun _ => ?_⟩
    dsimp only
    exact lineRel_orderly.endPlan s _
  | stationFault => exact execStationFault_orderly _ _ s
  | classify =>
    refine ⟨_, rfl, .request s _ _ _ fun _ => ?_⟩
    dsimp only
    exact .classify s _ _ _
  | holdRecord | releaseRecord => exact ⟨_, rfl, .request s _ _ _ fun _ => .modRecord s _ _⟩
  | fetchRecords =>
    exact ⟨_, rfl, .request s _ _ _ fun _ => .journal s (fetchFrom_kept_sublist _ _ _).length_le⟩
  | readArchive => exact ⟨_, rfl, .request s _ _ _ fun _ => .readArchive s _ _ _⟩

/-- Every event but COLD-START and the two that may carry a READ-ALERTS. -/
theorem exec_orderly_event (i : Instr) (s : State) (hi : i.request? = none) (hcold : i ≠ .coldStart)
    (hframe : ∀ c, i ≠ .frameComplete c) (hchar : ∀ b g, i ≠ .characterReceived b g) :
    ∃ t, exec i s = .next t ∧ s.Orderly t := by
  cases i with
  | coldStart => exact absurd rfl hcold
  | frameComplete c => exact absurd rfl (hframe c)
  | characterReceived b g => exact absurd rfl (hchar b g)
  | frameGapTimeout | replyStart | replyComplete =>
    exact ⟨_, rfl, .ite (.live s _ _ _ _ _ _ _ _ _ _) (.refl s)⟩
  | matrixScan drive sense =>
    exact ⟨_, rfl, .ite ((State.Orderly.scanDrive s drive sense).trans
      (lineRel_orderly.settlePoints s _)) (.refl s)⟩
  | chatterWindowEnd => exact ⟨_, rfl, .ite (.endWindow s) (.refl s)⟩
  | slotTableInstall => exact ⟨_, rfl, .ite (.installSlots s) (.refl s)⟩
  | countSample slot active =>
    exact ⟨_, rfl, .ite (State.Orderly.trans (.live s _ _ _ _ _ _ _ _ _ _)
      (.sampleSlot _ slot active)) (.refl s)⟩
  | windowClose i =>
    exact ⟨_, rfl, .ite (.modInput s i fun h => h.fewer (List.length_filter_le _ _)) (.refl s)⟩
  | stallTimerExpiry k =>
    exact ⟨_, rfl, .ite ((lineRel_orderly.changeStation s k _).trans
      (lineRel_orderly.settleLines s _)) (.refl s)⟩
  | armedReportExpiry k => exact ⟨_, rfl, .ite (.modStation s k _) (.refl s)⟩
  | thresholdExpiry n => exact ⟨_, rfl, .ite (lineRel_orderly.promote s n _) (.refl s)⟩
  | planOverrun n => exact ⟨_, rfl, .ite (lineRel_orderly.overrun s n) (.refl s)⟩
  | deadlineExpiry key => exact ⟨_, rfl, .ite (.modRecord s key _) (.refl s)⟩
  | boundaryReached =>
    refine ⟨_, rfl, .ite ?_ (.refl s)⟩
    split
    · exact .takeBoundary s _
    · exact .refl s
  | shiftLengthLimit n => exact ⟨_, rfl, .ite (lineRel_orderly.takeLimit s n) (.refl s)⟩
  | archiveWriteComplete =>
    refine ⟨_, rfl, .ite ?_ (.refl s)⟩
    split
    · exact (State.Orderly.bankWritten s _).trans
        (.ite (lineRel_orderly.takeDeferred _ _) (.refl _))
    · exact .refl s
    · exact .refl s
  | settingsWriteComplete =>
    refine ⟨_, rfl, .ite ?_ (.refl s)⟩
    split
    · exact (State.Orderly.settingsWritten s).trans (.replyStored _)
    · exact .refl s
    · exact .refl s
  | powerFail =>
    exact ⟨_, rfl, .ite ((State.Orderly.failOnce s).trans (.live s.failOnce _ _ _ _ _ _ _ _ _ _))
      (.refl s)⟩
  | resetAssert =>
    exact ⟨_, rfl, .ite (.refl s)
      ((State.Orderly.failOnce s).trans (.live s.failOnce _ _ _ _ _ _ _ _ _ _))⟩
  | powerReturn =>
    exact ⟨_, rfl, .ite (.refl s) ((State.Orderly.live s _ _ _ _ _ _ _ _ _ _).trans
      (.restartWrite _))⟩
  | resetRelease =>
    exact ⟨_, rfl, .ite ((State.Orderly.live s _ _ _ _ _ _ _ _ _ _).trans (.restartWrite _))
      (.refl s)⟩
  | warmStart =>
    refine ⟨_, rfl, .ite ?_ (.refl s)⟩
    split
    · exact (State.Orderly.settleOutage s _).trans ((State.Orderly.restart _).trans
        ((State.Orderly.resume _).trans (.latch _ _)))
    · exact .refl s
  | _ => exact nomatch hi

/-- Every command but READ-ALERTS, COLD-START and the two that may carry a READ-ALERTS. -/
theorem exec_orderly (i : Instr) (s : State) (hread : i ≠ .readAlerts) (hcold : i ≠ .coldStart)
    (hframe : ∀ c, i ≠ .frameComplete c) (hchar : ∀ b g, i ≠ .characterReceived b g) :
    ∃ t, exec i s = .next t ∧ s.Orderly t := by
  cases hi : i.request? with
  | none => exact exec_orderly_event i s hi hcold hframe hchar
  | some kind => exact exec_orderly_request i s hi hread

theorem State.Contained.clearAlerts (s : State) : s.Contained s.clearAlerts where
  pending := rfl
  capacity := fun h => ⟨h.journal, h.archive, h.windows, h.activity, h.glitches, h.lost, h.settings,
    h.copy, h.image⟩

theorem execReadAlerts_contained (s : State) :
    ∃ t, execReadAlerts s = .next t ∧ s.Contained t := by
  refine ⟨_, rfl, ?_⟩
  unfold State.serve
  split
  · split
    · exact (State.Orderly.owe s _).toContained
    · exact (State.Contained.clearAlerts s).trans (State.Orderly.owe _ _).toContained
  · exact .refl s

/-- A frame's request acts as its own command, and a command that is no request is not carried by
one. -/
theorem takeRequest_eq_exec {i : Instr} {kind : RequestKind} (hi : i.request? = some kind)
    (s : State) : takeRequest i s = exec i s := by
  cases i with
  | frameComplete | frameGapTimeout | replyStart | replyComplete | matrixScan | chatterWindowEnd
  | slotTableInstall | countSample | windowClose | stallTimerExpiry | armedReportExpiry
  | thresholdExpiry | planOverrun | deadlineExpiry | boundaryReached | shiftLengthLimit
  | archiveWriteComplete | settingsWriteComplete | powerFail | resetAssert | powerReturn
  | resetRelease | warmStart | coldStart | characterReceived => exact nomatch hi
  | _ => rfl

theorem takeRequest_event {i : Instr} (hi : i.request? = none) (s : State) :
    takeRequest i s = .next s := by
  cases i with
  | frameComplete | frameGapTimeout | replyStart | replyComplete | matrixScan | chatterWindowEnd
  | slotTableInstall | countSample | windowClose | stallTimerExpiry | armedReportExpiry
  | thresholdExpiry | planOverrun | deadlineExpiry | boundaryReached | shiftLengthLimit
  | archiveWriteComplete | settingsWriteComplete | powerFail | resetAssert | powerReturn
  | resetRelease | warmStart | coldStart | characterReceived => rfl
  | _ => exact nomatch hi

theorem takeRequest_contained (i : Instr) (s : State) :
    ∃ t, takeRequest i s = .next t ∧ s.Contained t := by
  cases hi : i.request? with
  | none => exact ⟨s, takeRequest_event hi s, .refl s⟩
  | some kind =>
    rw [takeRequest_eq_exec hi]
    by_cases hread : i = .readAlerts
    · subst hread; exact execReadAlerts_contained s
    · obtain ⟨t, ht, ho⟩ := exec_orderly_request i s hi hread
      exact ⟨t, ht, ho.toContained⟩

theorem judgeFrame_contained (f : Frame) (s : State) :
    ∃ t, judgeFrame f s = .next t ∧ s.Contained t := by
  unfold judgeFrame
  split
  · exact ⟨s, rfl, .refl s⟩
  split
  · exact ⟨s, rfl, .refl s⟩
  split
  · unfold takeAddressed
    split
    · exact ⟨_, rfl, (State.Orderly.owe s _).toContained⟩
    · split
      · exact ⟨_, rfl, (State.Orderly.owe s _).toContained⟩
      · exact takeRequest_contained _ s
  split
  · exact ⟨s, rfl, .refl s⟩
  split
  · unfold takeBroadcast
    split
    · exact ⟨_, rfl, (State.Orderly.ite (.setHall s _) (.refl s)).toContained⟩
    · exact ⟨s, rfl, .refl s⟩
  · exact ⟨s, rfl, .refl s⟩

theorem takeCharacter_contained (b : Byte) (good : Bool) (s : State) :
    ∃ t, takeCharacter b good s = .next t ∧ s.Contained t := by
  unfold takeCharacter
  extract_lets r link u
  have hu : s.Contained u := (State.Orderly.live s _ _ _ _ _ _ _ _ _ _).toContained
  clear_value u
  split
  · obtain ⟨t, ht, hc⟩ := judgeFrame_contained _ u
    exact ⟨t, ht, hu.trans hc⟩
  · exact ⟨u, rfl, hu⟩

theorem exec_contained (i : Instr) (s : State) : ∃ t, exec i s = .next t ∧ s.Contained t := by
  by_cases hread : i = .readAlerts
  · subst hread; exact execReadAlerts_contained s
  by_cases hcold : i = .coldStart
  · subst hcold
    refine ⟨_, rfl, ?_⟩
    split
    · exact (State.Contained.cold s).trans
        (State.Orderly.onlyStations (.rebuildStations s.cold)).toContained
    · exact .refl s
  by_cases hframe : ∃ c, i = .frameComplete c
  · obtain ⟨c, rfl⟩ := hframe
    change ∃ t, execFrameComplete c s = _ ∧ _
    unfold execFrameComplete
    split
    · exact takeCharacter_contained c true s
    · exact ⟨s, rfl, .refl s⟩
  by_cases hchar : ∃ b g, i = .characterReceived b g
  · obtain ⟨b, g, rfl⟩ := hchar
    change ∃ t, execCharacterReceived b g s = _ ∧ _
    unfold execCharacterReceived
    split
    · exact takeCharacter_contained b g s
    · exact ⟨s, rfl, .refl s⟩
  obtain ⟨t, ht, ho⟩ := exec_orderly i s hread hcold (fun c e => hframe ⟨c, e⟩)
    fun b g e => hchar ⟨b, g, e⟩
  exact ⟨t, ht, ho.toContained⟩

/-- Settles O3: every command answers a next state, by `exec_contained`. -/
theorem everyCommandAnswersAState : Obligations.EveryCommandAnswersAState := by
  intro i s
  obtain ⟨t, ht, hc⟩ := exec_contained i s
  exact ⟨t, ht, hc.pending⟩

theorem exec_capacity {i : Instr} {s t : State} (h : s.WithinCapacity) (ht : exec i s = .next t) :
    t.WithinCapacity := by
  obtain ⟨u, hu, hc⟩ := exec_contained i s
  obtain rfl : u = t := Host.Outcome.next.inj (hu.symm.trans ht)
  exact hc.capacity h

/-- Settles O6: a step is a command on the rest of the queue, an event that is due, or a slot of
time. -/
theorem stepKeepsCapacity : Obligations.StepKeepsCapacity := by
  intro s t h hstep
  unfold step at hstep
  split at hstep
  · unfold idle at hstep
    split at hstep
    · exact exec_capacity h hstep
    · obtain rfl := Host.Outcome.next.inj hstep
      unfold State.tick
      exact (State.Orderly.live s _ _ _ _ _ _ _ _ _ _).capacity h
  · rename_i c rest _
    have hrest : State.WithinCapacity { s with pending := rest } := ⟨h.journal, h.archive, h.windows,
      h.activity, h.glitches, h.lost, h.settings, h.copy, h.image⟩
    exact exec_capacity hrest hstep

/-- Settles O18: alerts stay by `exec_orderly`; ATTN is read off its definition. -/
theorem alertsStayLatchedAndDriveAttn : Obligations.AlertsStayLatchedAndDriveAttn := by
  refine ⟨fun i s t a hread hcold hframe hchar ht hlatched => ?_, fun s => ?_⟩
  · obtain ⟨u, hu, ho⟩ := exec_orderly i s hread hcold hframe hchar
    obtain rfl : u = t := Host.Outcome.next.inj (hu.symm.trans ht)
    exact ho.alerts a hlatched
  · simp [State.attn, State.holdsSettled]

end Sys2Proof.Machine

/-! Lines stay coherent (R69, R74, R117). The coherence of a line is a matter of its shape: its state,
whether its slot holds a candidate or an open record, and whether it has a plan, a bank and a deferred
boundary. Each operation of a line is said once by what it makes of the shape. -/

namespace Sys2Proof.Machine

/-! ### Shapes -/

/-- What the coherence of a line is about. -/
structure LineShape where
  state : LineState
  /-- Whether the stoppage in the slot is an open record; none for an empty slot. -/
  slot : Option Bool
  plan : Bool
  bank : Bool
  deferred : Bool

/-- The stoppage is an open record. -/
def Stoppage.isRecord (r : Stoppage) : Bool :=
  match r.kind with
  | .candidate _ => false
  | .record _ => true

/-- The shape of a line. -/
def LineLive.shape (l : LineLive) : LineShape :=
  { state := l.state, slot := l.slot.map Stoppage.isRecord, plan := l.plan.isSome,
    bank := l.bank.isSome, deferred := l.deferred }

/-- The shapes of coherent lines. -/
def LineShape.coherent (h : LineShape) : Prop :=
  match h.state with
  | .outOfService => h.slot = none ∧ h.plan = false ∧ h.bank = false ∧ h.deferred = false
  | .resuming | .running => h.slot = none ∧ h.plan = false ∧ h.bank = true
  | .pendingStop => h.slot = some false ∧ h.plan = false ∧ h.bank = true
  | .down => h.slot = some true ∧ h.plan = false ∧ h.bank = true
  | .planned => h.slot = none ∧ h.plan = true ∧ h.bank = true

theorem LineLive.openRecord_isSome (l : LineLive) :
    l.openRecord.isSome = true ↔ l.slot.map Stoppage.isRecord = some true := by
  unfold LineLive.openRecord
  cases l.slot with
  | none => simp
  | some r => cases hk : r.kind <;> simp [Stoppage.isRecord, hk]

theorem LineLive.coherent_iff (l : LineLive) : l.coherent = true ↔ l.shape.coherent := by
  unfold LineLive.coherent LineShape.coherent LineLive.shape
  cases l.state with
  | pendingStop =>
    cases l.slot with
    | none => simp
    | some r => cases hk : r.kind <;> simp [Stoppage.isRecord, hk]
  | down => simp only [Bool.and_eq_true, openRecord_isSome, Option.isNone_iff_eq_none,
      Option.isSome_eq_false_iff, and_assoc]
  | outOfService | resuming | running | planned => simp [and_assoc]

/-- A line with a bank and without a stoppage or a plan is coherent in RUNNING and in RESUMING. -/
theorem LineShape.coherent_of_free {h : LineShape} (hst : h.state = .running ∨ h.state = .resuming)
    (hs : h.slot = none) (hp : h.plan = false) (hb : h.bank = true) : h.coherent := by
  obtain hst | hst := hst <;> simp [LineShape.coherent, hst, hs, hp, hb]

theorem LineShape.coherent_of_record {h : LineShape} (hst : h.state = .down)
    (hs : h.slot = some true) (hp : h.plan = false) (hb : h.bank = true) : h.coherent := by
  simp [LineShape.coherent, hst, hs, hp, hb]

theorem LineShape.coherent_deferred {h : LineShape} (hc : h.coherent)
    (hs : h.state ≠ .outOfService) (d : Bool) : LineShape.coherent { h with deferred := d } := by
  obtain ⟨state, slot, plan, bank, deferred⟩ := h
  cases state with
  | outOfService => exact absurd rfl hs
  | resuming | running | pendingStop | down | planned => exact hc

theorem LineShape.coherent.bank_of_inService {h : LineShape} (hc : h.coherent)
    (hs : h.state ≠ .outOfService) : h.bank = true := by
  unfold LineShape.coherent at hc
  split at hc
  · exact absurd ‹_› hs
  all_goals exact hc.2.2

theorem LineShape.coherent.free {h : LineShape} (hc : h.coherent)
    (hs : h.state = .running ∨ h.state = .resuming) :
    h.slot = none ∧ h.plan = false ∧ h.bank = true := by
  obtain hs | hs := hs <;> simpa only [LineShape.coherent, hs] using hc

theorem LineShape.coherent.pending {h : LineShape} (hc : h.coherent) (hs : h.state = .pendingStop) :
    h.slot = some false ∧ h.plan = false ∧ h.bank = true := by
  simpa only [LineShape.coherent, hs] using hc

theorem LineShape.coherent.down {h : LineShape} (hc : h.coherent) (hs : h.state = .down) :
    h.slot = some true ∧ h.plan = false ∧ h.bank = true := by
  simpa only [LineShape.coherent, hs] using hc

theorem LineShape.coherent.planned {h : LineShape} (hc : h.coherent) (hs : h.state = .planned) :
    h.slot = none ∧ h.plan = true ∧ h.bank = true := by
  simpa only [LineShape.coherent, hs] using hc

theorem LineShape.coherent.outOfService {h : LineShape} (hc : h.coherent)
    (hs : h.state = .outOfService) :
    h.slot = none ∧ h.plan = false ∧ h.bank = false ∧ h.deferred = false := by
  simpa only [LineShape.coherent, hs] using hc

/-- A stoppage is in the slot in PENDING-STOP, as a candidate, and in DOWN, as a record. -/
theorem LineShape.coherent.of_slot {h : LineShape} (hc : h.coherent) {b : Bool}
    (hs : h.slot = some b) :
    h.state = (if b then .down else .pendingStop) ∧ h.plan = false ∧ h.bank = true := by
  unfold LineShape.coherent at hc
  split at hc <;> obtain ⟨hslot, hrest⟩ := hc <;> simp_all

theorem LineShape.coherent.inService_of_bank {h : LineShape} (hc : h.coherent)
    (hb : h.bank = true) : h.state ≠ .outOfService := by
  intro hs
  simp [LineShape.coherent, hs, hb] at hc

theorem LineShape.coherent.inService_of_deferred {h : LineShape} (hc : h.coherent)
    (hd : h.deferred = true) : h.state ≠ .outOfService := by
  intro hs
  simp [LineShape.coherent, hs, hd] at hc

theorem LineShape.eq_of_empty {h : LineShape} (hs : h.slot = none) :
    h = { h with slot := none, state := if none = some false then .down else h.state } := by
  cases h
  simpa using hs

/-- The shape of line `n`. -/
def State.shape (s : State) (n : LineId) : LineShape := (s.line n).shape

theorem State.shape_of_lines {s t : State} (h : t.lines = s.lines) (n : LineId) :
    t.shape n = s.shape n := by
  unfold State.shape State.line
  rw [h]

/-! ### What each operation makes of the shape of its line -/

theorem State.shape_modLine (s : State) (n : LineId) (f : LineLive → LineLive) :
    (s.modLine n f).shape n = (f (s.line n)).shape := by
  simp [State.shape]

@[simp] theorem State.shape_modBank (s : State) (n : LineId) (f : Bank → Bank) :
    (s.modBank n f).shape n = s.shape n := by
  unfold State.modBank
  rw [State.shape_modLine]
  simp [State.shape, LineLive.shape]

@[simp] theorem State.shape_rebook (s : State) (n : LineId) (t : Nat) :
    (s.rebook n t).shape n = s.shape n := by
  unfold State.rebook
  rw [State.shape_modLine]
  simp [State.shape, LineLive.shape]

@[simp] theorem State.shape_enterLine (s : State) (n : LineId) (st : LineState) (t : Nat) :
    (s.enterLine n st t).shape n = { s.shape n with state := st } := by
  unfold State.enterLine
  rw [State.shape_rebook, State.shape_modLine]
  simp [State.shape, LineLive.shape]

@[simp] theorem State.shape_testDegraded (s : State) (n : LineId) :
    (s.testDegraded n).shape n = s.shape n := by
  unfold State.testDegraded
  split
  · rfl
  · split
    · rename_i r hslot hdeg
      unfold State.markBankDegraded State.modSlot
      rw [State.shape_modBank, State.shape_modLine]
      simp [State.shape, LineLive.shape, hslot, Stoppage.isRecord]
    · rfl

theorem State.lines_creditRoots (s : State) (micro : Bool) (cs : List Contributor) :
    (s.creditRoots micro cs).lines = s.lines :=
  State.creditRoots_same State.lines (fun _ _ _ => rfl) s micro cs

@[simp] theorem State.shape_creditRoots (s : State) (micro : Bool) (cs : List Contributor)
    (n : LineId) : (s.creditRoots micro cs).shape n = s.shape n :=
  State.shape_of_lines (s.lines_creditRoots micro cs) n

theorem State.lines_journalEnter (s : State) (r : JournalRecord) :
    (s.journalEnter r).lines = s.lines := by
  unfold State.journalEnter
  split <;> rfl

@[simp] theorem State.shape_journalEnter (s : State) (r : JournalRecord) (n : LineId) :
    (s.journalEnter r).shape n = s.shape n := State.shape_of_lines (s.lines_journalEnter r) n

theorem State.slot_of_shape {s : State} {n : LineId} {b : Bool} (h : (s.shape n).slot = some b) :
    ∃ r, (s.line n).slot = some r ∧ r.isRecord = b := by
  simpa [State.shape, LineLive.shape] using h

theorem State.slot_none_of_shape {s : State} {n : LineId} (h : (s.shape n).slot = none) :
    (s.line n).slot = none := by
  simpa [State.shape, LineLive.shape] using h

theorem State.shape_promote {s : State} {n : LineId} {b : Bool} (h : (s.shape n).slot = some b)
    (t : Nat) :
    (s.promote n t).shape n = { s.shape n with state := .down, slot := some true } := by
  obtain ⟨r, hr, -⟩ := State.slot_of_shape h
  unfold State.promote
  simp only [hr, State.shape_enterLine, State.shape_modLine]
  simp [LineLive.shape, State.shape, Stoppage.isRecord]

/-- The candidate that opens is in the slot, or is promoted at once. -/
theorem State.shape_openCandidate (s : State) (n : LineId) :
    (s.openCandidate n).shape n = { s.shape n with state := .pendingStop, slot := some false } ∨
      (s.openCandidate n).shape n = { s.shape n with state := .down, slot := some true } := by
  unfold State.openCandidate
  extract_lets w threshold r u v
  have hv : v.shape n = { s.shape n with state := .pendingStop, slot := some false } := by
    subst v u
    rw [State.shape_testDegraded, State.shape_enterLine, State.shape_modLine]
    rfl
  clear_value v
  split
  · exact .inr (by rw [State.shape_promote (b := false) (by rw [hv]), hv])
  · exact .inl hv

theorem State.coherent_openCandidate {s : State} {n : LineId} (hp : (s.shape n).plan = false)
    (hb : (s.shape n).bank = true) : ((s.openCandidate n).shape n).coherent := by
  obtain h | h := s.shape_openCandidate n <;> simp [h, LineShape.coherent, hp, hb]

theorem State.shape_endMicro {s : State} {n : LineId} {b : Bool} (h : (s.shape n).slot = some b)
    (t : Nat) : (s.endMicro n t).shape n = { s.shape n with slot := none } := by
  obtain ⟨r, hr, -⟩ := State.slot_of_shape h
  unfold State.endMicro
  simp only [hr, State.shape_creditRoots, State.shape_modLine]
  simp [LineLive.shape, State.shape]

theorem State.shape_closeRecord {s : State} {n : LineId} (h : (s.shape n).slot = some true)
    (kind : CloseKind) (t : Nat) :
    (s.closeRecord n kind t).shape n = { s.shape n with slot := none } := by
  obtain ⟨⟨r, m⟩, hr⟩ := Option.isSome_iff_exists.mp ((s.line n).openRecord_isSome.mpr h)
  rw [State.closeRecord_eq hr, State.shape_modLine]
  have hl : (((s.journalEnter (s.closedRecord n r m kind t)).creditRoots false
      (r.contributorsAt t)).line n) = s.line n := by
    unfold State.line
    rw [State.lines_creditRoots, State.lines_journalEnter]
  rw [hl]
  simp [LineLive.shape, State.shape]

theorem State.coherent_evaluate {s : State} {n : LineId} (hs : (s.shape n).slot = none)
    (hp : (s.shape n).plan = false) (hb : (s.shape n).bank = true) :
    ((s.evaluate n).shape n).coherent := by
  unfold State.evaluate
  split
  · rw [State.shape_enterLine]; exact LineShape.coherent_of_free (.inl rfl) hs hp hb
  · rw [State.shape_enterLine]; exact LineShape.coherent_of_free (.inr rfl) hs hp hb
  all_goals exact State.coherent_openCandidate hp hb

@[simp] theorem State.shape_rewalk (s : State) (n : LineId) : (s.rewalk n).shape n = s.shape n := by
  unfold State.rewalk
  split
  · rfl
  · rename_i r0 hslot
    extract_lets w same r markers c u
    have hu : u.shape n = s.shape n := by
      have hr : r.isRecord = r0.isRecord := rfl
      subst u
      split
      · rw [State.shape_modLine]; simp [State.shape, LineLive.shape, hslot, hr]
      · split
        · rw [State.shape_modLine]; simp [State.shape, LineLive.shape, hslot, Stoppage.isRecord, r]
        · rw [State.shape_rebook, State.shape_modLine]
          simp [State.shape, LineLive.shape, hslot, Stoppage.isRecord, r]
    rw [State.shape_testDegraded, hu]

theorem State.coherent_running {s t : State} {n : LineId}
    (ht : t.shape n = { s.shape n with slot := none }) (hp : (s.shape n).plan = false)
    (hb : (s.shape n).bank = true) (c : Nat) : ((t.enterLine n .running c).shape n).coherent := by
  rw [State.shape_enterLine, ht]
  exact LineShape.coherent_of_free (.inl rfl) rfl hp hb

theorem State.coherent_rewalk_ite {s : State} {n : LineId} (h : (s.shape n).coherent) (c : Prop)
    [Decidable c] : ((if c then s.rewalk n else s).shape n).coherent := by
  split
  · rw [State.shape_rewalk]; exact h
  · exact h

theorem State.coherent_lineNews {old s : State} {n : LineId} (h : (s.shape n).coherent) :
    ((State.lineNews old s n).shape n).coherent := by
  unfold State.lineNews
  split
  · exact h
  · split
    · exact h
    · extract_lets s1 walked s2 mine others st
      have h1 : s1.shape n = s.shape n := by
        subst s1
        split
        · exact s.shape_modBank n _
        · rfl
      have h2 : s2.shape n = s.shape n := by
        subst s2
        split
        · rw [State.shape_testDegraded, h1]
        · exact h1
      clear_value s2
      replace h : (s2.shape n).coherent := h2 ▸ h
      have hstate : (s2.shape n).state = (s.line n).state := congrArg LineShape.state h2
      split
      · rename_i hl
        obtain ⟨hs, hp, hb⟩ := h.free (.inr (hstate.trans hl))
        split
        · exact State.coherent_evaluate hs hp hb
        · exact h
      · rename_i hl
        obtain ⟨hs, hp, hb⟩ := h.free (.inl (hstate.trans hl))
        split
        · exact State.coherent_openCandidate hp hb
        · exact h
      · rename_i hl
        obtain ⟨hs, hp, hb⟩ := h.pending (hstate.trans hl)
        split
        · exact State.coherent_running (State.shape_endMicro hs _) hp hb _
        · exact State.coherent_rewalk_ite h _
      · rename_i hl
        obtain ⟨hs, hp, hb⟩ := h.down (hstate.trans hl)
        split
        · exact State.coherent_running (State.shape_closeRecord hs _ _) hp hb _
        · exact State.coherent_rewalk_ite h _
      · exact h
      · exact h

/-! ### Shifts -/

theorem State.lines_openTallies (s : State) (n : LineId) (t : Nat) :
    (s.openTallies n t).lines = s.lines := by
  have h : s.OnlyStations (s.openTallies n t) := .foldl (fun s k => .modStation s k _) _ s
  exact h.lines

@[simp] theorem State.shape_openShift (s : State) (n : LineId) (serial t : Nat) :
    (s.openShift n serial t).shape n = { s.shape n with bank := true } := by
  unfold State.openShift
  rw [State.shape_of_lines (State.lines_openTallies _ n t), State.shape_modLine]
  simp [LineLive.shape, State.shape]

theorem State.lines_queueJoin (s : State) (w : WriteItem) : (s.queueJoin w).lines = s.lines := by
  unfold State.queueJoin
  split
  · cases w <;> rfl
  · rfl

@[simp] theorem State.shape_stage (s : State) (n : LineId) (reason : CloseReason) (deferred : Bool)
    (t : Nat) : (s.stage n reason deferred t).shape n = s.shape n := by
  unfold State.stage
  split
  · rfl
  · rw [State.shape_of_lines (State.lines_queueJoin _ _), State.shape_modLine]
    rfl

/-- A settled slot is empty; a candidate has been promoted. -/
theorem State.shape_settleSlot (s : State) (n : LineId) (t : Nat) :
    (s.settleSlot n t).shape n = { s.shape n with
      slot := none
      state := if (s.shape n).slot = some false then .down else (s.shape n).state } := by
  cases hslot : (s.shape n).slot with
  | none =>
    unfold State.settleSlot
    rw [State.slot_none_of_shape hslot]
    exact LineShape.eq_of_empty hslot
  | some b =>
    obtain ⟨r, hr, rfl⟩ := State.slot_of_shape hslot
    unfold State.settleSlot
    rw [hr]
    cases hk : r.kind with
    | candidate e =>
      have hp := State.shape_promote hslot t
      simp only [hk]
      rw [State.shape_closeRecord (by rw [hp]), hp]
      simp [Stoppage.isRecord, hk]
    | record m =>
      simp only [hk]
      rw [State.shape_closeRecord (by simp [hslot, Stoppage.isRecord, hk])]
      simp [Stoppage.isRecord, hk]

theorem State.shape_closeShift (s : State) (n : LineId) (reason : CloseReason) (deferred : Bool)
    (t : Nat) :
    (s.closeShift n reason deferred t).shape n = { s.shape n with
      slot := none
      state := if (s.shape n).slot = some false then .down else (s.shape n).state } := by
  unfold State.closeShift
  rw [State.shape_stage, ← State.shape_settleSlot]
  exact State.shape_of_lines (t := (s.settleSlot n t).lapseShift n _) rfl n

/-- The next shift opens in the line's state, or in DOWN with the continuation of a stoppage. -/
theorem State.coherent_turnShift {s : State} {n : LineId} (h : (s.shape n).coherent)
    (hserv : (s.shape n).state ≠ .outOfService) (reason : CloseReason) (deferred : Bool) (t : Nat) :
    ((s.turnShift n reason deferred t).shape n).coherent := by
  have hclosed := s.shape_closeShift n reason deferred t
  unfold State.turnShift
  extract_lets serial slot u
  change u.shape n = _ at hclosed
  clear_value u
  cases hslot : slot with
  | none =>
    have hs : (s.shape n).slot = none := by simpa [State.shape, LineLive.shape] using hslot
    dsimp only
    rw [State.shape_openShift, hclosed, hs, ← LineShape.eq_of_empty hs]
    simpa only [← h.bank_of_inService hserv] using h
  | some r =>
    dsimp only
    have hrec : (s.shape n).slot = some r.isRecord := congrArg (Option.map Stoppage.isRecord) hslot
    obtain ⟨hstate, hp, hb⟩ := h.of_slot hrec
    have hdown : (u.shape n).state = .down := by
      rw [hclosed, hstate, hrec]
      cases r.isRecord <;> rfl
    have hplan : (u.shape n).plan = false := by rw [hclosed]; exact hp
    rw [State.shape_testDegraded, State.shape_openShift, State.shape_modLine]
    exact LineShape.coherent_of_record hdown rfl hplan rfl

/-! ### The lines together -/

theorem State.coherent_iff {s : State} : s.Coherent ↔ ∀ n, (s.shape n).coherent :=
  forall_congr' fun n => (s.line n).coherent_iff

theorem State.Coherent.shape {s : State} (h : s.Coherent) (n : LineId) : (s.shape n).coherent :=
  State.coherent_iff.mp h n

theorem State.Coherent.of_lines {s t : State} (h : s.Coherent) (hl : t.lines = s.lines) :
    t.Coherent := State.coherent_iff.mpr fun n => by
  rw [State.shape_of_lines hl]; exact h.shape n

theorem State.Coherent.of_shape {s t : State} (h : s.Coherent)
    (hl : ∀ n, t.shape n = s.shape n) : t.Coherent := State.coherent_iff.mpr fun n => by
  rw [hl]; exact h.shape n

/-- An operation of one line keeps the lines coherent when it leaves its own line so. -/
theorem State.Coherent.of_only {s t : State} (h : s.Coherent) {n : LineId} (ho : s.OnlyLine t n)
    (hn : (t.shape n).coherent) : t.Coherent := State.coherent_iff.mpr fun m => by
  by_cases hm : m = n
  · rw [hm]; exact hn
  · unfold State.shape
    rw [ho.others m hm]
    exact h.shape m

theorem State.Coherent.modLine {s : State} (h : s.Coherent) {n : LineId} {f : LineLive → LineLive}
    (hf : (f (s.line n)).shape = (s.line n).shape) : (s.modLine n f).Coherent :=
  h.of_only (.modLine s n f) (by rw [State.shape_modLine, hf]; exact h.shape n)

theorem State.Coherent.foldl {α : Type} {f : State → α → State}
    (hf : ∀ s a, s.Coherent → (f s a).Coherent) (l : List α) {s : State} (h : s.Coherent) :
    (l.foldl f s).Coherent := by
  induction l generalizing s with
  | nil => exact h
  | cons a l ih => exact ih (hf s a h)

theorem State.Coherent.settleLines {s : State} (h : s.Coherent) (old : State) :
    (State.settleLines old s).Coherent :=
  .foldl (fun s n h => h.of_only (.lineNews old s n) (State.coherent_lineNews (h.shape n))) _ h

theorem State.Coherent.settlePoints {s : State} (h : s.Coherent) (old : State) :
    (State.settlePoints old s).Coherent := by
  unfold State.settlePoints
  refine State.Coherent.settleLines (h.of_lines ?_) old
  exact ((State.OnlyStations.foldl (fun s k => .refreshDegraded s k) _ s).trans
    (.foldl (fun s k => .derive s k) _ _)).lines

theorem State.Coherent.paceEdge {s : State} (h : s.Coherent) (k : StationId) :
    (s.paceEdge k).Coherent := by
  unfold State.paceEdge
  extract_lets s1 timer
  have h1 : s1.Coherent := h.of_lines rfl
  split
  · exact h1.of_lines rfl
  · exact (h1.of_lines (State.OnlyStations.changeStation s1 k _).lines).settleLines s
  all_goals exact h1

theorem State.inService_iff {s : State} {n : LineId} :
    s.inService n = true ↔ (s.shape n).state ≠ .outOfService := by
  simp [State.inService, LineLive.inService, State.shape, LineLive.shape]

theorem State.Coherent.turnShift {s : State} (h : s.Coherent) {n : LineId}
    (hn : s.inService n = true) (reason : CloseReason) (deferred : Bool) (t : Nat) :
    (s.turnShift n reason deferred t).Coherent :=
  h.of_only (.turnShift s n reason deferred t)
    (State.coherent_turnShift (h.shape n) (State.inService_iff.mp hn) reason deferred t)

theorem State.Coherent.lineBoundary {s : State} (h : s.Coherent) (n : LineId) :
    (s.lineBoundary n).Coherent := by
  unfold State.lineBoundary
  split
  · exact h
  · rename_i hn
    have hserv : s.inService n = true := by simpa using hn
    split
    · refine h.of_only (.modLine s n _) ?_
      rw [State.shape_modLine]
      exact LineShape.coherent_deferred (h.shape n) (State.inService_iff.mp hserv) true
    · exact h.turnShift hserv _ _ _

theorem State.Coherent.takeBoundary {s : State} (h : s.Coherent) (b : Nat) :
    (s.takeBoundary b).Coherent :=
  .foldl (fun _ n h => h.lineBoundary n) _ (h.of_lines rfl)

theorem State.Coherent.setHall {s : State} (h : s.Coherent) (hall : Nat) :
    (s.setHall hall).Coherent := by
  unfold State.setHall
  extract_lets jump c u
  have hu : u.Coherent := h.of_lines rfl
  clear_value jump u
  cases jump with
  | none => exact hu.of_lines rfl
  | some b => exact hu.takeBoundary b

theorem State.Coherent.takeLimit {s : State} (h : s.Coherent) (n : LineId) :
    (s.takeLimit n).Coherent := by
  unfold State.takeLimit
  split
  · rename_i hdue
    refine h.turnShift (State.inService_iff.mpr ((h.shape n).inService_of_bank ?_)) _ _ _
    unfold State.lengthDue at hdue
    change (s.line n).bank.isSome = true
    split at hdue
    · rename_i b hb; rw [hb]; rfl
    · exact nomatch hdue
  · exact h

theorem State.Coherent.takeLimits {s : State} (h : s.Coherent) : s.takeLimits.Coherent :=
  .foldl (fun _ n h => h.takeLimit n) _ h

theorem State.Coherent.takeDeferred {s : State} (h : s.Coherent) (n : LineId) :
    (s.takeDeferred n).Coherent := by
  unfold State.takeDeferred
  split
  · rename_i hd
    have hserv := (h.shape n).inService_of_deferred hd
    have hcleared : (s.modLine n fun l => { l with deferred := false }).Coherent :=
      h.of_only (.modLine s n _) (by
        rw [State.shape_modLine]
        exact LineShape.coherent_deferred (h.shape n) hserv false)
    refine hcleared.turnShift (State.inService_iff.mpr ?_) _ _ _
    rw [State.shape_modLine]
    exact hserv
  · exact h

theorem State.Coherent.promote {s : State} (h : s.Coherent) {n : LineId} {r : Stoppage}
    (hr : (s.line n).slot = some r) (t : Nat) : (s.promote n t).Coherent := by
  have hrec : (s.shape n).slot = some r.isRecord := congrArg (Option.map Stoppage.isRecord) hr
  obtain ⟨-, hp, hb⟩ := (h.shape n).of_slot hrec
  refine h.of_only (.promote s n t) ?_
  rw [State.shape_promote hrec]
  exact LineShape.coherent_of_record rfl rfl hp hb

theorem State.Coherent.newThreshold {s : State} (h : s.Coherent) (n : LineId) (threshold : Nat) :
    (s.newThreshold n threshold).Coherent := by
  unfold State.newThreshold
  split
  · exact h
  · rename_i r hr
    split
    · exact h
    · rename_i e hk
      split
      · exact h.promote hr _
      · exact h.modLine (by simp [LineLive.shape, hr, Stoppage.isRecord, hk])

theorem State.Coherent.thresholdExpiry {s : State} (h : s.Coherent) {n : LineId}
    (hdue : s.thresholdDue n = true) : (s.promote n s.now).Coherent := by
  unfold State.thresholdDue at hdue
  split at hdue
  · rename_i r hr; exact h.promote hr _
  · exact nomatch hdue

/-- The stoppage in the slot ends: the slot is empty and the rest of the shape is as it was. -/
theorem State.shape_endForPlan (s : State) (n : LineId) :
    (s.endForPlan n).shape n = { s.shape n with slot := none } := by
  unfold State.endForPlan
  split
  · rename_i hs
    have hs : (s.shape n).slot = none := congrArg (Option.map Stoppage.isRecord) hs
    cases hsh : s.shape n
    rw [hsh] at hs
    exact congrArg (fun x => LineShape.mk _ x _ _ _) hs
  · rename_i r hr
    have hrec : (s.shape n).slot = some r.isRecord := congrArg (Option.map Stoppage.isRecord) hr
    split
    · exact State.shape_endMicro hrec _
    · rename_i m hk
      exact State.shape_closeRecord (by rw [hrec, Stoppage.isRecord, hk]) _ _

theorem State.OnlyLine.endForPlan (s : State) (n : LineId) : s.OnlyLine (s.endForPlan n) n := by
  unfold State.endForPlan
  split
  · exact .refl s n
  · split
    · exact .endMicro s n _
    · exact .closeRecord s n _ _

theorem State.OnlyLine.beginPlan (s : State) (n : LineId) (p : Plan) :
    s.OnlyLine (s.beginPlan n p) n :=
  ((State.OnlyLine.endForPlan s n).trans (.modLine _ n _)).trans (.enterLine _ n _ _)

theorem State.Coherent.beginPlan {s : State} (h : s.Coherent) {n : LineId}
    (hn : s.inService n = true) (p : Plan) : (s.beginPlan n p).Coherent := by
  refine h.of_only (.beginPlan s n p) ?_
  have hb := (h.shape n).bank_of_inService (State.inService_iff.mp hn)
  have he := s.shape_endForPlan n
  unfold State.beginPlan
  rw [State.shape_enterLine, State.shape_modLine]
  refine ⟨congrArg LineShape.slot he, rfl, ?_⟩
  exact (congrArg LineShape.bank he).trans hb

theorem State.Coherent.endPlan {s : State} (h : s.Coherent) {n : LineId}
    (hn : (s.line n).state = .planned) : (s.endPlan n).Coherent := by
  obtain ⟨hs, -, hb⟩ := (h.shape n).planned hn
  refine h.of_only ((State.OnlyLine.modLine s n _).trans (.evaluate _ n)) ?_
  refine State.coherent_evaluate ?_ ?_ ?_ <;> rw [State.shape_modLine]
  · exact hs
  · rfl
  · exact hb

theorem State.Coherent.rebook {s : State} (h : s.Coherent) (n : LineId) (t : Nat) :
    (s.rebook n t).Coherent :=
  h.of_only (.rebook s n t) (by rw [State.shape_rebook]; exact h.shape n)

theorem State.Coherent.overrun {s : State} (h : s.Coherent) (n : LineId) :
    (s.overrun n).Coherent :=
  State.Coherent.rebook (h.modLine (by simp [LineLive.shape])) n _

theorem State.Coherent.modBank {s : State} (h : s.Coherent) (n : LineId) (f : Bank → Bank) :
    (s.modBank n f).Coherent := h.modLine (by simp [LineLive.shape])

theorem State.Coherent.setRate {s : State} (h : s.Coherent) (n : LineId) (rate : Nat) :
    (s.setRate n rate).Coherent := by
  unfold State.setRate
  extract_lets old now u
  have hu : u.Coherent := by
    subst u
    split
    · exact h.modBank n _
    · exact h
  exact hu.of_lines rfl

theorem State.lines_emptyQueues (s : State) (n : LineId) : (s.emptyQueues n).lines = s.lines := by
  rw [State.emptyQueues_eq]

theorem State.Coherent.enable {s : State} (h : s.Coherent) {n : LineId}
    (hn : s.inService n = false) : (s.enable n).Coherent := by
  have hout : (s.shape n).state = .outOfService := by
    simpa [State.inService, LineLive.inService, State.shape, LineLive.shape] using hn
  obtain ⟨hs, hp, -⟩ := (h.shape n).outOfService hout
  unfold State.enable
  extract_lets u
  have hopen : s.OnlyLine u n := .openShift s n _ _
  have hu : u.shape n = { s.shape n with bank := true } := s.shape_openShift n _ _
  clear_value u
  have hlines : ((u.startTimers n).emptyQueues n).lines = u.lines :=
    (State.lines_emptyQueues _ n).trans (State.OnlyStations.startTimers u n).lines
  have hsh := State.shape_of_lines hlines
  refine State.coherent_iff.mpr fun m => ?_
  by_cases hm : m = n
  · subst hm
    exact State.coherent_evaluate (by rw [hsh, hu]; exact hs) (by rw [hsh, hu]; exact hp)
      (by rw [hsh, hu])
  · unfold State.shape
    rw [(State.OnlyLine.evaluate _ n).others m hm]
    change (State.shape _ m).coherent
    rw [hsh]
    unfold State.shape
    rw [hopen.others m hm]
    exact h.shape m

theorem State.lines_dropTallies (s : State) (n : LineId) : (s.dropTallies n).lines = s.lines := by
  have h : s.OnlyStations (s.dropTallies n) := .foldl (fun s k => .modStation s k _) _ s
  exact h.lines

theorem State.lines_dropWindows (s : State) : s.dropWindows.lines = s.lines := by
  simp only [State.dropWindows]

theorem State.Coherent.disable {s : State} (h : s.Coherent) (n : LineId) :
    (s.disable n).Coherent := by
  unfold State.disable
  extract_lets stamp u v
  have hu : s.OnlyLine u n := .closeShift s n _ _ _
  clear_value u
  have hv : v.lines = (u.modLine n fun l => l.retired stamp).lines := State.lines_dropTallies _ n
  have hw : (v.stopTimers n).dropWindows.lines = v.lines :=
    (State.lines_dropWindows _).trans (State.OnlyStations.stopTimers v n).lines
  refine State.Coherent.of_lines ?_ (hw.trans hv)
  refine h.of_only (hu.trans (.modLine u n _)) ?_
  rw [State.shape_modLine]
  exact ⟨rfl, rfl, rfl, rfl⟩

end Sys2Proof.Machine

/-! The accounts of the banks and of the station tallies (R62, R118, R120, R131): each operation of a
line keeps them up to the instant it acts at. -/

namespace Sys2Proof.Machine

/-! ### Accounts up to an instant -/

/-- Every bank accounts for its shift up to `T`. -/
def State.BanksAt (s : State) (T : Nat) : Prop :=
  ∀ n b, (s.line n).bank = some b → b.accounted T = true

/-- The tally of a station reaches from `o` to the beginning of its present segment, by `T`. -/
def StationLive.TalliedFrom (v : StationLive) (o T : Nat) : Prop :=
  ∃ y, v.tally = some y ∧ o + y.times.toList.sum = v.since ∧ v.since ≤ T

/-- The tally of every member of a line with a bank reaches from the opening of the shift. -/
def State.TalliesAt (s : State) (T : Nat) : Prop :=
  ∀ n b k, (s.line n).bank = some b → s.lineOf k = some n →
    (s.station k).TalliedFrom b.openCount T

theorem State.BanksAt.mono {s : State} {T U : Nat} (h : s.BanksAt T) (hTU : T ≤ U) : s.BanksAt U :=
  fun n b hb => Bank.accounted_mono (h n b hb) hTU

theorem State.TalliesAt.mono {s : State} {T U : Nat} (h : s.TalliesAt T) (hTU : T ≤ U) :
    s.TalliesAt U := fun n b k hb hk => by
  obtain ⟨y, hy, hsum, hle⟩ := h n b k hb hk
  exact ⟨y, hy, hsum, hle.trans hTU⟩

/-- A change of the state that keeps the accounts up to `T`, at the same instant and with the same
power. -/
structure State.Balances (T : Nat) (s u : State) : Prop where
  now : u.now = s.now
  power : u.power = s.power
  banks : s.BanksAt T → u.BanksAt T
  tallies : s.TalliesAt T → u.TalliesAt T

/-- What `b` becomes in a change of a bank that keeps its account up to `T`. -/
structure Bank.Follows (T : Nat) (b c : Bank) : Prop where
  openCount : c.openCount = b.openCount
  accounted : b.accounted T = true → c.accounted T = true

namespace Bank.Follows

variable {T : Nat} {b : Bank}

theorem refl : b.Follows T b := ⟨rfl, id⟩

theorem trans {c d : Bank} (h : b.Follows T c) (g : c.Follows T d) : b.Follows T d :=
  ⟨g.openCount.trans h.openCount, fun a => g.accounted (h.accounted a)⟩

theorem book : b.Follows T (b.book T) := ⟨rfl, fun h => Bank.accounted_book h le_rfl⟩

theorem switch (k : Bucket) : b.Follows T (b.switch T k) :=
  ⟨rfl, fun h => Bank.accounted_switch h le_rfl k⟩

theorem transfer (source target : Bucket) (amount : Nat) :
    b.Follows T (b.transfer source target amount) :=
  ⟨Bank.openCount_transfer _ _ _ _, fun h => Bank.accounted_transfer h source target amount⟩

theorem promoteTimes (cs : List Contributor) : b.Follows T (b.promoteTimes cs) := by
  induction cs generalizing b with
  | nil => exact .refl
  | cons c cs ih => exact (transfer _ _ _).trans ih

theorem credit (t rate : Nat) : b.Follows T (b.credit t rate) :=
  ⟨Bank.openCount_credit _ _ _, fun h => Bank.accounted_credit h t rate⟩

/-- A change that keeps what an account reads. -/
theorem of_eq {c : Bank} (ho : c.openCount = b.openCount) (ht : c.times = b.times)
    (hs : c.segStart = b.segStart) (hr : c.counts.remainder = b.counts.remainder) :
    b.Follows T c := by
  refine ⟨ho, fun h => ?_⟩
  rw [Bank.accounted_iff] at h ⊢
  unfold Bank.booked at h ⊢
  rw [ho, ht, hs, hr]
  exact h

theorem modCounts {f : Counts → Counts} (hf : ∀ c, (f c).remainder = c.remainder) :
    b.Follows T (b.modCounts f) := .of_eq rfl rfl rfl (hf b.counts)

end Bank.Follows

theorem State.mem_members {s : State} {n : LineId} {k : StationId} :
    k ∈ s.members n ↔ s.lineOf k = some n := by
  have hpos : (∃ p, s.positionIn n k = some p) ↔ s.lineOf k = some n := by
    unfold State.positionIn State.lineOf
    cases hd : s.stationDef k with
    | none => simp
    | some d => cases hp : d.place <;> simp [hp]
  rw [← hpos]
  simp [State.members, allStations]

theorem State.OnlyStations.lineOf {s t : State} (h : s.OnlyStations t) (k : StationId) :
    t.lineOf k = s.lineOf k := by
  unfold State.lineOf State.stationDef
  rw [h.same.settings]

/-- A change made to every station of a list, where making it twice is making it once. -/
theorem State.station_foldl_modStation {f : StationLive → StationLive} (hf : ∀ v, f (f v) = f v)
    (l : List StationId) (s : State) (k : StationId) :
    (l.foldl (fun s k => s.modStation k f) s).station k =
      if k ∈ l then f (s.station k) else s.station k := by
  induction l generalizing s with
  | nil => simp
  | cons m l ih =>
    rw [List.foldl_cons, ih]
    by_cases hk : k = m
    · subst hk
      simp [hf]
    · rw [State.station_modStation_ne s hk]
      simp [hk]

theorem State.station_openTallies (s : State) (n : LineId) (t : Nat) (k : StationId) :
    (s.openTallies n t).station k = if k ∈ s.members n then
      { s.station k with tally := some StationTally.zero, since := t } else s.station k :=
  State.station_foldl_modStation
    (f := fun v => { v with tally := some StationTally.zero, since := t }) (fun _ => rfl) _ s k

theorem State.station_dropTallies (s : State) (n : LineId) (k : StationId) :
    (s.dropTallies n).station k = if k ∈ s.members n then
      { s.station k with tally := none } else s.station k :=
  State.station_foldl_modStation (f := fun v => { v with tally := none }) (fun _ => rfl) _ s k

namespace State.Balances

variable {T : Nat}

theorem refl (s : State) : s.Balances T s := ⟨rfl, rfl, id, id⟩

theorem trans {s t u : State} (h : s.Balances T t) (g : t.Balances T u) : s.Balances T u :=
  ⟨g.now.trans h.now, g.power.trans h.power, fun a => g.banks (h.banks a),
    fun a => g.tallies (h.tallies a)⟩

theorem ite {s t u : State} {c : Prop} [Decidable c] (ht : s.Balances T t) (hu : s.Balances T u) :
    s.Balances T (if c then t else u) := by
  split
  · exact ht
  · exact hu

/-- A list of steps at one instant. -/
theorem foldl {α : Type} {f : State → α → State} {t : Nat}
    (hf : ∀ (s : State) a, s.now = t → s.Balances T (f s a)) (l : List α) {s : State} (hs : s.now = t) :
    s.Balances T (l.foldl f s) := by
  induction l generalizing s with
  | nil => exact .refl s
  | cons a l ih => exact (hf s a hs).trans (ih ((hf s a hs).now.trans hs))

/-- What is not of lines, stations, time, power or the places of stations. -/
theorem rest {s u : State} (hl : u.lines = s.lines) (hs : u.stations = s.stations)
    (hn : u.now = s.now) (hp : u.power = s.power) (hk : ∀ k, u.lineOf k = s.lineOf k) :
    s.Balances T u where
  now := hn
  power := hp
  banks := fun h n b hb => h n b (by unfold State.line at hb; rwa [hl] at hb)
  tallies := fun h n b k hb hkn => by
    unfold State.line at hb
    rw [hl] at hb
    unfold State.station
    rw [hs]
    exact h n b k hb (hk k ▸ hkn)

theorem modLine {s : State} {n : LineId} {f : LineLive → LineLive}
    (hf : ∀ c, (f (s.line n)).bank = some c → ∃ b, (s.line n).bank = some b ∧ b.Follows T c) :
    s.Balances T (s.modLine n f) where
  now := rfl
  power := rfl
  banks := fun h m c hc => by
    by_cases hm : m = n
    · subst hm
      rw [State.line_modLine_same] at hc
      obtain ⟨b, hb, hbc⟩ := hf c hc
      exact hbc.accounted (h m b hb)
    · rw [State.line_modLine_ne _ hm] at hc
      exact h m c hc
  tallies := fun h m c k hc hk => by
    by_cases hm : m = n
    · subst hm
      rw [State.line_modLine_same] at hc
      obtain ⟨b, hb, hbc⟩ := hf c hc
      rw [hbc.openCount]
      exact h m b k hb hk
    · rw [State.line_modLine_ne _ hm] at hc
      exact h m c k hc hk

/-- A change of a line that changes its bank, if it has one. -/
theorem mapBank {s : State} {n : LineId} {f : LineLive → LineLive} {g : Bank → Bank}
    (hf : (f (s.line n)).bank = (s.line n).bank.map g) (hg : ∀ b : Bank, b.Follows T (g b)) :
    s.Balances T (s.modLine n f) := by
  refine .modLine fun c hc => ?_
  rw [hf] at hc
  obtain ⟨b, hb, rfl⟩ := Option.map_eq_some_iff.mp hc
  exact ⟨b, hb, hg b⟩

/-- A change of a line that keeps its bank. -/
theorem keepBank {s : State} {n : LineId} {f : LineLive → LineLive}
    (hf : (f (s.line n)).bank = (s.line n).bank) : s.Balances T (s.modLine n f) :=
  .modLine fun c hc => ⟨c, hf ▸ hc, .refl⟩

theorem modBank (s : State) (n : LineId) {g : Bank → Bank} (hg : ∀ b : Bank, b.Follows T (g b)) :
    s.Balances T (s.modBank n g) := .mapBank rfl hg

/-- A change of every station that keeps what the tallies account for. -/
theorem stations {s : State} {v : Vector StationLive 64}
    (hv : ∀ k o, (s.station k).TalliedFrom o T → (Tab.get v k).TalliedFrom o T) :
    s.Balances T { s with stations := v } where
  now := rfl
  power := rfl
  banks := id
  tallies := fun h n b k hb hk => hv k _ (h n b k hb hk)

theorem modStation {s : State} {k : StationId} {f : StationLive → StationLive}
    (hf : ∀ o, (s.station k).TalliedFrom o T → (f (s.station k)).TalliedFrom o T) :
    s.Balances T (s.modStation k f) := by
  refine .stations fun m o hm => ?_
  by_cases hmk : m = k
  · subst hmk
    rw [Tab.get_modify_same]
    exact hf o hm
  · rw [Tab.get_modify_ne _ hmk]
    exact hm

/-- A change of a station that keeps its tally and the beginning of its segment. -/
theorem keepTally {s : State} {k : StationId} {f : StationLive → StationLive}
    (ht : (f (s.station k)).tally = (s.station k).tally)
    (hs : (f (s.station k)).since = (s.station k).since) : s.Balances T (s.modStation k f) :=
  .modStation fun _ ⟨y, hy, hsum, hle⟩ => ⟨y, ht.trans hy, hs ▸ hsum, hs ▸ hle⟩

theorem modTally (s : State) (k : StationId) {f : StationTally → StationTally}
    (hf : ∀ y, (f y).times = y.times) : s.Balances T (s.modTally k f) :=
  .modStation fun _ ⟨y, hy, hsum, hle⟩ =>
    ⟨f y, by simp [hy], by rw [hf]; exact hsum, hle⟩

end State.Balances

/-- A segment booked up to `T` begins afresh there. -/
theorem StationLive.TalliedFrom.bookAt {v w : StationLive} {o T : Nat} (h : v.TalliedFrom o T)
    (ht : w.tally = v.tallyAt T) (hs : w.since = T) : w.TalliedFrom o T := by
  obtain ⟨y, hy, hsum, hle⟩ := h
  refine ⟨y.addTime v.state (T - v.since), ?_, ?_, hs.le⟩
  · rw [ht, StationLive.tallyAt, hy]; rfl
  · rw [hs]
    unfold StationTally.addTime
    rw [Tab.sum_add]
    omega

/-! ### The operations of a line -/

namespace State.Balances

variable {T : Nat}

theorem rebook (s : State) (n : LineId) : s.Balances T (s.rebook n T) :=
  .mapBank rfl fun _ => .switch _

theorem enterLine (s : State) (n : LineId) (st : LineState) : s.Balances T (s.enterLine n st T) := by
  refine State.Balances.trans (.mapBank rfl fun b => ?_) (.rebook _ n)
  dsimp only
  split
  · exact (Bank.Follows.credit T _).trans (.of_eq rfl rfl rfl rfl)
  · exact .credit T _

theorem creditRoots (s : State) (micro : Bool) (cs : List Contributor) :
    s.Balances T (s.creditRoots micro cs) := by
  unfold State.creditRoots
  extract_lets u
  have hu : s.Balances T u := .foldl (t := s.now) (fun s c _ => .modTally s c.station fun y => by
    split <;> rfl) cs rfl
  clear_value u
  cases cs with
  | nil => exact hu
  | cons c cs => exact hu.trans (.modTally u c.station fun y => by split <;> rfl)

theorem testDegraded (s : State) (n : LineId) : s.Balances T (s.testDegraded n) := by
  unfold State.testDegraded
  split
  · exact .refl s
  · refine .ite (State.Balances.trans (.keepBank rfl) (.modBank _ n fun _ => ?_)) (.refl s)
    exact .of_eq rfl rfl rfl rfl

theorem promote (s : State) (n : LineId) : s.Balances T (s.promote n T) := by
  unfold State.promote
  split
  · exact .refl s
  · refine State.Balances.trans (.mapBank rfl fun b => ?_) (.enterLine _ n .down)
    exact (Bank.Follows.book.trans (.promoteTimes _)).trans (.modCounts fun _ => rfl)

theorem openCandidate {s : State} (hT : s.now = T) (n : LineId) :
    s.Balances T (s.openCandidate n) := by
  subst hT
  unfold State.openCandidate
  extract_lets w threshold r u v
  have hv : s.Balances s.now v :=
    State.Balances.trans (.keepBank rfl) ((State.Balances.enterLine u n _).trans (.testDegraded _ n))
  have hnow : v.now = s.now := hv.now
  clear_value v
  rw [hnow]
  exact .ite (hv.trans (.promote v n)) hv

theorem endMicro (s : State) (n : LineId) : s.Balances T (s.endMicro n T) := by
  unfold State.endMicro
  split
  · exact .refl s
  · refine State.Balances.trans (.mapBank rfl fun b => ?_) (.creditRoots _ true _)
    exact (Bank.Follows.book.trans (.transfer _ _ _)).trans (.modCounts fun _ => rfl)

theorem journalEnter (s : State) (r : JournalRecord) : s.Balances T (s.journalEnter r) := by
  unfold State.journalEnter
  split <;> exact .rest rfl rfl rfl rfl fun _ => rfl

theorem closeRecord (s : State) (n : LineId) (kind : CloseKind) (t : Nat) :
    s.Balances T (s.closeRecord n kind t) := by
  unfold State.closeRecord
  split
  · exact .refl s
  · exact ((State.Balances.journalEnter s _).trans (.creditRoots _ false _)).trans (.keepBank rfl)

theorem evaluate {s : State} (hT : s.now = T) (n : LineId) : s.Balances T (s.evaluate n) := by
  unfold State.evaluate
  split
  · rw [hT]; exact .enterLine s n _
  · rw [hT]; exact .enterLine s n _
  all_goals exact .openCandidate hT n

theorem rewalk {s : State} (hT : s.now = T) (n : LineId) : s.Balances T (s.rewalk n) := by
  unfold State.rewalk
  split
  · exact .refl s
  · extract_lets w same r markers c u
    have hu : s.Balances T u := by
      subst u
      rw [hT]
      refine .ite (.keepBank rfl) (.ite (.keepBank rfl) (State.Balances.trans ?_ (.rebook _ n)))
      exact .keepBank rfl
    exact hu.trans (.testDegraded u n)

theorem lineNews {s : State} (hT : s.now = T) (old : State) (n : LineId) :
    s.Balances T (State.lineNews old s n) := by
  unfold State.lineNews
  split
  · exact .refl s
  · split
    · exact .refl s
    · extract_lets s1 walked s2 mine others st
      have h1 : s.Balances T s1 := .ite (.modBank s n fun _ => .of_eq rfl rfl rfl rfl) (.refl s)
      have h2 : s.Balances T s2 := .ite (h1.trans (.testDegraded s1 n)) h1
      have hT2 : s2.now = T := h2.now.trans hT
      clear_value s2
      refine h2.trans ?_
      rw [hT]
      split
      · exact .ite (.evaluate hT2 n) (.refl s2)
      · exact .ite (.openCandidate hT2 n) (.refl s2)
      · exact .ite ((State.Balances.endMicro s2 n).trans (.enterLine _ n _))
          (.ite (.rewalk hT2 n) (.refl s2))
      · exact .ite ((State.Balances.closeRecord s2 n _ _).trans (.enterLine _ n _))
          (.ite (.rewalk hT2 n) (.refl s2))
      · exact .refl s2
      · exact .refl s2

theorem settleLines {s : State} (hT : s.now = T) (old : State) :
    s.Balances T (State.settleLines old s) :=
  .foldl (fun _ n hs => .lineNews hs old n) _ hT

/-! ### The stations -/

theorem changeStation {s : State} (hT : s.now = T) (k : StationId) (st : StationState) :
    s.Balances T (s.changeStation k st) := by
  refine .modStation fun o h => ?_
  obtain ⟨-, ht, hs⟩ := StationLive.change_rest (s.station k) st s.hall s.now (s.stallStart k)
  rw [hT] at ht hs
  exact h.bookAt (by rw [hT]; exact ht) (by rw [hT]; exact hs.1)

theorem derive {s : State} (hT : s.now = T) (k : StationId) : s.Balances T (s.derive k) := by
  unfold State.derive
  extract_lets st
  exact .ite (.refl s) (.changeStation hT k st)

theorem refreshDegraded (s : State) (k : StationId) : s.Balances T (s.refreshDegraded k) :=
  .keepTally rfl rfl

theorem settlePoints {s : State} (hT : s.now = T) (old : State) :
    s.Balances T (State.settlePoints old s) := by
  unfold State.settlePoints
  have h1 : s.Balances T (allStations.foldl (fun s k => s.refreshDegraded k) s) :=
    .foldl (fun s k _ => .refreshDegraded s k) _ hT
  have h2 := h1.trans (.foldl (fun s k hs => .derive hs k)
    (allStations.filter fun k => pointsMoved old s k) (h1.now.trans hT))
  exact h2.trans (.settleLines (h2.now.trans hT) old)

theorem paceEdge {s : State} (hT : s.now = T) (k : StationId) : s.Balances T (s.paceEdge k) := by
  unfold State.paceEdge
  extract_lets s1 timer
  have h1 : s.Balances T s1 := .modTally s k fun _ => rfl
  have hT1 : s1.now = T := hT
  split
  · exact h1.trans (.keepTally rfl rfl)
  · have h2 : s1.Balances T (s1.changeStation k .running) := .changeStation hT1 k _
    exact h1.trans (h2.trans (.settleLines (h2.now.trans hT1) s))
  all_goals exact h1

theorem startTimers (s : State) (n : LineId) : s.Balances T (s.startTimers n) :=
  .foldl (t := s.now) (fun s _ _ => .ite (.keepTally rfl rfl) (.refl s)) _ rfl

theorem stopTimers {s : State} (hT : s.now = T) (n : LineId) : s.Balances T (s.stopTimers n) :=
  .foldl (fun s k hs => State.Balances.trans (.ite (.changeStation hs k _) (.refl s))
    (.keepTally rfl rfl)) _ hT

/-- A station rebuilt keeps its tally, and its segment goes on (R67). -/
theorem rebuildStation (s : State) (k : StationId) : s.Balances T (s.rebuildStation k) := by
  unfold State.rebuildStation
  exact State.Balances.trans (.keepTally rfl rfl) (State.Balances.trans (.refreshDegraded _ k)
    (.keepTally rfl rfl))

theorem rebuildStations {s : State} (hT : s.now = T) : s.Balances T s.rebuildStations := by
  unfold State.rebuildStations
  extract_lets stamp u v
  have hu : s.Balances T u := .stations fun k o h => by
    rw [Tab.get_mapAll]
    exact h
  have hv : u.Balances T v := .foldl (fun s k _ => .refreshDegraded s k) _ (hu.now.trans hT)
  have huv := hu.trans hv
  exact huv.trans (.foldl (fun s k hs => .derive hs k) _ (huv.now.trans hT))

/-! ### Shifts -/

theorem settleSlot (s : State) (n : LineId) : s.Balances T (s.settleSlot n T) := by
  unfold State.settleSlot
  split
  · exact .refl s
  · extract_lets u
    have hu : s.Balances T u := by
      subst u
      split
      · exact .promote s n
      · exact .refl s
    exact hu.trans (.closeRecord u n _ T)

theorem queueJoin (s : State) (w : WriteItem) : s.Balances T (s.queueJoin w) := by
  unfold State.queueJoin
  refine .ite ?_ (.rest rfl rfl rfl rfl fun _ => rfl)
  cases w <;> exact .rest rfl rfl rfl rfl fun _ => rfl

theorem stage (s : State) (n : LineId) (reason : CloseReason) (deferred : Bool) (t : Nat) :
    s.Balances T (s.stage n reason deferred t) := by
  unfold State.stage
  split
  · exact .refl s
  · exact State.Balances.trans (.keepBank rfl) (.queueJoin _ _)

/-- A shift closes at `T`, or at any instant where no stoppage is in the slot. -/
theorem closeShift {s : State} {n : LineId} {t : Nat} (ht : t = T ∨ (s.line n).slot = none)
    (reason : CloseReason) (deferred : Bool) :
    s.Balances T (s.closeShift n reason deferred t) := by
  have hslot : s.Balances T (s.settleSlot n t) := by
    obtain rfl | hs := ht
    · exact .settleSlot s n
    · unfold State.settleSlot
      rw [hs]
      exact .refl s
  unfold State.closeShift
  extract_lets u
  have hlapse : u.Balances T (u.lapseShift n (u.line n).serial) := .rest rfl rfl rfl rfl fun _ => rfl
  exact (hslot.trans hlapse).trans (.stage _ n reason deferred t)

/-- A shift that opens by `T` has all its accounts at 0. -/
theorem openShift (s : State) (n : LineId) (serial : Nat) {t : Nat} (ht : t ≤ T) :
    s.Balances T (s.openShift n serial t) := by
  unfold State.openShift
  extract_lets openStamp noisy degraded u
  have ho : u.OnlyStations (u.openTallies n t) := .foldl (fun s k => .modStation s k _) _ u
  have hn : (u.line n).bank.map Bank.openCount = some t := by simp [u, Bank.create]
  have hacc : ∀ b, (u.line n).bank = some b → b.accounted t = true := by
    intro b hb
    simp only [u, State.line_modLine_same, Option.some.injEq] at hb
    subst hb
    exact Bank.accounted_create t noisy degraded (s.line n).bucket
  have hne : ∀ m, m ≠ n → u.line m = s.line m := fun m hm => State.line_modLine_ne s hm _
  have hlines : ∀ m, (u.openTallies n t).line m = u.line m := fun m => by
    unfold State.line
    rw [ho.lines]
  refine ⟨congrArg Clock.count ho.same.clock, ho.same.power, fun h m b hb => ?_,
    fun h m b k hb hk => ?_⟩
  · rw [hlines] at hb
    by_cases hm : m = n
    · subst hm
      exact Bank.accounted_mono (hacc b hb) ht
    · exact h m b (hne m hm ▸ hb)
  · rw [hlines] at hb
    have hk' : s.lineOf k = some m := (ho.lineOf k).symm.trans hk
    have hmem : k ∈ u.members n ↔ s.lineOf k = some n := State.mem_members
    rw [State.station_openTallies]
    by_cases hm : m = n
    · subst hm
      rw [hb] at hn
      obtain rfl : b.openCount = t := Option.some.inj hn
      rw [if_pos (hmem.mpr hk')]
      exact ⟨_, rfl, by simp [StationTally.zero], ht⟩
    · rw [if_neg fun hin => hm (Option.some.inj (hk'.symm.trans (hmem.mp hin)))]
      exact h m b k (hne m hm ▸ hb) hk'

theorem turnShift (s : State) (n : LineId) (reason : CloseReason) (deferred : Bool) :
    s.Balances T (s.turnShift n reason deferred T) := by
  unfold State.turnShift
  extract_lets serial slot u
  have hu : s.Balances T u := .closeShift (.inl rfl) reason deferred
  clear_value slot u
  cases slot with
  | none => exact hu.trans (.openShift u n serial le_rfl)
  | some r =>
    exact hu.trans (State.Balances.trans (.keepBank rfl)
      ((State.Balances.openShift _ n serial le_rfl).trans (.testDegraded _ n)))

theorem lineBoundary {s : State} (hT : s.now = T) (n : LineId) :
    s.Balances T (s.lineBoundary n) := by
  unfold State.lineBoundary
  rw [hT]
  exact .ite (.refl s) (.ite (.keepBank rfl) (.turnShift s n _ _))

theorem takeBoundary {s : State} (hT : s.now = T) (b : Nat) : s.Balances T (s.takeBoundary b) := by
  unfold State.takeBoundary
  extract_lets c u
  have hu : s.Balances T u.formBoundary := .rest rfl rfl rfl rfl fun _ => rfl
  exact hu.trans (.foldl (fun s n hs => .lineBoundary hs n) _ (hu.now.trans hT))

theorem setHall {s : State} (hT : s.now = T) (hall : Nat) : s.Balances T (s.setHall hall) := by
  unfold State.setHall
  extract_lets jump c u
  have hu : s.Balances T u := .rest rfl rfl rfl rfl fun _ => rfl
  clear_value jump u
  cases jump with
  | none => exact hu.trans (.rest rfl rfl rfl rfl fun _ => rfl)
  | some b => exact hu.trans (.takeBoundary (hu.now.trans hT) b)

theorem takeLimit {s : State} (hT : s.now = T) (n : LineId) : s.Balances T (s.takeLimit n) := by
  unfold State.takeLimit
  rw [hT]
  exact .ite (.turnShift s n _ _) (.refl s)

theorem takeLimits {s : State} (hT : s.now = T) : s.Balances T s.takeLimits :=
  .foldl (fun _ n hs => .takeLimit hs n) _ hT

theorem takeDeferred {s : State} (hT : s.now = T) (n : LineId) :
    s.Balances T (s.takeDeferred n) := by
  unfold State.takeDeferred
  rw [hT]
  exact .ite (State.Balances.trans (.keepBank rfl) (.turnShift _ n _ _)) (.refl s)

/-! ### Service and plans -/

theorem newThreshold {s : State} (hT : s.now = T) (n : LineId) (threshold : Nat) :
    s.Balances T (s.newThreshold n threshold) := by
  unfold State.newThreshold
  rw [hT]
  split
  · exact .refl s
  · split
    · exact .refl s
    · exact .ite (.promote s n) (.keepBank rfl)

theorem beginPlan {s : State} (hT : s.now = T) (n : LineId) (p : Plan) :
    s.Balances T (s.beginPlan n p) := by
  have hend : s.Balances T (s.endForPlan n) := by
    unfold State.endForPlan
    rw [hT]
    split
    · exact .refl s
    · split
      · exact .endMicro s n
      · exact .closeRecord s n _ _
  unfold State.beginPlan
  rw [hT]
  exact (hend.trans (.keepBank rfl)).trans (.enterLine _ n _)

theorem endPlan {s : State} (hT : s.now = T) (n : LineId) : s.Balances T (s.endPlan n) :=
  State.Balances.trans (.keepBank rfl) (.evaluate (s := s.modLine n _) hT n)

theorem overrun {s : State} (hT : s.now = T) (n : LineId) : s.Balances T (s.overrun n) := by
  unfold State.overrun
  rw [hT]
  exact State.Balances.trans (.keepBank rfl) (.rebook _ n)

theorem setRate (s : State) (n : LineId) (rate : Nat) : s.Balances T (s.setRate n rate) := by
  unfold State.setRate
  extract_lets old now u
  have hu : s.Balances T u := .ite
    (.modBank s n fun b => (Bank.Follows.credit now old).trans (.of_eq rfl rfl rfl rfl)) (.refl s)
  exact hu.trans (.rest rfl rfl rfl rfl fun _ => rfl)

/-- What is of acquisition. -/
theorem acquisition (s : State) (points : Vector PointAcq 256) (inputs : Vector InputAcq 16)
    (installed : Vector (Option InputId) 32) (awaits : Bool) (windowEnd : Nat) :
    s.Balances T { s with
      points := points, inputs := inputs, installed := installed, awaitsFrame := awaits
      clock := { s.clock with windowEnd := windowEnd } } :=
  .rest rfl rfl rfl rfl fun _ => rfl

theorem emptyQueues (s : State) (n : LineId) : s.Balances T (s.emptyQueues n) :=
  .acquisition s _ _ _ _ _

theorem dropWindows (s : State) : s.Balances T s.dropWindows := .acquisition s _ _ _ _ _

theorem enable {s : State} (hT : s.now = T) (n : LineId) : s.Balances T (s.enable n) := by
  unfold State.enable
  extract_lets u
  have hu : s.Balances T u := .openShift s n _ hT.le
  have hv : s.Balances T ((u.startTimers n).emptyQueues n) :=
    (hu.trans (.startTimers u n)).trans (.emptyQueues _ n)
  exact hv.trans (.evaluate (hv.now.trans hT) n)

/-- The tallies of a line without a bank are dropped. -/
theorem dropTallies {s : State} {n : LineId} (hb : (s.line n).bank = none) :
    s.Balances T (s.dropTallies n) := by
  have ho : s.OnlyStations (s.dropTallies n) := .foldl (fun s k => .modStation s k _) _ s
  refine ⟨congrArg Clock.count ho.same.clock, ho.same.power, fun h m b hm => ?_,
    fun h m b k hm hk => ?_⟩
  · unfold State.line at hm
    rw [ho.lines] at hm
    exact h m b hm
  · unfold State.line at hm
    rw [ho.lines] at hm
    have hk' : s.lineOf k = some m := (ho.lineOf k).symm.trans hk
    have hmem : k ∉ s.members n := fun hmem => by
      obtain rfl : m = n := Option.some.inj (hk'.symm.trans (State.mem_members.mp hmem))
      exact nomatch hb.symm.trans hm
    rw [State.station_dropTallies, if_neg hmem]
    exact h m b k hm hk'

theorem disable {s : State} (hT : s.now = T) (n : LineId) : s.Balances T (s.disable n) := by
  unfold State.disable
  rw [hT]
  extract_lets stamp u v
  have hu : s.Balances T u := .closeShift (.inl rfl) _ _
  have hv : s.Balances T v := hu.trans (State.Balances.trans
    (.modLine fun c hc => absurd hc (by simp [LineLive.retired]))
    (.dropTallies (by simp [LineLive.retired])))
  exact (hv.trans (.stopTimers (hv.now.trans hT) n)).trans (.dropWindows _)

/-! ### Starts -/

theorem resumeLine (s : State) (n : LineId) : s.Balances T (s.resumeLine T n) := by
  unfold State.resumeLine
  have hplace : ∀ u : State, u.Balances T (u.placeResuming n) := fun u => .keepBank rfl
  split
  · exact hplace s
  · exact (State.Balances.endMicro s n).trans (hplace _)
  · exact (State.Balances.closeRecord s n _ T).trans (hplace _)
  all_goals exact .refl s

theorem turnOutage {s : State} {n : LineId} {o : OutageTurn} (hs : (s.line n).slot = none)
    (ho : o.openAt ≤ T) : s.Balances T (s.turnOutage n o) :=
  ((State.Balances.closeShift (.inr hs) _ _).trans (.openShift _ n _ ho)).trans
    (.mapBank rfl fun _ => .of_eq rfl rfl rfl rfl)

theorem resumePlan {s : State} (hT : s.now = T) (n : LineId) : s.Balances T (s.resumePlan n) := by
  unfold State.resumePlan
  rw [hT]
  exact .ite (State.Balances.trans (.keepBank rfl) (.rebook _ n)) (.refl s)

theorem settleLine {s : State} (hT : s.now = T) (n : LineId) : s.Balances T (s.settleLine n) :=
  .ite (.evaluate hT n) (.refl s)

end State.Balances

end Sys2Proof.Machine

/-! Every command between two starts keeps the lines coherent and the accounts up to the instant it acts
at: what each owner and each event does, said once. -/

namespace Sys2Proof.Machine

/-- A change of the state that keeps the lines coherent, and the accounts up to `T`. -/
structure State.Upholds (T : Nat) (s u : State) : Prop extends s.Balances T u where
  coherent : s.Coherent → u.Coherent

theorem eq_false_of_refuseIf {cond : Bool} {reason : Reason} {detail : Byte}
    (h : refuseIf cond reason detail = none) : cond = false := by
  cases cond
  · rfl
  · exact nomatch h

theorem mem_allLines (n : LineId) : n ∈ allLines := by
  revert n
  decide

namespace State.Upholds

variable {T : Nat}

theorem refl (s : State) : s.Upholds T s := ⟨.refl s, id⟩

theorem trans {s t u : State} (h : s.Upholds T t) (g : t.Upholds T u) : s.Upholds T u :=
  ⟨h.toBalances.trans g.toBalances, fun c => g.coherent (h.coherent c)⟩

theorem ite {s t u : State} {c : Prop} [Decidable c] (ht : c → s.Upholds T t)
    (hu : s.Upholds T u) : s.Upholds T (if c then t else u) := by
  split
  · exact ht ‹_›
  · exact hu

theorem foldl {α : Type} {f : State → α → State} {t : Nat}
    (hf : ∀ (s : State) a, s.now = t → s.Upholds T (f s a)) (l : List α) {s : State}
    (hs : s.now = t) : s.Upholds T (l.foldl f s) := by
  induction l generalizing s with
  | nil => exact .refl s
  | cons a l ih => exact (hf s a hs).trans (ih ((hf s a hs).now.trans hs))

/-- An operation that changes no line. -/
theorem of_lines {s u : State} (h : s.Balances T u) (hl : u.lines = s.lines) : s.Upholds T u :=
  ⟨h, fun c => c.of_lines hl⟩

/-- What is not of lines, stations, time, power or the places of stations. -/
theorem rest {s u : State} (hl : u.lines = s.lines) (hs : u.stations = s.stations)
    (hn : u.now = s.now) (hp : u.power = s.power) (hk : ∀ k, u.lineOf k = s.lineOf k) :
    s.Upholds T u := .of_lines (.rest hl hs hn hp hk) hl

/-- What is of acquisition. -/
theorem acquisition (s : State) (points : Vector PointAcq 256) (inputs : Vector InputAcq 16)
    (installed : Vector (Option InputId) 32) (awaits : Bool) (windowEnd : Nat) :
    s.Upholds T { s with
      points := points, inputs := inputs, installed := installed, awaitsFrame := awaits
      clock := { s.clock with windowEnd := windowEnd } } :=
  .of_lines (.acquisition s points inputs installed awaits windowEnd) rfl

theorem points (s : State) (points : Vector PointAcq 256) :
    s.Upholds T { s with points := points } := .rest rfl rfl rfl rfl fun _ => rfl

theorem inputs (s : State) (inputs : Vector InputAcq 16) (installed : Vector (Option InputId) 32)
    (awaits : Bool) : s.Upholds T { s with
      inputs := inputs, installed := installed, awaitsFrame := awaits } :=
  .rest rfl rfl rfl rfl fun _ => rfl

theorem windowEnd (s : State) (windowEnd : Nat) :
    s.Upholds T { s with clock := { s.clock with windowEnd := windowEnd } } :=
  .rest rfl rfl rfl rfl fun _ => rfl

/-- What is of the link, the journal, the alerts and the store. -/
theorem books (s : State) (link : Link) (alerts : BitVec 8) (journal : List JournalRecord)
    (archive : Vector (List Stored) 8) (queue : List WriteItem) (copy : Option Settings)
    (image : Option Image) (status : ImageStatus) (guardMode : GuardMode) :
    s.Upholds T { s with
      link := link, alerts := alerts, journal := journal, archive := archive, queue := queue
      settingsCopy := copy, image := image, imageStatus := status, guardMode := guardMode } :=
  .rest rfl rfl rfl rfl fun _ => rfl

theorem settingsRest (s : State) {f : Settings → Settings}
    (hf : (f s.settings).stations = s.settings.stations) : s.Upholds T (s.modSettings f) :=
  .rest rfl rfl rfl rfl fun k => by
    unfold State.lineOf State.stationDef
    rw [State.modSettings_settings, hf]

theorem owe (s : State) (r : Option Reply) : s.Upholds T (s.owe r) :=
  .books s _ _ _ _ _ _ _ _ _

theorem latchIf (s : State) (c : Bool) (a : Alert) : s.Upholds T (s.latchIf c a) :=
  .ite (fun _ => .books s _ _ _ _ _ _ _ _ _) (.refl s)

theorem formBoundary (s : State) : s.Upholds T s.formBoundary :=
  .rest rfl rfl rfl rfl fun _ => rfl

theorem serveHead (s : State) : s.Upholds T s.serveHead := by
  unfold State.serveHead
  split <;> exact .books s _ _ _ _ _ _ _ _ _

theorem queuePop (s : State) : s.Upholds T s.queuePop :=
  State.Upholds.trans (.books s _ _ _ _ _ _ _ _ _) (.serveHead { s with queue := s.queue.drop 1 })

/-! ### Requests -/

/-- A request with an owner that checks and then acts. -/
theorem request {s : State} {kind : RequestKind} {length range : Option Refused}
    {refusal : State → Option Refused} {effect : State → State × List Byte}
    (h : s.power.running = true → refusal s = none → s.Upholds T (effect s).1) :
    s.Upholds T (s.serve kind length range (Machine.checked refusal effect)) := by
  unfold State.serve
  split
  · rename_i hrec
    have hrun := (s.receives_iff.mp hrec).1
    split
    · exact .owe s _
    · refine State.Upholds.trans ?_ (.owe _ _)
      unfold Machine.checked
      split
      · exact .refl s
      · exact h hrun ‹_›
  · exact .refl s

theorem reads (s : State) (kind : RequestKind) (length range : Option Refused)
    (refusal : State → Option Refused) (body : State → List Byte) :
    s.Upholds T (s.serve kind length range (reading refusal body)) :=
  .request fun _ _ => .refl s

/-! ### Points and inputs -/

theorem putPoint (s : State) (p : PointId) (r : PointAcq × Bool) :
    s.Upholds T (s.putPoint p r) :=
  State.Upholds.trans (.acquisition s _ _ _ _ _) (.latchIf _ _ _)

theorem scanDrive (s : State) (drive : DriveId) (sense : BitVec 16) :
    s.Upholds T (s.scanDrive drive sense) :=
  .foldl (t := s.now) (fun s _ _ => .putPoint s _ _) _ rfl

theorem modInput (s : State) (i : InputId) (f : InputAcq → InputAcq) :
    s.Upholds T (s.modInput i f) := .acquisition s _ _ _ _ _

theorem settlePoints {s : State} (hT : s.now = T) (old : State) :
    s.Upholds T (State.settlePoints old s) := ⟨.settlePoints hT old, fun c => c.settlePoints old⟩

theorem settleLines {s : State} (hT : s.now = T) (old : State) :
    s.Upholds T (State.settleLines old s) := ⟨.settleLines hT old, fun c => c.settleLines old⟩

theorem paceEdge {s : State} (hT : s.now = T) (k : StationId) : s.Upholds T (s.paceEdge k) :=
  ⟨.paceEdge hT k, fun c => c.paceEdge k⟩

theorem modBank (s : State) (n : LineId) {g : Bank → Bank} (hg : ∀ b : Bank, b.Follows T (g b)) :
    s.Upholds T (s.modBank n g) := ⟨.modBank s n hg, fun c => c.modBank n g⟩

theorem countReject (s : State) (n : LineId) (stray : Bool) : s.Upholds T (s.countReject n stray) :=
  .ite (fun _ => .refl s) (.modBank s n fun _ => .modCounts fun _ => by split <;> rfl)

theorem rejectEdge (s : State) (i : InputId) (n : LineId) : s.Upholds T (s.rejectEdge i n) := by
  unfold State.rejectEdge
  split
  · exact .countReject s n _
  · split
    · exact .refl s
    · split
      · exact (State.Upholds.modInput s i _).trans (.countReject _ n _)
      · exact .countReject s n _

theorem openWindows (s : State) (n : LineId) : s.Upholds T (s.openWindows n) := by
  refine .foldl (t := s.now) (fun s i _ => ?_) _ rfl
  split
  · exact .modInput s i _
  · exact .refl s

theorem outputEdge {s : State} (hT : s.now = T) (i : InputId) (n : LineId) :
    s.Upholds T (s.outputEdge i n) := by
  unfold State.outputEdge
  extract_lets u
  have hu : s.Upholds T u := State.Upholds.trans
    (.modBank s n fun _ => .modCounts fun _ => by split <;> rfl) (.openWindows _ n)
  have hTu := hu.now.trans hT
  clear_value u
  split
  · exact .ite (fun _ => hu.trans (.paceEdge hTu _)) hu
  · exact hu

theorem countingEdge {s : State} (hT : s.now = T) (i : InputId) :
    s.Upholds T (s.countingEdge i) := by
  unfold State.countingEdge
  extract_lets u
  have hu : s.Upholds T u := .modInput s i _
  have hTu := hu.now.trans hT
  clear_value u
  split
  · exact hu
  · exact .ite (fun _ => hu.trans (.outputEdge hTu i _)) hu
  · exact .ite (fun _ => hu.trans (.rejectEdge u i _)) hu
  · exact .ite (fun _ => hu.trans (.paceEdge hTu _)) hu

theorem handNoisy (s : State) (i : InputId) (wasNoisy : Bool) :
    s.Upholds T (s.handNoisy i wasNoisy) := by
  unfold State.handNoisy
  extract_lets u
  have hu : s.Upholds T u := .books s _ _ _ _ _ _ _ _ _
  clear_value u
  refine .ite (fun _ => hu) ?_
  split
  · exact hu.trans (.modBank u _ fun _ => .of_eq rfl rfl rfl rfl)
  · exact hu

theorem putSample {s : State} (hT : s.now = T) (i : InputId) (r : Sampled) :
    s.Upholds T (s.putSample i r) := by
  unfold State.putSample
  extract_lets wasNoisy u v
  have hu : s.Upholds T u := .modInput s i _
  have hv : s.Upholds T v := .ite (fun _ => hu.trans (.handNoisy u i wasNoisy)) hu
  have hTv := hv.now.trans hT
  clear_value v
  split
  · exact .ite (fun _ => hv.trans (.countingEdge hTv i)) hv
  · exact hv

theorem sampleSlot {s : State} (hT : s.now = T) (slot : SlotId) (active : Bool) :
    s.Upholds T (s.sampleSlot slot active) := by
  unfold State.sampleSlot
  split
  · exact .refl s
  · exact .putSample hT _ _

theorem restartAcquisition (s : State) : s.Upholds T s.restartAcquisition :=
  (State.Upholds.points s _).trans ((State.Upholds.inputs _ _ _ _).trans (.windowEnd _ _))

theorem endWindow {s : State} (hT : s.now = T) : s.Upholds T s.endWindow := by
  unfold State.endWindow
  extract_lets c u
  have hu : s.Upholds T u := .acquisition s _ _ _ _ _
  exact hu.trans (.settlePoints (hu.now.trans hT) s)

theorem setInput {s : State} (hT : s.now = T) (i : InputId) (d : InputSettings) :
    s.Upholds T (s.setInput i d) := by
  unfold State.setInput
  extract_lets old u v w
  have hu : s.Upholds T u := .settingsRest s rfl
  have hv : s.Upholds T v := .ite (fun _ => hu) (hu.trans (.putSample (hu.now.trans hT) i _))
  have hw : s.Upholds T w := by
    refine .ite (fun _ => hv) (hv.trans ?_)
    unfold State.changeInputLimit
    extract_lets wasNoisy r x
    have hx : v.Upholds T x := .modInput v i _
    exact .ite (fun _ => hx.trans (.handNoisy x i wasNoisy)) hx
  exact .ite (fun _ => hw) (hw.trans (.modInput w i _))

/-! ### Settings -/

theorem setPoint {s : State} (hT : s.now = T) (p : PointId) (d : PointSettings) :
    s.Upholds T (s.setPoint p d) := by
  unfold State.setPoint
  extract_lets r u
  have hu : s.Upholds T u := .settingsRest s rfl
  have hv : s.Upholds T (u.putPoint p r) := hu.trans (.putPoint u p r)
  exact hv.trans (.settlePoints (hv.now.trans hT) s)

theorem setSchedule (s : State) (schedule : List Nat) : s.Upholds T (s.setSchedule schedule) :=
  State.Upholds.trans (.settingsRest s rfl) (.formBoundary _)

theorem setCause (s : State) (code : CauseCode) (e : Option CauseEntry) :
    s.Upholds T (s.modSettings fun g => g.setCause code e) := by
  refine .settingsRest s ?_
  unfold Settings.setCause
  split <;> rfl

theorem setTimers {s : State} (hT : s.now = T) (n : LineId) (threshold lookback deadline : Nat) :
    s.Upholds T (s.setTimers n threshold lookback deadline) := by
  refine State.Upholds.trans (.settingsRest s rfl) ⟨.newThreshold ?_ n _, fun c => c.newThreshold n _⟩
  exact hT

theorem setRate (s : State) (n : LineId) (rate : Nat) : s.Upholds T (s.setRate n rate) :=
  ⟨.setRate s n rate, fun c => c.setRate n rate⟩

theorem setGuard (s : State) (m : GuardMode) : s.Upholds T (s.setGuard m) :=
  State.Upholds.trans (.books s _ _ _ _ _ _ _ _ _) (.settingsRest _ rfl)

theorem storeSettings (s : State) : s.Upholds T s.storeSettings := by
  unfold State.storeSettings
  exact State.Upholds.trans (.books s _ _ _ _ _ _ _ _ _)
    (.of_lines (.queueJoin _ _) (State.lines_queueJoin _ _))

theorem lineOf_modSettings_ne (s : State) {k m : StationId} (h : m ≠ k) (d : Option StationDef) :
    (s.modSettings fun g => { g with stations := Tab.set g.stations k d }).lineOf m = s.lineOf m := by
  unfold State.lineOf State.stationDef
  rw [State.modSettings_settings]
  dsimp only
  rw [Tab.get_set_ne _ h]

theorem lineOf_modSettings_same (s : State) (k : StationId) (d : Option StationDef) :
    (s.modSettings fun g => { g with stations := Tab.set g.stations k d }).lineOf k =
      d.bind fun d => d.place.map Place.line := by
  unfold State.lineOf State.stationDef
  rw [State.modSettings_settings]
  dsimp only
  rw [Tab.get_set_same]
  cases d <;> rfl

/-- A station is placed only in a line that is out of service (R49). -/
theorem outOfService_of_placed {s : State} {b : StationField} (h : fieldRefusal b s = none)
    {n : LineId} (hn : ((fieldTaken b).bind fun d => d.place.map Place.line) = some n) :
    s.inService n = false := by
  unfold fieldTaken at hn
  unfold fieldRefusal at h
  split at hn
  · exact nomatch hn
  · cases ht : fieldTarget b with
    | none => rw [ht] at hn; exact nomatch hn
    | some m =>
      rw [ht] at hn h
      obtain rfl : m = n := Option.some.inj hn
      have hbusy := firstRefusal_eq_none_iff.mp h (s.lineBusyService m) (by simp)
      exact eq_false_of_refuseIf hbusy

theorem defineStation {s : State} (hc : s.Coherent) {b : StationField}
    (h : fieldRefusal b s = none) :
    s.Upholds T (s.defineStation (stationOfByte b.station) (fieldTaken b)) := by
  unfold State.defineStation
  refine State.Upholds.trans (t := s.modSettings _) ⟨⟨rfl, rfl, id, fun ht n c k hbank hk => ?_⟩,
    fun c => c.of_lines rfl⟩ (.of_lines (.rebuildStation _ _) (State.OnlyStations.rebuildStation _ _).lines)
  by_cases hks : k = stationOfByte b.station
  · subst hks
    rw [lineOf_modSettings_same] at hk
    have hout := outOfService_of_placed h hk
    have hin := State.inService_iff.mpr ((hc.shape n).inService_of_bank
      (congrArg Option.isSome hbank))
    rw [hin] at hout
    exact nomatch hout
  · exact ht n c k hbank ((lineOf_modSettings_ne s hks _).symm.trans hk)

theorem defineLine (s : State) (n : LineId) (constraint : Option StationId)
    (output : Option InputId) (rejects : List InputId) :
    s.Upholds T (s.defineLine n constraint output rejects) := by
  unfold State.defineLine State.modLineDef
  exact .settingsRest s rfl

/-- Where no line has a bank there are no accounts to keep. -/
theorem of_noBank {s u : State} (hb : ∀ n, (s.line n).bank = none) (hl : u.lines = s.lines)
    (hn : u.now = s.now) (hp : u.power = s.power) : s.Upholds T u := by
  have hnone : ∀ n, (u.line n).bank = none := fun n => by
    unfold State.line
    rw [hl]
    exact hb n
  have hno : ∀ n b, (u.line n).bank ≠ some b := fun n b h => Option.some_ne_none b (h.symm.trans (hnone n))
  exact ⟨⟨hn, hp, fun _ n b h => absurd h (hno n b), fun _ n b _ h => absurd h (hno n b)⟩,
    fun c => c.of_lines hl⟩

/-- A recall finds no line in service, so that no bank is kept. -/
theorem recalled {s : State} (hT : s.now = T) (hb : ∀ n, (s.line n).bank = none) (g : Settings) :
    s.Upholds T (s.recall g) := by
  unfold State.recall
  extract_lets u a v
  have hu : s.Upholds T u := .of_noBank hb rfl rfl rfl
  have ha : u.Upholds T a := .restartAcquisition u
  have hv : a.Upholds T v := .inputs a _ _ _
  have hsv := (hu.trans ha).trans hv
  exact hsv.trans (State.Upholds.trans (.of_lines (.rebuildStations (hsv.now.trans hT))
    (State.OnlyStations.rebuildStations v).lines) (.formBoundary _))

theorem bank_none_of_outOfService {s : State} (hc : s.Coherent)
    (h : ¬ allLines.any s.inService = true) (n : LineId) : (s.line n).bank = none := by
  have hn : s.inService n ≠ true := fun hn => h (List.any_eq_true.mpr ⟨n, mem_allLines n, hn⟩)
  have hst : (s.shape n).state = .outOfService := by
    by_contra hne
    exact hn (State.inService_iff.mpr hne)
  exact Option.isSome_eq_false_iff.mp ((hc.shape n).outOfService hst).2.2.1 |> Option.isNone_iff_eq_none.mp

theorem recallOwner {s : State} (hc : s.Coherent) (hT : s.now = T) :
    s.Upholds T (recallOwner s).1 := by
  unfold Machine.recallOwner
  split
  · unfold Machine.checked
    split <;> exact .refl s
  · rename_i hout
    extract_lets u
    have hu : s.Upholds T u := .books s _ _ _ _ _ _ _ _ _
    have hb : ∀ n, (u.line n).bank = none := bank_none_of_outOfService hc hout
    clear_value u
    refine hu.trans ?_
    unfold Machine.checked
    split
    · exact .refl u
    · dsimp only
      split
      · exact .recalled (hu.now.trans hT) hb _
      · exact .refl u

/-! ### Lines, clock, journal -/

theorem enable {s : State} (hT : s.now = T) {line : Byte} (h : enableRefusal line s = none) :
    s.Upholds T (s.enable (lineOfByte line)) := by
  refine ⟨.enable hT _, fun c => c.enable ?_⟩
  have h1 := firstRefusal_eq_none_iff.mp h (refuseIf (s.inService (lineOfByte line)) .state
    (s.line (lineOfByte line)).state.code) (by simp)
  exact eq_false_of_refuseIf h1

theorem disable {s : State} (hT : s.now = T) (n : LineId) : s.Upholds T (s.disable n) :=
  ⟨.disable hT n, fun c => c.disable n⟩

theorem turnShift {s : State} (hT : s.now = T) {n : LineId} (hn : s.inService n = true)
    (reason : CloseReason) (deferred : Bool) : s.Upholds T (s.turnShift n reason deferred s.now) := by
  subst hT
  exact ⟨.turnShift s n reason deferred, fun c => c.turnShift hn reason deferred _⟩

theorem inService_of_notInService {s : State} {line : Byte} (h : s.notInService line = none) :
    s.inService (lineOfByte line) = true := by
  simpa using eq_false_of_refuseIf h

theorem beginPlan {s : State} (hT : s.now = T) {n : LineId} (hn : s.inService n = true)
    (p : Plan) : s.Upholds T (s.beginPlan n p) := ⟨.beginPlan hT n p, fun c => c.beginPlan hn p⟩

theorem endPlan {s : State} (hT : s.now = T) {line : Byte} (h : planEndRefusal line s = none) :
    s.Upholds T (s.endPlan (lineOfByte line)) := by
  have hst : (s.line (lineOfByte line)).state = .planned := by
    simpa using eq_false_of_refuseIf h
  exact ⟨.endPlan hT _, fun c => c.endPlan hst⟩

theorem setHall {s : State} (hT : s.now = T) (hall : Nat) : s.Upholds T (s.setHall hall) :=
  ⟨.setHall hT hall, fun c => c.setHall hall⟩

theorem takeBoundary {s : State} (hT : s.now = T) (b : Nat) : s.Upholds T (s.takeBoundary b) :=
  ⟨.takeBoundary hT b, fun c => c.takeBoundary b⟩

/-- A report changes causes only. -/
theorem reportFault {s : State} (hT : s.now = T) (k : StationId) (cause : CauseCode) :
    s.Upholds T (s.reportFault k cause) := by
  unfold State.reportFault
  extract_lets stamp
  have hrest : ∀ v : StationLive, (v.report cause stamp s.now).tally = v.tally ∧
      (v.report cause stamp s.now).since = v.since := by
    intro v
    unfold StationLive.report
    split
    · exact ⟨rfl, rfl⟩
    · split <;> exact ⟨rfl, rfl⟩
  have hu : s.Upholds T (s.modStation k fun v => v.report cause stamp s.now) :=
    .of_lines (.keepTally (hrest _).1 (hrest _).2) rfl
  exact hu.trans (.settleLines (hu.now.trans hT) s)

theorem classify {s : State} (hT : s.now = T) (key : Key) (cause : CauseCode) (c : Category) :
    s.Upholds T (s.classify key cause c) := by
  unfold State.classify
  extract_lets n u
  have hu : s.Upholds T u := by
    subst u
    split
    · unfold State.moveFirst State.moveTime
      refine .ite (fun _ => .refl s) (.modBank s n fun _ => ?_)
      rw [hT]
      exact Bank.Follows.book.trans (.transfer _ _ _)
    · exact .refl s
  have hTu := hu.now.trans hT
  clear_value u
  refine .ite (fun _ => hu.trans (.books u _ _ _ _ _ _ _ _ _)) (hu.trans ?_)
  rw [hTu]
  have hslot : u.Upholds T (u.modSlot n fun r => r.classify cause c) :=
    ⟨.keepBank rfl, fun hc => hc.modLine (by
      cases hs : (u.line n).slot <;> simp [LineLive.shape, hs, Stoppage.isRecord, Stoppage.classify])⟩
  exact hslot.trans ⟨.rebook _ n, fun hc => hc.rebook n T⟩

theorem readArchive (s : State) (line depth part : Byte) :
    s.Upholds T (s.readArchive line depth part).1 := by
  unfold State.readArchive
  split
  · exact .refl s
  · exact .refl s
  · split
    · exact .books s _ _ _ _ _ _ _ _ _
    · exact .refl s

theorem bankWritten (s : State) (n : LineId) : s.Upholds T (s.bankWritten n) := by
  unfold State.bankWritten
  split
  · exact .queuePop s
  · extract_lets u
    have hu : s.Upholds T u := .books s _ _ _ _ _ _ _ _ _
    exact (hu.trans ⟨.keepBank rfl, fun c => c.modLine rfl⟩).trans (.queuePop _)

theorem settingsWritten (s : State) : s.Upholds T s.settingsWritten := by
  unfold State.settingsWritten
  exact State.Upholds.trans (.books s _ _ _ _ _ _ _ _ _) (.queuePop _)

theorem replyStored (s : State) : s.Upholds T s.replyStored :=
  .ite (fun _ => .books s _ _ _ _ _ _ _ _ _) (.refl s)

end State.Upholds

/-! ### Commands -/

section

variable {T : Nat} {s : State}

theorem execSetClock_upholds (hT : s.power.running = true → s.now = T) (broadcast : Bool)
    (hall : BitVec 48) : ∃ t, execSetClock broadcast hall s = .next t ∧ s.Upholds T t := by
  refine ⟨_, rfl, ?_⟩
  split
  · exact .ite (fun hrec => .setHall (hT (s.receives_iff.mp hrec).1) _) (.refl s)
  · exact .request fun hrun _ => .setHall (hT hrun) _

theorem State.Upholds.setWindow (s : State) (w : Nat) : s.Upholds T (s.setWindow w) :=
  State.Upholds.trans (.settingsRest s rfl) (.windowEnd _ _)

theorem execSetPointMode_upholds (hT : s.power.running = true → s.now = T)
    (point polarity debounce mode limit : Byte) :
    ∃ t, execSetPointMode point polarity debounce mode limit s = .next t ∧ s.Upholds T t := by
  refine ⟨_, rfl, .request fun hrun _ => ?_⟩
  dsimp only
  exact .setPoint (hT hrun) _ _

theorem execStationFault_upholds (hT : s.power.running = true → s.now = T) (station cause : Byte) :
    ∃ t, execStationFault station cause s = .next t ∧ s.Upholds T t := by
  refine ⟨_, rfl, .request fun hrun _ => ?_⟩
  dsimp only
  exact .reportFault (hT hrun) _ _

theorem execSetMonitor_upholds (window : Byte) :
    ∃ t, execSetMonitor window s = .next t ∧ s.Upholds T t := by
  refine ⟨_, rfl, .request fun _ _ => ?_⟩
  dsimp only
  exact .setWindow s _

theorem execSetSlots_upholds (entries : List Byte) :
    ∃ t, execSetSlots entries s = .next t ∧ s.Upholds T t := by
  refine ⟨_, rfl, .request fun _ _ => ?_⟩
  exact .settingsRest s (f := fun g => { g with slots := slotsOf entries }) rfl

theorem execRecallSettings_upholds (hc : s.Coherent) (hT : s.power.running = true → s.now = T) :
    ∃ t, execRecallSettings s = .next t ∧ s.Upholds T t := by
  refine ⟨_, rfl, ?_⟩
  unfold State.serve
  split
  · rename_i hrec
    split
    · exact .owe s _
    · exact (State.Upholds.recallOwner hc (hT (s.receives_iff.mp hrec).1)).trans (.owe _ _)
  · exact .refl s

theorem execStoreSettings_upholds : ∃ t, execStoreSettings s = .next t ∧ s.Upholds T t := by
  refine ⟨_, rfl, ?_⟩
  unfold State.serve
  split
  · split
    · exact .owe s _
    · exact (State.Upholds.storeSettings s).trans (.owe _ _)
  · exact .refl s

/-- A request of a line. -/
theorem execEnableLine_upholds (hT : s.power.running = true → s.now = T) (line : Byte) :
    ∃ t, execEnableLine line s = .next t ∧ s.Upholds T t := by
  refine ⟨_, rfl, .request fun hrun h => ?_⟩
  dsimp only
  exact .enable (hT hrun) h

theorem execDisableLine_upholds (hT : s.power.running = true → s.now = T) (line : Byte) :
    ∃ t, execDisableLine line s = .next t ∧ s.Upholds T t := by
  refine ⟨_, rfl, .request fun hrun _ => ?_⟩
  dsimp only
  exact .disable (hT hrun) _

theorem execCloseShift_upholds (hT : s.power.running = true → s.now = T) (line : Byte) :
    ∃ t, execCloseShift line s = .next t ∧ s.Upholds T t := by
  refine ⟨_, rfl, .request fun hrun h => ?_⟩
  dsimp only
  have hserv := firstRefusal_eq_none_iff.mp h (s.notInService line) (by simp)
  exact .turnShift (hT hrun) (State.Upholds.inService_of_notInService hserv) _ _

theorem execPlanBegin_upholds (hT : s.power.running = true → s.now = T) (line cause : Byte)
    (expected : Carried (BitVec 32)) :
    ∃ t, execPlanBegin line cause expected s = .next t ∧ s.Upholds T t := by
  refine ⟨_, rfl, .request fun hrun h => ?_⟩
  dsimp only
  have hserv := firstRefusal_eq_none_iff.mp h (s.notInService line) (by simp)
  exact .beginPlan (hT hrun) (State.Upholds.inService_of_notInService hserv) _

theorem execPlanEnd_upholds (hT : s.power.running = true → s.now = T) (line : Byte) :
    ∃ t, execPlanEnd line s = .next t ∧ s.Upholds T t := by
  refine ⟨_, rfl, .request fun hrun h => ?_⟩
  dsimp only
  exact .endPlan (hT hrun) h

theorem execClassify_upholds (hT : s.power.running = true → s.now = T) (key : Key) (cause : Byte) :
    ∃ t, execClassify key cause s = .next t ∧ s.Upholds T t := by
  refine ⟨_, rfl, .request fun hrun _ => ?_⟩
  dsimp only
  exact .classify (hT hrun) _ _ _

theorem State.Upholds.modRecord (s : State) (k : Key) (f : JournalRecord → JournalRecord) :
    s.Upholds T (s.modRecord k f) := .books s _ _ _ _ _ _ _ _ _

/-- Every request keeps the lines coherent, and the accounts up to the present instant. -/
theorem exec_upholds_request (hc : s.Coherent) (hT : s.power.running = true → s.now = T) {i : Instr}
    {kind : RequestKind} (hi : i.request? = some kind) :
    ∃ t, exec i s = .next t ∧ s.Upholds T t := by
  cases i with
  | frameComplete | frameGapTimeout | replyStart | replyComplete | matrixScan | chatterWindowEnd
  | slotTableInstall | countSample | windowClose | stallTimerExpiry | armedReportExpiry
  | thresholdExpiry | planOverrun | deadlineExpiry | boundaryReached | shiftLengthLimit
  | archiveWriteComplete | settingsWriteComplete | powerFail | resetAssert | powerReturn
  | resetRelease | warmStart | coldStart | characterReceived => exact nomatch hi
  | identify | readClock | readLine | readStation | readPoints | readCountInput | readTally
  | readStationTally | readOpen | readJournalStatus | readCause =>
    exact ⟨_, rfl, .reads s _ _ _ _ _⟩
  | readAlerts => exact ⟨_, rfl, .request fun _ _ => .books s _ _ _ _ _ _ _ _ _⟩
  | setClock => exact execSetClock_upholds hT _ _
  | setSchedule => exact ⟨_, rfl, .request fun _ _ => .setSchedule s _⟩
  | defineStation => exact ⟨_, rfl, .request fun _ h => .defineStation hc h⟩
  | defineLine => exact ⟨_, rfl, .request fun _ _ => .defineLine s _ _ _ _⟩
  | setPointMode => exact execSetPointMode_upholds hT _ _ _ _ _
  | setCountInput => exact ⟨_, rfl, .request fun hrun _ => .setInput (hT hrun) _ _⟩
  | setSlots => exact execSetSlots_upholds _
  | setCause => exact ⟨_, rfl, .request fun _ _ => .setCause s _ _⟩
  | setLineTimers => exact ⟨_, rfl, .request fun hrun _ => .setTimers (hT hrun) _ _ _ _⟩
  | setMonitor => exact execSetMonitor_upholds _
  | storeSettings => exact execStoreSettings_upholds
  | recallSettings => exact execRecallSettings_upholds hc hT
  | setGuard => exact ⟨_, rfl, .request fun _ _ => .setGuard s _⟩
  | enableLine => exact execEnableLine_upholds hT _
  | disableLine => exact execDisableLine_upholds hT _
  | closeShift => exact execCloseShift_upholds hT _
  | setRate => exact ⟨_, rfl, .request fun _ _ => .setRate s _ _⟩
  | planBegin => exact execPlanBegin_upholds hT _ _ _
  | planEnd => exact execPlanEnd_upholds hT _
  | stationFault => exact execStationFault_upholds hT _ _
  | classify => exact execClassify_upholds hT _ _
  | holdRecord | releaseRecord => exact ⟨_, rfl, .request fun _ _ => .modRecord s _ _⟩
  | fetchRecords => exact ⟨_, rfl, .request fun _ _ => .books s _ _ _ _ _ _ _ _ _⟩
  | readArchive => exact ⟨_, rfl, .request fun _ _ => .readArchive s _ _ _⟩

theorem takeRequest_upholds (hc : s.Coherent) (hT : s.power.running = true → s.now = T) (i : Instr) :
    ∃ t, takeRequest i s = .next t ∧ s.Upholds T t := by
  cases hi : i.request? with
  | none => exact ⟨s, takeRequest_event hi s, .refl s⟩
  | some kind => rw [takeRequest_eq_exec hi]; exact exec_upholds_request hc hT hi

theorem judgeFrame_upholds (hc : s.Coherent) (hT : s.power.running = true → s.now = T) (f : Frame) :
    ∃ t, judgeFrame f s = .next t ∧ s.Upholds T t := by
  unfold judgeFrame
  split
  · exact ⟨s, rfl, .refl s⟩
  split
  · exact ⟨s, rfl, .refl s⟩
  split
  · unfold takeAddressed
    split
    · exact ⟨_, rfl, .owe s _⟩
    · split
      · exact ⟨_, rfl, .owe s _⟩
      · exact takeRequest_upholds hc hT _
  split
  · exact ⟨s, rfl, .refl s⟩
  split
  · unfold takeBroadcast
    split
    · exact execSetClock_upholds hT true _
    · exact ⟨s, rfl, .refl s⟩
  · exact ⟨s, rfl, .refl s⟩

theorem takeCharacter_upholds (hc : s.Coherent) (hT : s.power.running = true → s.now = T) (b : Byte)
    (good : Bool) : ∃ t, takeCharacter b good s = .next t ∧ s.Upholds T t := by
  unfold takeCharacter
  extract_lets r link u
  have hu : s.Upholds T u := .books s _ _ _ _ _ _ _ _ _
  have hTu : u.power.running = true → u.now = T := hT
  clear_value u
  split
  · obtain ⟨t, ht, hut⟩ := judgeFrame_upholds (hu.coherent hc) hTu _
    exact ⟨t, ht, hu.trans hut⟩
  · exact ⟨u, rfl, hu⟩

/-- The commands of a failure and of a start. -/
def isPowerEvent : Instr → Bool
  | .powerFail | .resetAssert | .powerReturn | .resetRelease | .warmStart | .coldStart => true
  | _ => false

/-- An event that is handled while the part runs. -/
theorem State.Upholds.running {c : Bool} {t : State}
    (hT : s.power.running = true → s.now = T)
    (h : s.now = T → c = true → s.Upholds T t) :
    s.Upholds T (if s.power.running && c then t else s) :=
  .ite (fun hrc => h (hT (Bool.and_eq_true_iff.mp hrc).1) (Bool.and_eq_true_iff.mp hrc).2) (.refl s)

/-- Every event but those of failures and starts does so as well. -/
theorem exec_upholds_event (hc : s.Coherent) (hT : s.power.running = true → s.now = T) {i : Instr}
    (hi : i.request? = none) (hp : isPowerEvent i = false) :
    ∃ t, exec i s = .next t ∧ s.Upholds T t := by
  cases i with
  | powerFail | resetAssert | powerReturn | resetRelease | warmStart | coldStart => exact nomatch hp
  | frameComplete c =>
    change ∃ t, execFrameComplete c s = _ ∧ _
    unfold execFrameComplete
    split
    · exact takeCharacter_upholds hc hT c true
    · exact ⟨s, rfl, .refl s⟩
  | characterReceived b g =>
    change ∃ t, execCharacterReceived b g s = _ ∧ _
    unfold execCharacterReceived
    split
    · exact takeCharacter_upholds hc hT b g
    · exact ⟨s, rfl, .refl s⟩
  | frameGapTimeout | replyStart | replyComplete =>
    exact ⟨_, rfl, .ite (fun _ => .books s _ _ _ _ _ _ _ _ _) (.refl s)⟩
  | matrixScan drive sense =>
    refine ⟨_, rfl, .ite (fun hrun => ?_) (.refl s)⟩
    have hscan := State.Upholds.scanDrive (T := T) s drive sense
    exact hscan.trans (.settlePoints (hscan.now.trans (hT hrun)) s)
  | chatterWindowEnd => exact ⟨_, rfl, .running hT fun hT _ => .endWindow hT⟩
  | slotTableInstall => exact ⟨_, rfl, .ite (fun _ => .inputs s _ _ _) (.refl s)⟩
  | countSample slot active =>
    exact ⟨_, rfl, .running hT fun hT _ => (State.Upholds.inputs s _ _ _).trans
      (.sampleSlot (s := s.beginFrame) hT slot active)⟩
  | windowClose i => exact ⟨_, rfl, .ite (fun _ => .modInput s i _) (.refl s)⟩
  | stallTimerExpiry k =>
    refine ⟨_, rfl, .running hT fun hT _ => ?_⟩
    have hu : s.Upholds T (s.changeStation k .stalled) :=
      .of_lines (.changeStation hT k _) (State.OnlyStations.changeStation s k _).lines
    exact hu.trans (.settleLines (hu.now.trans hT) s)
  | armedReportExpiry k =>
    exact ⟨_, rfl, .running hT fun _ _ => .of_lines (.keepTally rfl rfl) rfl⟩
  | thresholdExpiry n =>
    refine ⟨_, rfl, .running hT fun hT hdue => ?_⟩
    subst hT
    exact ⟨.promote s n, fun c => c.thresholdExpiry hdue⟩
  | planOverrun n => exact ⟨_, rfl, .running hT fun hT _ => ⟨.overrun hT n, fun c => c.overrun n⟩⟩
  | deadlineExpiry key => exact ⟨_, rfl, .running hT fun _ _ => .modRecord s key _⟩
  | boundaryReached =>
    refine ⟨_, rfl, .ite (fun hrun => ?_) (.refl s)⟩
    split
    · exact .takeBoundary (hT hrun) _
    · exact .refl s
  | shiftLengthLimit n =>
    exact ⟨_, rfl, .ite (fun hrun => ⟨.takeLimit (hT hrun) n, fun c => c.takeLimit n⟩) (.refl s)⟩
  | archiveWriteComplete =>
    refine ⟨_, rfl, .ite (fun _ => ?_) (.refl s)⟩
    split
    · rename_i n _ _
      have hw := State.Upholds.bankWritten (T := T) s n
      refine hw.trans (.ite (fun hrun => ?_) (.refl _))
      have hTw := hw.now.trans (hT (congrArg Power.running hw.power ▸ hrun))
      exact ⟨.takeDeferred hTw n, fun c => c.takeDeferred n⟩
    · exact .refl s
    · exact .refl s
  | settingsWriteComplete =>
    refine ⟨_, rfl, .ite (fun _ => ?_) (.refl s)⟩
    split
    · exact (State.Upholds.settingsWritten s).trans (.replyStored _)
    · exact .refl s
    · exact .refl s
  | _ => exact nomatch hi

end

end Sys2Proof.Machine

/-! Failures and starts keep the lines coherent and carry the accounts over an outage (R93, R119, R124,
R154): what is accounted for up to the failure instant is so up to the start. -/

namespace Sys2Proof.Machine

/-! ### Accounts carried on -/

/-- The accounts of `s` are carried on in `t`. -/
def State.CarriesAccounts (s t : State) : Prop :=
  s.Accounted → t.Accounted ∧ (s.Tallied → t.Tallied)

theorem State.CarriesAccounts.refl (s : State) : s.CarriesAccounts s := fun h => ⟨h, id⟩

theorem State.CarriesAccounts.trans {s t u : State} (h : s.CarriesAccounts t)
    (g : t.CarriesAccounts u) : s.CarriesAccounts u := fun hs =>
  have ⟨ht, hty⟩ := h hs
  have ⟨hu, huy⟩ := g ht
  ⟨hu, fun hy => huy (hty hy)⟩

theorem State.Accounted.running_now {s : State} (h : s.Accounted) (hrun : s.power.running = true) :
    s.now = s.keptTo := by
  have hf := h.outage.symm.trans hrun
  unfold State.keptTo
  rw [Option.isNone_iff_eq_none.mp hf]
  rfl

theorem State.Balances.carriesAccounts {s t : State} (h : s.Balances s.keptTo t) :
    s.CarriesAccounts t := fun hs => by
  have hkept : t.keptTo = s.keptTo := by
    unfold State.keptTo
    rw [h.power, h.now]
  refine ⟨⟨?_, ?_, ?_⟩, ?_⟩
  · rw [h.power]; exact hs.outage
  · rw [hkept, h.now]; exact hs.kept
  · rw [hkept]; exact h.banks hs.banks
  · intro hy
    have ht := h.tallies hy
    rw [← hkept] at ht
    exact ht

/-- A change of the power that starts and ends no outage. -/
theorem State.carriesAccounts_power (s : State) (p : Power) (hr : p.running = s.power.running)
    (hf : p.failure = s.power.failure) : s.CarriesAccounts { s with power := p } := fun hs => by
  have hkept : State.keptTo { s with power := p } = s.keptTo := by
    unfold State.keptTo
    rw [hf]
    rfl
  refine ⟨⟨?_, ?_, ?_⟩, ?_⟩
  · change p.running = p.failure.isNone
    rw [hr, hf]; exact hs.outage
  · rw [hkept]; exact hs.kept
  · rw [hkept]; exact hs.banks
  · intro hy n b k
    rw [hkept]
    exact hy n b k

/-! ### The failure instant -/

theorem LineLive.shape_atFailure (l : LineLive) (t rate : Nat) :
    (l.atFailure t rate).shape = l.shape := by
  simp [LineLive.atFailure, LineLive.shape]

theorem State.line_fail (s : State) (n : LineId) :
    s.fail.line n = (s.line n).atFailure s.now (s.rate n) := by
  unfold State.fail State.line
  rw [Tab.get_mapAll]

theorem State.Coherent.failOnce {s : State} (h : s.Coherent) : s.failOnce.Coherent := by
  unfold State.failOnce
  split
  · refine h.takeLimits.of_shape fun n => ?_
    unfold State.shape
    rw [State.line_fail, LineLive.shape_atFailure]
  · exact h

theorem State.station_fail (s : State) (k : StationId) :
    s.fail.station k = (s.station k).bookAt s.now := by
  unfold State.fail State.station
  rw [Tab.get_mapAll]

theorem LineLive.bank_atFailure {l : LineLive} {t rate : Nat} {c : Bank}
    (h : (l.atFailure t rate).bank = some c) : ∃ b, l.bank = some b ∧ b.Follows t c := by
  obtain ⟨b, hb, rfl⟩ := Option.map_eq_some_iff.mp h
  exact ⟨b, hb, (Bank.Follows.credit t rate).trans (.switch _)⟩

theorem State.keptTo_fail (s : State) : s.fail.keptTo = s.now := by
  simp only [State.fail, State.keptTo, Option.getD_some]

theorem State.power_fail (s : State) :
    s.fail.power = { s.power with running := false, failure := some s.now } := by
  simp only [State.fail]

theorem State.now_fail (s : State) : s.fail.now = s.now := by
  simp only [State.fail, State.now]

theorem State.lineOf_fail (s : State) (k : StationId) : s.fail.lineOf k = s.lineOf k := by
  simp only [State.fail, State.lineOf, State.stationDef]

theorem State.carriesAccounts_fail {s : State} (hnow : s.now = s.keptTo) :
    s.CarriesAccounts s.fail := fun hs => by
  have hbanks : s.fail.BanksAt s.now := fun n c hc => by
    rw [State.line_fail] at hc
    obtain ⟨b, hb, hbc⟩ := LineLive.bank_atFailure hc
    exact hbc.accounted (hnow ▸ hs.banks n b hb)
  have htallies : s.Tallied → s.fail.TalliesAt s.now := fun hy n c k hc hk => by
    rw [State.line_fail] at hc
    obtain ⟨b, hb, hbc⟩ := LineLive.bank_atFailure hc
    have hty : (s.station k).TalliedFrom b.openCount s.now := by
      rw [hnow]
      exact hy n b k hb ((s.lineOf_fail k).symm.trans hk)
    rw [State.station_fail, hbc.openCount]
    exact hty.bookAt rfl rfl
  rw [← State.keptTo_fail] at hbanks htallies
  refine ⟨⟨?_, ?_, hbanks⟩, htallies⟩
  · rw [State.power_fail]
    rfl
  · rw [State.keptTo_fail, State.now_fail]

theorem State.carriesAccounts_failOnce (s : State) : s.CarriesAccounts s.failOnce := by
  unfold State.failOnce
  split
  · rename_i hrun
    intro hs
    have hT := hs.running_now hrun
    have hlimits : s.Balances s.keptTo s.takeLimits := .takeLimits hT
    refine (hlimits.carriesAccounts.trans (State.carriesAccounts_fail ?_)) hs
    unfold State.keptTo
    rw [hlimits.power, hlimits.now]
    exact hT
  · exact .refl s

/-! ### The warm start -/

theorem State.OnlyLine.placeResuming (s : State) (n : LineId) :
    s.OnlyLine (s.placeResuming n) n := .modLine s n _

theorem State.OnlyLine.resumeLine (s : State) (f : Nat) (n : LineId) :
    s.OnlyLine (s.resumeLine f n) n := by
  unfold State.resumeLine
  split
  · exact .placeResuming s n
  · exact (State.OnlyLine.endMicro s n f).trans (.placeResuming _ n)
  · exact (State.OnlyLine.closeRecord s n _ f).trans (.placeResuming _ n)
  all_goals exact .refl s n

theorem State.shape_placeResuming (s : State) (n : LineId) :
    (s.placeResuming n).shape n = { s.shape n with state := .resuming } := by
  unfold State.placeResuming
  rw [State.shape_modLine]
  rfl

/-- A line treated at the failure instant has no stoppage in its slot. -/
theorem State.resumeLine_empties {s : State} {n : LineId} (h : (s.shape n).coherent) (f : Nat) :
    ((s.resumeLine f n).shape n).coherent ∧ ((s.resumeLine f n).shape n).slot = none := by
  have hfree : ∀ u : State, (u.shape n).slot = none → (u.shape n).plan = false →
      (u.shape n).bank = true → ((u.placeResuming n).shape n).coherent ∧
        ((u.placeResuming n).shape n).slot = none := fun u hs hp hb => by
    rw [State.shape_placeResuming]
    exact ⟨LineShape.coherent_of_free (.inr rfl) hs hp hb, hs⟩
  unfold State.resumeLine
  split
  · rename_i hst
    obtain ⟨hs, hp, hb⟩ := h.free (.inl hst)
    exact hfree s hs hp hb
  · rename_i hst
    obtain ⟨hs, hp, hb⟩ := h.pending hst
    have hm := State.shape_endMicro hs f
    exact hfree _ (by rw [hm]) (by rw [hm]; exact hp) (by rw [hm]; exact hb)
  · rename_i hst
    obtain ⟨hs, hp, hb⟩ := h.down hst
    have hm := State.shape_closeRecord hs .outage f
    exact hfree _ (by rw [hm]) (by rw [hm]; exact hp) (by rw [hm]; exact hb)
  · rename_i hst; exact ⟨h, (h.free (.inr hst)).1⟩
  · rename_i hst; exact ⟨h, (h.planned hst).1⟩
  · rename_i hst; exact ⟨h, (h.outOfService hst).1⟩

/-- No line has a stoppage in its slot. -/
def State.Unstopped (s : State) : Prop := ∀ n, (s.shape n).slot = none

theorem State.resumeLines_empty (f : Nat) (l : List LineId) {s : State} (h : s.Coherent) :
    (l.foldl (fun s n => s.resumeLine f n) s).Coherent ∧
      ∀ n, n ∈ l ∨ (s.shape n).slot = none →
        ((l.foldl (fun s n => s.resumeLine f n) s).shape n).slot = none := by
  induction l generalizing s with
  | nil => exact ⟨h, fun n hn => hn.resolve_left List.not_mem_nil⟩
  | cons m l ih =>
    obtain ⟨hm, hslot⟩ := State.resumeLine_empties (h.shape m) f
    obtain ⟨hc, hrest⟩ := ih (h.of_only (.resumeLine s f m) hm)
    refine ⟨hc, fun n hn => hrest n ?_⟩
    by_cases hnm : n = m
    · subst hnm; exact .inr hslot
    · refine hn.imp (fun hmem => (List.mem_cons.mp hmem).resolve_left hnm) fun hs => ?_
      unfold State.shape
      rw [(State.OnlyLine.resumeLine s f m).others n hnm]
      exact hs

theorem State.OnlyLine.turnOutage (s : State) (n : LineId) (o : OutageTurn) :
    s.OnlyLine (s.turnOutage n o) n :=
  ((State.OnlyLine.closeShift s n _ _ _).trans (.openShift _ n _ _)).trans (.modLine _ n _)

theorem State.OnlyLine.outageLine (f : Nat) (s : State) (n : LineId) :
    s.OnlyLine (State.outageLine f s n) n := by
  unfold State.outageLine
  split
  · exact .refl s n
  · split
    · exact .refl s n
    · rename_i o _
      refine (State.OnlyLine.turnOutage s n o).trans ?_
      unfold State.latchIf
      split
      · exact .latch _ n _
      · exact .refl _ n

theorem State.shape_turnOutage {s : State} {n : LineId} (hs : (s.shape n).slot = none)
    (o : OutageTurn) :
    (s.turnOutage n o).shape n = { s.shape n with bank := true, deferred := false } := by
  unfold State.turnOutage
  extract_lets serial u v
  have hu : u.shape n = s.shape n := by
    rw [State.shape_closeShift, hs]
    exact (LineShape.eq_of_empty hs).symm
  have hv : v.shape n = { s.shape n with bank := true } := by rw [State.shape_openShift, hu]
  clear_value v
  have hout : (v.modLine n fun l =>
      { l with deferred := false, bank := l.bank.map fun b => { b with booking := .x } }).shape n =
        { v.shape n with deferred := false } := by
    rw [State.shape_modLine]
    simp [LineLive.shape, State.shape]
  rw [hout, hv]

theorem State.outageLine_empty {s : State} {n : LineId} (h : (s.shape n).coherent)
    (hs : (s.shape n).slot = none) (f : Nat) :
    ((State.outageLine f s n).shape n).coherent ∧ ((State.outageLine f s n).shape n).slot = none := by
  unfold State.outageLine
  split
  · exact ⟨h, hs⟩
  · rename_i hn
    have hserv : s.inService n = true := by simpa using hn
    split
    · exact ⟨h, hs⟩
    · rename_i o _
      have hl : ((s.turnOutage n o).latchIf (1 < s.passedFor f n) .boundarySkipped).shape n =
          (s.turnOutage n o).shape n := by
        unfold State.latchIf
        split <;> rfl
      have hb := h.bank_of_inService (State.inService_iff.mp hserv)
      rw [hl, State.shape_turnOutage hs, ← hb]
      exact ⟨LineShape.coherent_deferred h (State.inService_iff.mp hserv) false, hs⟩

theorem State.Coherent.outageLines (f : Nat) (l : List LineId) {s : State} (h : s.Coherent)
    (hs : s.Unstopped) : (l.foldl (State.outageLine f) s).Coherent := by
  induction l generalizing s with
  | nil => exact h
  | cons m l ih =>
    obtain ⟨hm, hslot⟩ := State.outageLine_empty (h.shape m) (hs m) f
    refine ih (h.of_only (.outageLine f s m) hm) fun n => ?_
    by_cases hnm : n = m
    · subst hnm; exact hslot
    · unfold State.shape
      rw [(State.OnlyLine.outageLine f s m).others n hnm]
      exact hs n

theorem State.Coherent.settleOutage {s : State} (h : s.Coherent) (f : Nat) :
    (s.settleOutage f).Coherent := by
  unfold State.settleOutage
  extract_lets a b c last d clock e
  have ha : a.Coherent := h.of_lines rfl
  have hb : b.Coherent ∧ b.Unstopped := by
    obtain ⟨hb, hslot⟩ := State.resumeLines_empty f allLines ha
    exact ⟨hb, fun n => hslot n (.inl (mem_allLines n))⟩
  clear_value a b
  have hd : d.Coherent := State.Coherent.outageLines f allLines (s := c) (hb.1.of_lines rfl) hb.2
  clear_value c d
  exact hd.of_lines rfl

theorem State.Coherent.resumePlan {s : State} (h : s.Coherent) (n : LineId) :
    (s.resumePlan n).Coherent := by
  unfold State.resumePlan
  split
  · exact State.Coherent.rebook (h.modLine (by simp [LineLive.shape])) n _
  · exact h

theorem State.Coherent.settleLine {s : State} (h : s.Coherent) (n : LineId) :
    (s.settleLine n).Coherent := by
  unfold State.settleLine
  split
  · rename_i hst
    obtain ⟨hs, hp, hb⟩ := (h.shape n).free (.inr hst.1)
    exact h.of_only (.evaluate s n) (State.coherent_evaluate hs hp hb)
  · exact h

theorem State.lines_restartAcquisition (s : State) : s.restartAcquisition.lines = s.lines := by
  simp only [State.restartAcquisition, State.restartInputs, State.restartPoints]

theorem State.lines_serveHead (s : State) : s.serveHead.lines = s.lines := by
  unfold State.serveHead
  split <;> rfl

theorem State.lines_restartWrite (s : State) : s.restartWrite.lines = s.lines := by
  unfold State.restartWrite
  split
  · exact s.lines_serveHead
  · rfl

theorem State.Coherent.resume {s : State} (h : s.Coherent) : s.resume.Coherent := by
  unfold State.resume
  extract_lets a b
  have ha : a.Coherent := h.of_lines
    ((State.OnlyStations.rebuildStations s.restartAcquisition).lines.trans s.lines_restartAcquisition)
  have hb : b.Coherent := .foldl (fun _ n h => h.resumePlan n) _ ha
  exact .foldl (fun _ n h => h.settleLine n) _ hb

theorem State.lines_restart (s : State) : s.restart.lines = s.lines := by
  simp only [State.restart]

theorem State.coherent_cold (s : State) : s.cold.Coherent := fun n => by
  have hl : s.cold.line n = LineLive.cold (recover (Tab.get s.archiveFound n)).1 := by
    simp only [State.line, State.cold, Tab.get_mapAll]
  rw [hl]
  rfl

/-- A failure and a start keep the lines coherent. -/
theorem exec_coherent_power {i : Instr} (hi : isPowerEvent i = true) {s : State} (h : s.Coherent) :
    ∃ t, exec i s = .next t ∧ t.Coherent := by
  cases i with
  | powerFail =>
    refine ⟨_, rfl, ?_⟩
    split
    · have hf := h.failOnce
      generalize s.failOnce = u at hf
      exact hf.of_lines rfl
    · exact h
  | resetAssert =>
    refine ⟨_, rfl, ?_⟩
    split
    · exact h
    · have hf := h.failOnce
      generalize s.failOnce = u at hf
      exact hf.of_lines rfl
  | powerReturn =>
    refine ⟨_, rfl, ?_⟩
    split
    · exact h
    · exact h.of_lines (State.lines_restartWrite _)
  | resetRelease =>
    refine ⟨_, rfl, ?_⟩
    split
    · exact h.of_lines (State.lines_restartWrite _)
    · exact h
  | warmStart =>
    refine ⟨_, rfl, ?_⟩
    split
    · split
      · rename_i f _
        have hs := h.settleOutage f
        have hr : (s.settleOutage f).restart.Coherent := hs.of_lines (State.lines_restart _)
        exact hr.resume.of_lines (State.latch_lines _ _)
      · exact h
    · exact h
  | coldStart =>
    refine ⟨_, rfl, ?_⟩
    split
    · exact (s.coherent_cold).of_lines (State.OnlyStations.rebuildStations s.cold).lines
    · exact h
  | _ => exact nomatch hi

theorem State.SameButLines.foldl_only {f : State → LineId → State}
    (hf : ∀ (s : State) n, s.OnlyLine (f s n) n) (l : List LineId) (s : State) :
    s.SameButLines (l.foldl f s) := by
  induction l generalizing s with
  | nil => exact .refl s
  | cons n l ih => exact (hf s n).same.trans (ih _)

/-! ### The instants of an outage -/

theorem boundariesBy_mono {g : Settings} (hg : g.Sound) {a b : Nat} (h : a ≤ b) :
    boundariesBy g.schedule a ≤ boundariesBy g.schedule b := by
  have := instantsAfter_length hg.values hg.rising a (b - a)
  rw [Nat.add_sub_cancel' h] at this
  omega

theorem lastBoundaryBy_le {g : Settings} (hg : g.Sound) {t v : Nat}
    (h : lastBoundaryBy g.schedule t = some v) : v ≤ t := by
  unfold lastBoundaryBy at h
  extract_lets day at h
  have hday : day ≤ t := Nat.div_mul_le_self t _
  split at h
  · rename_i w hw
    obtain rfl := Option.some.inj h
    simpa using List.find?_some hw
  · split at h
    · exact nomatch h
    · obtain ⟨w, hw, rfl⟩ := Option.map_eq_some_iff.mp h
      have := hg.values w (List.mem_of_getLast? hw)
      have hlen : Config.dayLength = 8640000 := rfl
      have hmul : day = t / 8640000 * 8640000 := rfl
      omega

/-- The last boundary passed in an outage is no later than now, where the counter has not come to its
wrap. -/
theorem State.lastPassed_le {s : State} (hg : s.settings.Sound) {f : Nat} (hf : f ≤ s.now)
    (hwrap : s.now < 2 ^ 48) : s.lastPassed f ≤ s.now := by
  unfold State.lastPassed State.lastPassedHall
  split
  · simpa using hf
  · rename_i hpassed
    cases hlast : lastBoundaryBy s.settings.schedule s.hall with
    | none => simpa using hf
    | some v =>
      have hv := lastBoundaryBy_le hg hlast
      have hafter : s.hallAt f ≤ s.hall := by
        by_contra hlt
        apply hpassed
        have := boundariesBy_mono hg (a := s.hall) (b := s.passedAfter f)
          (by unfold State.passedAfter; omega)
        unfold State.passedCount
        split <;> omega
      have hspan : s.hall - s.hallAt f ≤ s.now - f := by
        unfold State.hall State.hallAt at *
        have hmod : Config.clockModulus = 2 ^ 48 := rfl
        rw [hmod] at *
        omega
      simp only [Option.getD_some]
      omega

theorem State.openAt_le {s : State} (hg : s.settings.Sound) {f : Nat} (hf : f ≤ s.now)
    (hwrap : s.now < 2 ^ 48) {n : LineId} {o : OutageTurn} (ho : s.outageTurn f n = some o) :
    o.openAt ≤ s.now := by
  have hlast := State.lastPassed_le hg hf hwrap
  unfold State.outageTurn at ho
  extract_lets m pending b1 bm at ho
  have hbm : bm ≤ s.now := by
    subst bm
    split
    · exact hf
    · exact hlast
  clear_value m pending b1 bm
  split at ho
  · split at ho
    · exact nomatch ho
    · obtain rfl := Option.some.inj ho
      exact hbm
  · split at ho
    · obtain rfl := Option.some.inj ho
      exact le_rfl
    · split at ho <;>
      · obtain rfl := Option.some.inj ho
        exact hbm

/-! ### Accounts over an outage -/

theorem State.Balances.outageLine {s : State} (hg : s.settings.Sound) {f : Nat} (hf : f ≤ s.now)
    (hwrap : s.now < 2 ^ 48) {n : LineId} (hs : (s.shape n).slot = none) :
    s.Balances s.now (State.outageLine f s n) := by
  unfold State.outageLine
  refine .ite (.refl s) ?_
  split
  · exact .refl s
  · rename_i o ho
    have hturn : s.Balances s.now (s.turnOutage n o) :=
      .turnOutage (State.slot_none_of_shape hs) (State.openAt_le hg hf hwrap ho)
    exact hturn.trans (State.Upholds.latchIf _ _ _).toBalances

theorem State.Balances.outageLines (f : Nat) (l : List LineId) {s : State}
    (hg : s.settings.Sound) (hf : f ≤ s.now) (hwrap : s.now < 2 ^ 48) (h : s.Coherent)
    (hs : s.Unstopped) : s.Balances s.now (l.foldl (State.outageLine f) s) := by
  induction l generalizing s with
  | nil => exact .refl s
  | cons m l ih =>
    have hb := State.Balances.outageLine hg hf hwrap (hs m)
    have ho := State.OnlyLine.outageLine f s m
    obtain ⟨hm, hslot⟩ := State.outageLine_empty (h.shape m) (hs m) f
    have hun : (State.outageLine f s m).Unstopped := fun n => by
      by_cases hnm : n = m
      · subst hnm; exact hslot
      · unfold State.shape
        rw [ho.others n hnm]
        exact hs n
    have hrest := ih (s := State.outageLine f s m) (ho.same.settings ▸ hg) (hb.now ▸ hf)
      (hb.now ▸ hwrap) (h.of_only ho hm) hun
    rw [hb.now] at hrest
    exact hb.trans hrest

/-- What is accounted for up to the failure instant is so up to now, when the outage is settled. -/
theorem State.settleOutage_accounts {s : State} (hg : s.settings.Sound) {f : Nat} (hf : f ≤ s.now)
    (hwrap : s.now < 2 ^ 48) (h : s.Coherent) :
    (s.settleOutage f).now = s.now ∧ (s.BanksAt f → (s.settleOutage f).BanksAt s.now) ∧
      (s.TalliesAt f → (s.settleOutage f).TalliesAt s.now) := by
  unfold State.settleOutage
  extract_lets a b c last d clock e
  have ha : s.Balances f a := .stations fun k o ht => by
    rw [Tab.get_mapAll]
    exact ht
  have hac : a.Coherent := h.of_lines rfl
  have hb : a.Balances f b := .foldl (fun u n _ => .resumeLine u n) _ ha.now
  have hbs : b.settings = a.settings :=
    (State.SameButLines.foldl_only (fun s n => .resumeLine s f n) allLines a).settings
  have hbc : b.Coherent ∧ b.Unstopped := by
    obtain ⟨hb, hslot⟩ := State.resumeLines_empty f allLines hac
    exact ⟨hb, fun n => hslot n (.inl (mem_allLines n))⟩
  have hag : a.settings = s.settings := rfl
  clear_value a b
  have hc : s.Balances f c := (ha.trans hb).trans (.rest rfl rfl rfl rfl fun _ => rfl)
  have hcg : c.settings.Sound := by
    change b.settings.Sound
    rw [hbs, hag]
    exact hg
  have hd : c.Balances c.now d :=
    .outageLines f allLines hcg (hc.now ▸ hf) (hc.now ▸ hwrap) (hbc.1.of_lines rfl) hbc.2
  rw [hc.now] at hd
  clear_value c d
  have he : d.Balances s.now e.formBoundary := .rest rfl rfl rfl rfl fun _ => rfl
  have hde := hd.trans he
  exact ⟨hde.now.trans hc.now, fun hbk => hde.banks ((hc.banks hbk).mono hf),
    fun hty => hde.tallies ((hc.tallies hty).mono hf)⟩

theorem State.Balances.resume {s : State} : s.Balances s.now s.resume := by
  unfold State.resume
  extract_lets a b
  have hq : s.Balances s.now s.restartAcquisition := (State.Upholds.restartAcquisition s).toBalances
  have ha : s.Balances s.now a := hq.trans (.rebuildStations hq.now)
  clear_value a
  have hb : a.Balances s.now b := .foldl (fun _ n hs => .resumePlan hs n) _ ha.now
  have hab := ha.trans hb
  clear_value b
  exact hab.trans (.foldl (fun _ n hs => .settleLine hs n) _ hab.now)

theorem State.carriesAccounts_warmStart {s : State} (hg : s.settings.Sound) {f : Nat}
    (hfail : s.power.failure = some f) (hwrap : s.now < 2 ^ 48) (h : s.Coherent) :
    s.CarriesAccounts (((s.settleOutage f).restart.resume).latch .outage) := fun hs => by
  have hkept : s.keptTo = f := by
    unfold State.keptTo
    rw [hfail]
    rfl
  have hf : f ≤ s.now := hkept ▸ hs.kept
  obtain ⟨hnow, hbanks, htallies⟩ := State.settleOutage_accounts hg hf hwrap h
  have hb := hbanks (hkept ▸ hs.banks)
  have hy : s.Tallied → (s.settleOutage f).TalliesAt s.now := fun hty => htallies (hkept ▸ hty)
  generalize s.settleOutage f = u at *
  have hrkept : u.restart.keptTo = u.restart.now := by
    simp only [State.restart, State.keptTo, Option.getD_none]
  have hrnow : u.restart.now = s.now := by
    rw [← hnow]
    simp only [State.restart, State.now]
  have hru : u.restart.Accounted ∧ (s.Tallied → u.restart.Tallied) := by
    refine ⟨⟨?_, hrkept.le, ?_⟩, fun hty => ?_⟩
    · simp only [State.restart, Option.isNone_none]
    · rw [hrkept, hrnow]
      exact hb
    · have hty := hy hty
      rw [← hrnow, ← hrkept] at hty
      exact hty
  have hresume : u.restart.Balances u.restart.keptTo u.restart.resume := hrkept ▸ .resume
  have hlatch : u.restart.resume.Balances u.restart.keptTo (u.restart.resume.latch .outage) :=
    (State.Upholds.books _ _ _ _ _ _ _ _ _ _).toBalances
  obtain ⟨ha, hat⟩ := (hresume.trans hlatch).carriesAccounts hru.1
  exact ⟨ha, fun hty => hat (hru.2 hty)⟩

/-! ### The cold start -/

theorem State.accounted_cold (s : State) : s.cold.Accounted ∧ s.cold.Tallied := by
  have hb : ∀ n b, (s.cold.line n).bank ≠ some b := fun n b => by
    simp [State.line, State.cold, LineLive.cold]
  exact ⟨⟨by simp only [State.cold, Option.isNone_none], by simp [State.keptTo, State.cold],
    fun n b h => absurd h (hb n b)⟩, fun n b k h => absurd h (hb n b)⟩

/-! ### Every failure and every start -/

theorem State.carriesAccounts_restartWrite (s : State) : s.CarriesAccounts s.restartWrite := by
  unfold State.restartWrite
  split
  · exact (State.Upholds.serveHead s).toBalances.carriesAccounts
  · exact .refl s

theorem exec_carriesAccounts_power {i : Instr} (hi : isPowerEvent i = true) {s : State}
    (h : s.Coherent) (hcap : s.WithinCapacity) (hwrap : s.now < 2 ^ 48) :
    ∃ t, exec i s = .next t ∧ s.CarriesAccounts t := by
  cases i with
  | powerFail =>
    refine ⟨_, rfl, ?_⟩
    split
    · exact (State.carriesAccounts_failOnce s).trans (State.carriesAccounts_power _ _ rfl rfl)
    · exact .refl s
  | resetAssert =>
    refine ⟨_, rfl, ?_⟩
    split
    · exact .refl s
    · exact (State.carriesAccounts_failOnce s).trans (State.carriesAccounts_power _ _ rfl rfl)
  | powerReturn =>
    refine ⟨_, rfl, ?_⟩
    split
    · exact .refl s
    · refine State.CarriesAccounts.trans ?_ (State.carriesAccounts_restartWrite _)
      exact s.carriesAccounts_power _ rfl rfl
  | resetRelease =>
    refine ⟨_, rfl, ?_⟩
    split
    · refine State.CarriesAccounts.trans ?_ (State.carriesAccounts_restartWrite _)
      exact s.carriesAccounts_power _ rfl rfl
    · exact .refl s
  | warmStart =>
    refine ⟨_, rfl, ?_⟩
    split
    · split
      · exact State.carriesAccounts_warmStart hcap.settings ‹_› hwrap h
      · exact .refl s
    · exact .refl s
  | coldStart =>
    refine ⟨_, rfl, ?_⟩
    split
    · intro _
      obtain ⟨ha, hty⟩ := s.accounted_cold
      have hT : s.cold.now = s.cold.keptTo := by
        simp only [State.keptTo, State.cold, Option.getD_none]
      obtain ⟨hra, hrt⟩ := (State.Balances.rebuildStations hT).carriesAccounts ha
      exact ⟨hra, fun _ => hrt hty⟩
    · exact .refl s
  | _ => exact nomatch hi

/-! ### Every command and every step -/

theorem exec_coherent (i : Instr) {s : State} (h : s.Coherent) :
    ∃ t, exec i s = .next t ∧ t.Coherent := by
  have hup : (∃ t, exec i s = .next t ∧ s.Upholds s.now t) → ∃ t, exec i s = .next t ∧ t.Coherent :=
    fun ⟨t, ht, hu⟩ => ⟨t, ht, hu.coherent h⟩
  cases hi : i.request? with
  | some kind => exact hup (exec_upholds_request h (fun _ => rfl) hi)
  | none =>
    cases hp : isPowerEvent i with
    | true => exact exec_coherent_power hp h
    | false => exact hup (exec_upholds_event h (fun _ => rfl) hi hp)

theorem exec_carriesAccounts (i : Instr) {s : State} (h : s.Coherent) (ha : s.Accounted)
    (hcap : s.WithinCapacity) (hwrap : s.now < 2 ^ 48) :
    ∃ t, exec i s = .next t ∧ t.Accounted ∧ (s.Tallied → t.Tallied) := by
  have hup : (∃ t, exec i s = .next t ∧ s.Upholds s.keptTo t) →
      ∃ t, exec i s = .next t ∧ t.Accounted ∧ (s.Tallied → t.Tallied) :=
    fun ⟨t, ht, hu⟩ => ⟨t, ht, hu.toBalances.carriesAccounts ha⟩
  cases hi : i.request? with
  | some kind => exact hup (exec_upholds_request h ha.running_now hi)
  | none =>
    cases hp : isPowerEvent i with
    | true =>
      obtain ⟨t, ht, hc⟩ := exec_carriesAccounts_power hp h hcap hwrap
      exact ⟨t, ht, hc ha⟩
    | false => exact hup (exec_upholds_event h ha.running_now hi hp)

/-- A slot of time passes: what is accounted for up to now, or up to the failure instant, stays so. -/
theorem State.carriesAccounts_tick {s : State} (hwrap : s.clock.count + 1 < 2 ^ 48) :
    s.CarriesAccounts s.tick := fun ha => by
  have hnow : s.now ≤ s.tick.now := by
    unfold State.tick State.now
    have hmod : Config.clockModulus = 2 ^ 48 := rfl
    split
    · exact le_rfl
    · dsimp only
      rw [hmod, Nat.mod_eq_of_lt hwrap]
      exact Nat.le_succ _
  have hkept : s.keptTo ≤ s.tick.keptTo := by
    unfold State.keptTo
    change s.power.failure.getD s.now ≤ s.power.failure.getD s.tick.now
    cases s.power.failure with
    | none => exact hnow
    | some f => exact le_rfl
  have hle : s.tick.keptTo ≤ s.tick.now := by
    have := ha.kept
    unfold State.keptTo at *
    change s.power.failure.getD s.tick.now ≤ s.tick.now
    cases hf : s.power.failure with
    | none => exact le_rfl
    | some f =>
      rw [hf] at this
      exact this.trans hnow
  exact ⟨⟨ha.outage, hle, fun n b hb => Bank.accounted_mono (ha.banks n b hb) hkept⟩,
    fun hy => State.TalliesAt.mono hy hkept⟩

/-- Settles O7: a step is a command on the rest of the queue, an event that is due, or a slot of
time; `exec_coherent` says what a command does. -/
theorem stepKeepsLinesCoherent : Obligations.StepKeepsLinesCoherent := by
  intro s t h hstep
  unfold step at hstep
  split at hstep
  · unfold idle at hstep
    split at hstep
    · obtain ⟨u, hu, hc⟩ := exec_coherent _ h
      obtain rfl := Host.Outcome.next.inj (hu.symm.trans hstep)
      exact hc
    · obtain rfl := Host.Outcome.next.inj hstep
      exact h.of_lines rfl
  · rename_i c rest _
    have hrest : State.Coherent { s with pending := rest } := h.of_lines rfl
    obtain ⟨u, hu, hc⟩ := exec_coherent c hrest
    obtain rfl := Host.Outcome.next.inj (hu.symm.trans hstep)
    exact hc

/-- Settles O8: as for O7, with `exec_carriesAccounts` for a command. -/
theorem stepKeepsAccounts : Obligations.StepKeepsAccounts := by
  intro s t ha h hcap hwrap hstep
  have hnow : s.now < 2 ^ 48 := Nat.lt_of_succ_lt hwrap
  unfold step at hstep
  split at hstep
  · unfold idle at hstep
    split at hstep
    · obtain ⟨u, hu, hc⟩ := exec_carriesAccounts _ h ha hcap hnow
      obtain rfl := Host.Outcome.next.inj (hu.symm.trans hstep)
      exact hc
    · obtain rfl := Host.Outcome.next.inj hstep
      exact State.carriesAccounts_tick hwrap ha
  · rename_i c rest _
    have hrest : State.Coherent { s with pending := rest } := h.of_lines rfl
    have hacc : State.Accounted { s with pending := rest } := ⟨ha.outage, ha.kept, ha.banks⟩
    have hcaps : State.WithinCapacity { s with pending := rest } := ⟨hcap.journal, hcap.archive,
      hcap.windows, hcap.activity, hcap.glitches, hcap.lost, hcap.settings, hcap.copy, hcap.image⟩
    obtain ⟨u, hu, hc⟩ := exec_carriesAccounts c hrest hacc hcaps hnow
    obtain rfl := Host.Outcome.next.inj (hu.symm.trans hstep)
    exact hc

end Sys2Proof.Machine

/-! The readings of a bank (R120, R131 to R135): what a reading holds, and the efficiency figures it
gives. -/

namespace Sys2Proof.Machine

/-! ### The sum of the buckets -/

theorem Tab.sum_eq_finset {n : Nat} (v : Vector Nat n) : v.toList.sum = ∑ i, Tab.get v i := by
  have h : v.toList = List.ofFn fun i : Fin n => Tab.get v i := by
    apply List.ext_getElem
    · simp
    · intro i h1 h2
      simp [Tab.get]
  rw [h, List.sum_ofFn]

theorem plannedTime_eq (times : Vector Nat 16) : plannedTime times =
    Tab.get times 7 + Tab.get times 8 + Tab.get times 9 + Tab.get times 10 + Tab.get times 11 := by
  have h : (Category.all.filter Category.planned).map (fun c => timeOf times (.cat c)) =
      [Tab.get times 7, Tab.get times 8, Tab.get times 9, Tab.get times 10, Tab.get times 11] := rfl
  rw [plannedTime, h]
  simp [Nat.add_assoc]

/-- The running time and the planned time are parts of the sum of the buckets. -/
theorem running_add_planned_le (v : Vector Nat 16) :
    Tab.get v 0 + plannedTime v ≤ v.toList.sum := by
  have hsub : ∑ i ∈ ({0, 7, 8, 9, 10, 11} : Finset (Fin 16)), Tab.get v i ≤ ∑ i, Tab.get v i :=
    Finset.sum_le_univ_sum_of_nonneg fun _ => Nat.zero_le _
  rw [← Tab.sum_eq_finset] at hsub
  refine le_trans (le_of_eq ?_) hsub
  rw [plannedTime_eq]
  simp [Nat.add_assoc]

theorem mul_div_le_of_le {a b c : Nat} (h : a ≤ b) : c * a / b ≤ c := by
  rcases Nat.eq_zero_or_pos b with rfl | hb
  · simp
  · exact Nat.div_le_of_le_mul (by rw [Nat.mul_comm b c]; exact Nat.mul_le_mul_left c h)

/-! ### The figures (R133 to R135) -/

section

variable (scheduled : Nat) (times : Vector Nat 16) (counts : Counts) (hasOutput : Bool)

theorem availability_figures (loading : Nat)
    (h : loading = (figures scheduled times counts hasOutput).loading) :
    (figures scheduled times counts hasOutput).availability =
      if loading = 0 then none else some (10000 * Tab.get times 0 / loading) := by
  subst h; rfl

theorem performance_figures : (figures scheduled times counts hasOutput).performance =
    if hasOutput = false ∨ counts.ideal = 0 then none
    else some (min 10000 (10000 * counts.t / counts.ideal)) := by
  unfold figures
  dsimp only
  cases hasOutput with
  | false => rfl
  | true =>
    by_cases hz : counts.ideal = 0
    · simp [hz]
    · by_cases hle : counts.t ≤ counts.ideal
      · have := mul_div_le_of_le (c := 10000) hle
        simp [hz, hle, Nat.min_eq_right this]
      · have : 10000 ≤ 10000 * counts.t / counts.ideal :=
          (Nat.le_div_iff_mul_le (Nat.pos_of_ne_zero hz)).mpr
            (Nat.mul_le_mul_left 10000 (Nat.le_of_not_le hle))
        simp [hz, hle, Nat.min_eq_left this]

theorem quality_figures : (figures scheduled times counts hasOutput).quality =
    if hasOutput = false ∨ counts.t = 0 then none
    else some (10000 * (counts.t - counts.j) / counts.t) := by
  unfold figures
  cases hasOutput <;> simp

theorem overspeed_figures : (figures scheduled times counts hasOutput).overspeed = true ↔
    hasOutput = true ∧ counts.ideal ≠ 0 ∧ counts.ideal < counts.t := by
  simp [figures, and_assoc]

theorem oee_figures {a p q : Nat}
    (ha : (figures scheduled times counts hasOutput).availability = some a)
    (hp : (figures scheduled times counts hasOutput).performance = some p)
    (hq : (figures scheduled times counts hasOutput).quality = some q) :
    (figures scheduled times counts hasOutput).oee = some (a * p * q / 100000000) := by
  unfold figures at *
  dsimp only at *
  rw [ha, hp, hq]

theorem oee_figures_none (h : (figures scheduled times counts hasOutput).availability = none ∨
    (figures scheduled times counts hasOutput).performance = none ∨
    (figures scheduled times counts hasOutput).quality = none) :
    (figures scheduled times counts hasOutput).oee = none := by
  unfold figures at *
  dsimp only at *
  split
  · rename_i a p q ha hp hq
    rw [ha, hp, hq] at h
    simp at h
  · rfl

variable {scheduled times counts hasOutput}

/-- No figure exceeds 10,000, where the buckets sum to S (R135). -/
theorem figures_le (hsum : times.toList.sum = scheduled) {f : Figures}
    (hf : f = figures scheduled times counts hasOutput) (x : Nat)
    (h : f.availability = some x ∨ f.performance = some x ∨ f.quality = some x ∨ f.oee = some x) :
    x ≤ 10000 := by
  have ha : ∀ a, f.availability = some a → a ≤ 10000 := fun a ha => by
    rw [hf, availability_figures scheduled times counts hasOutput _ rfl] at ha
    split at ha
    · exact nomatch ha
    · obtain rfl := Option.some.inj ha
      refine mul_div_le_of_le ?_
      change _ ≤ scheduled - plannedTime times
      have := running_add_planned_le times
      omega
  have hp : ∀ p, f.performance = some p → p ≤ 10000 := fun p hp => by
    rw [hf, performance_figures] at hp
    split at hp
    · exact nomatch hp
    · obtain rfl := Option.some.inj hp
      exact Nat.min_le_left _ _
  have hq : ∀ q, f.quality = some q → q ≤ 10000 := fun q hq => by
    rw [hf, quality_figures] at hq
    split at hq
    · exact nomatch hq
    · obtain rfl := Option.some.inj hq
      exact mul_div_le_of_le (Nat.sub_le _ _)
  obtain h | h | h | h := h
  · exact ha x h
  · exact hp x h
  · exact hq x h
  · cases hfa : f.availability with
    | none => rw [hf, oee_figures_none _ _ _ _ (.inl (hf ▸ hfa))] at h; exact nomatch h
    | some a =>
      cases hfp : f.performance with
      | none => rw [hf, oee_figures_none _ _ _ _ (.inr (.inl (hf ▸ hfp)))] at h; exact nomatch h
      | some p =>
        cases hfq : f.quality with
        | none => rw [hf, oee_figures_none _ _ _ _ (.inr (.inr (hf ▸ hfq)))] at h; exact nomatch h
        | some q =>
          rw [hf, oee_figures _ _ _ _ (hf ▸ hfa) (hf ▸ hfp) (hf ▸ hfq)] at h
          obtain rfl := Option.some.inj h
          refine Nat.div_le_of_le_mul ?_
          calc a * p * q ≤ 10000 * 10000 * 10000 :=
                Nat.mul_le_mul (Nat.mul_le_mul (ha a hfa) (hp p hfp)) (hq q hfq)
            _ = 100000000 * 10000 := by norm_num

end

/-! ### Readings -/

theorem Bank.counts_credit_none {b : Bank} (h : b.runStart = none) (t rate : Nat) :
    (b.credit t rate).counts = b.counts := by
  unfold Bank.credit
  rw [h]

theorem Bank.counts_credit_some {b : Bank} {r : Nat} (h : b.runStart = some r) (t rate : Nat) :
    (b.credit t rate).counts = { b.counts with
      ideal := b.counts.ideal + (b.counts.remainder + rate * (t - r)) / 360000
      remainder := (b.counts.remainder + rate * (t - r)) % 360000 } := by
  unfold Bank.credit
  rw [h]
  rfl

theorem Bank.counts_credit_rest (b : Bank) (t rate : Nat) : (b.credit t rate).counts =
    { b.counts with ideal := (b.credit t rate).counts.ideal
                    remainder := (b.credit t rate).counts.remainder } := by
  cases h : b.runStart with
  | none => rw [Bank.counts_credit_none h]
  | some r => rw [Bank.counts_credit_some h]

theorem Bank.time_book (b : Bank) (t : Nat) (k : Bucket) :
    (b.book t).time k = b.time k + if k = b.booking then t - b.segStart else 0 := by
  unfold Bank.time Bank.book
  by_cases hk : k = b.booking
  · subst hk
    simp
  · have hne : k.index ≠ b.booking.index := fun h => hk (Bucket.index_inj.mp h)
    simp [Tab.get_modify_ne _ hne, hk]

/-- The buckets of a reading are those of the bank booked up to it. -/
theorem Bank.timeOf_view (b : Bank) (t rate : Nat) (hasOutput : Bool) (k : Bucket) :
    timeOf (b.view t rate hasOutput).times k =
      b.time k + if k = b.booking then t - b.segStart else 0 := by
  rw [← Bank.time_book]
  simp [Bank.view, timeOf, Bank.time]

theorem Bank.sum_view {b : Bank} {t0 t : Nat} (h : b.accounted t0 = true) (ht : t0 ≤ t) (rate : Nat)
    (hasOutput : Bool) : (b.view t rate hasOutput).times.toList.sum = t - b.openCount := by
  obtain ⟨hsum, hseg, -⟩ := (Bank.accounted_iff b t0).mp h
  have hview : (b.view t rate hasOutput).times.toList.sum = b.booked + (t - b.segStart) := by
    rw [← Bank.booked_book]
    simp [Bank.view, Bank.booked]
  omega

/-- Settles O9, by the lemmas on the parts of a reading and on the figures. -/
theorem readingsBalanceAndFigure : Obligations.ReadingsBalanceAndFigure := by
  intro s n b t0 t v hacc ht hv
  have hsum : v.times.toList.sum = v.scheduled := by rw [hv]; exact Bank.sum_view hacc ht _ _
  have hf : v.figures = figures v.scheduled v.times v.counts (s.lineDef n).output.isSome := by
    rw [hv]; rfl
  have hcounts : v.counts = ((b.book t).credit t (s.rate n)).counts := by rw [hv]; rfl
  have hload : v.figures.loading = v.scheduled - (Tab.get v.times 7 + Tab.get v.times 8
      + Tab.get v.times 9 + Tab.get v.times 10 + Tab.get v.times 11) := by
    rw [hf, ← plannedTime_eq]; rfl
  have hnone : (s.lineDef n).output.isSome = false ↔ (s.lineDef n).output = none := by simp
  refine ⟨by rw [hv]; rfl, hsum, ?_, ?_, ?_, ?_, by rw [hv]; rfl, by rw [hv]; rfl, hload,
    by rw [hf]; rfl, ?_, ?_, ?_, ?_, ?_, ?_, ?_, ?_⟩
  · rw [hv]
    exact Bank.timeOf_view b t _ _
  · rw [hcounts]
    exact Bank.counts_credit_rest (b.book t) t _
  · intro hr
    rw [hcounts]
    exact Bank.counts_credit_none (b := b.book t) hr t _
  · intro r rate total hr hrate htotal
    have hq : s.rate n = rate := by rw [State.rate, hrate]; rfl
    rw [hcounts, Bank.counts_credit_some (b := b.book t) hr, hq, htotal]
    exact ⟨rfl, rfl⟩
  · rw [hf]
    exact availability_figures _ _ _ _ _ rfl
  · rw [hf, performance_figures]
    simp only [hnone]
  · rw [hf, overspeed_figures, Option.isSome_iff_ne_none]
  · rw [hf, quality_figures]
    simp only [hnone]
    rfl
  · rw [hf]
    exact decide_eq_true_iff
  · intro a p q ha hp hq
    rw [hf] at ha hp hq ⊢
    exact oee_figures _ _ _ _ ha hp hq
  · intro h
    rw [hf] at h ⊢
    exact oee_figures_none _ _ _ _ h
  · exact fun x hx => figures_le hsum hf x hx

end Sys2Proof.Machine

/-! The points (R1 to R14): what a scan makes of one point, what the read of a drive line makes of all
points, and what of the state the stations and lines that follow the points leave alone. -/

namespace Sys2Proof.Machine

/-! ### One point -/

section

variable {a : PointAcq} {d : PointSettings}

theorem PointAcq.becomeNoisy_rest (a : PointAcq) (d : PointSettings) :
    (a.becomeNoisy d).accepted = a.accepted ∧ (a.becomeNoisy d).run = a.run ∧
      (a.becomeNoisy d).activity = a.activity ∧ (a.becomeNoisy d).noisy = true := by
  unfold PointAcq.becomeNoisy
  split
  · exact ⟨rfl, rfl, rfl, ‹_›⟩
  · exact ⟨rfl, rfl, rfl, rfl⟩

theorem PointAcq.becomeNoisy_held (h : a.noisy = false) (hd : d.mode = .holdOnNoise) :
    (a.becomeNoisy d).held = a.accepted.value? := by
  simp [PointAcq.becomeNoisy, h, hd]

/-- A raised activity count reaches the chatter limit (R5). -/
theorem PointAcq.bump_reaches (ha : a.activity < 255) (hl : d.limit = a.activity + 1) :
    a.bump d = (PointAcq.becomeNoisy { a with activity := a.activity + 1 } d, true) := by
  unfold PointAcq.bump
  rw [if_neg (by omega)]
  dsimp only
  rw [if_pos ⟨by omega, hl.symm⟩]

theorem PointAcq.bump_noisy (ha : a.activity < 255) (hl : d.limit = a.activity + 1) :
    (a.bump d).1.noisy = true ∧ (a.bump d).2 = true ∧
      (a.noisy = false → d.mode = .holdOnNoise → (a.bump d).1.held = a.accepted.value?) := by
  rw [PointAcq.bump_reaches ha hl]
  exact ⟨(PointAcq.becomeNoisy_rest _ d).2.2.2, rfl, fun hn hm =>
    PointAcq.becomeNoisy_held (a := { a with activity := a.activity + 1 }) hn hm⟩

/-- A count that does not reach the limit makes nothing noisy (R5, R14). -/
theorem PointAcq.bump_quiet (h : d.limit ≠ a.activity + 1 ∨ 255 ≤ a.activity) :
    a.bump d =
      ({ a with activity := if a.activity < 255 then a.activity + 1 else a.activity }, false) := by
  unfold PointAcq.bump
  by_cases ha : 255 ≤ a.activity
  · rw [if_pos ha, if_neg (by omega)]
  · have hl : d.limit ≠ a.activity + 1 := h.resolve_right ha
    have hlt : a.activity < 255 := by omega
    rw [if_neg ha]
    dsimp only
    rw [if_neg (show ¬ (d.limit ≠ 0 ∧ a.activity + 1 = d.limit) from fun hand => hl hand.2.symm),
      if_pos hlt]

theorem PointAcq.bump_rest (a : PointAcq) (d : PointSettings) :
    (a.bump d).1.accepted = a.accepted ∧ (a.bump d).1.run = a.run ∧
      (a.bump d).1.activity = if a.activity < 255 then a.activity + 1 else a.activity := by
  by_cases h : a.activity < 255 ∧ d.limit = a.activity + 1
  · rw [PointAcq.bump_reaches h.1 h.2, if_pos h.1]
    obtain ⟨hacc, hrun, hact, -⟩ :=
      PointAcq.becomeNoisy_rest { a with activity := a.activity + 1 } d
    exact ⟨hacc, hrun, hact⟩
  · rw [PointAcq.bump_quiet (by omega)]
    exact ⟨rfl, rfl, rfl⟩

theorem Level.value?_of (b : Bool) : (Level.of b).value? = some b := by cases b <;> rfl

theorem Level.of_eq (b : Bool) : Level.of b = if b then .on else .off := rfl

/-- One scan of a settled point (R2). -/
theorem PointAcq.scan_settled {level : Bool} (h : a.accepted = Level.of level) (raw : Bool) :
    a.scan d raw =
      if raw = level then
        if a.run = 0 then ({ a with lastRaw := some raw }, false)
        else PointAcq.bump { a with run := 0, lastRaw := some raw } d
      else if a.run + 1 = d.debounce then
        PointAcq.bump { a with accepted := Level.of raw, run := 0, lastRaw := some raw } d
      else ({ a with run := a.run + 1, lastRaw := some raw }, false) := by
  unfold PointAcq.scan
  rw [h, Level.value?_of]
  rfl

/-- One scan of a point that has not settled (R3). -/
theorem PointAcq.scan_unsettled (h : a.accepted = .unsettled) {raw : Bool} {run : Nat}
    (hrun : run = if a.lastRaw = some raw then a.run + 1 else 1) :
    a.scan d raw = if d.debounce ≤ run then
        ({ a with accepted := Level.of raw, run := 0, lastRaw := some raw }, false)
      else ({ a with run := run, lastRaw := some raw }, false) := by
  subst hrun
  unfold PointAcq.scan
  rw [h]
  rfl

/-- A scan that brings the count to the limit (R5, R9). -/
theorem PointAcq.scan_reaches {raw : Bool} (h : a.ReachesLimit d raw) :
    (a.scan d raw).1.noisy = true ∧ (a.scan d raw).2 = true ∧
      (a.noisy = false → d.mode = .holdOnNoise → (a.scan d raw).1.held = some raw) := by
  obtain ⟨⟨level, hacc, hscan⟩, hact, hlim⟩ := h
  rw [PointAcq.scan_settled hacc]
  obtain ⟨hne, hrun⟩ | ⟨heq, hrun⟩ := hscan
  · rw [if_neg hne, if_pos hrun]
    obtain ⟨hn, hf, hh⟩ := PointAcq.bump_noisy
      (a := { a with accepted := Level.of raw, run := 0, lastRaw := some raw }) hact hlim
    exact ⟨hn, hf, fun hq hm => (hh hq hm).trans (Level.value?_of raw)⟩
  · rw [if_pos heq, if_neg hrun]
    obtain ⟨hn, hf, hh⟩ := PointAcq.bump_noisy
      (a := { a with run := 0, lastRaw := some raw }) hact hlim
    have hv : a.accepted.value? = some raw := by
      rw [heq]
      exact (congrArg Level.value? hacc).trans (Level.value?_of level)
    exact ⟨hn, hf, fun hq hm => (hh hq hm).trans hv⟩

theorem PointAcq.accepted_cases (a : PointAcq) :
    a.accepted = .unsettled ∨ ∃ level, a.accepted = Level.of level := by
  cases a.accepted with
  | unsettled => exact .inl rfl
  | on => exact .inr ⟨true, rfl⟩
  | off => exact .inr ⟨false, rfl⟩

/-- A scan that does not bring the count to the limit (R5). -/
theorem PointAcq.scan_quiet {raw : Bool} (h : ¬ a.ReachesLimit d raw) :
    (a.scan d raw).1.noisy = a.noisy ∧ (a.scan d raw).1.held = a.held ∧
      (a.scan d raw).2 = false := by
  obtain hu | ⟨level, hl⟩ := a.accepted_cases
  · obtain ⟨run, hrun⟩ : ∃ run, run = if a.lastRaw = some raw then a.run + 1 else 1 := ⟨_, rfl⟩
    rw [PointAcq.scan_unsettled hu hrun]
    split
    · exact ⟨rfl, rfl, rfl⟩
    · exact ⟨rfl, rfl, rfl⟩
  · rw [PointAcq.scan_settled hl]
    have hquiet : (raw ≠ level ∧ a.run + 1 = d.debounce ∨ raw = level ∧ a.run ≠ 0) →
        d.limit ≠ a.activity + 1 ∨ 255 ≤ a.activity := fun hs => by
      by_contra hc
      exact h ⟨⟨level, hl, hs⟩, by omega, by omega⟩
    split
    · split
      · exact ⟨rfl, rfl, rfl⟩
      · rw [PointAcq.bump_quiet (a := { a with run := 0, lastRaw := some raw })
          (hquiet (.inr ⟨‹_›, ‹_›⟩))]
        exact ⟨rfl, rfl, rfl⟩
    · split
      · rw [PointAcq.bump_quiet
          (a := { a with accepted := Level.of raw, run := 0, lastRaw := some raw })
          (hquiet (.inl ⟨‹_›, ‹_›⟩))]
        exact ⟨rfl, rfl, rfl⟩
      · exact ⟨rfl, rfl, rfl⟩

end

theorem rawLevel_eq (p : Polarity) (c : Bool) : rawLevel p c = (c != (p == .inverted)) := by
  cases p <;> cases c <;> rfl

/-- Settles O24: the table of R7, row by row. -/
theorem effectiveLevelFollowsTheTable : Obligations.EffectiveLevelFollowsTheTable := by
  intro d a
  unfold effectiveLevel
  refine ⟨fun h => ?_, fun h hn => ?_, fun b h hn hb => ?_, fun h => ?_, fun h => ?_⟩ <;> rw [h]
  · simp [hn]
  · simp [hn, hb, Level.of]

/-! ### A scan of a point in the state -/

theorem State.point_putPoint_same (s : State) (p : PointId) (r : PointAcq × Bool) :
    (s.putPoint p r).point p = r.1 := by
  unfold State.putPoint State.latchIf
  split <;> exact State.point_modPoint_same s p _

theorem State.point_putPoint_ne (s : State) {p q : PointId} (h : q ≠ p) (r : PointAcq × Bool) :
    (s.putPoint p r).point q = s.point q := by
  unfold State.putPoint State.latchIf
  split <;> exact State.point_modPoint_ne s h _

theorem State.alerts_putPoint (s : State) (p : PointId) (r : PointAcq × Bool) :
    (s.putPoint p r).alerts = if r.2 then s.alerts ||| 0x01 else s.alerts := by
  unfold State.putPoint State.latchIf
  split <;> rfl

/-- Only the points and the alerts change. -/
def State.OnlyPoints (s t : State) : Prop := t = { s with points := t.points, alerts := t.alerts }

theorem State.OnlyPoints.refl (s : State) : s.OnlyPoints s := rfl

theorem State.OnlyPoints.trans {s t u : State} (h : s.OnlyPoints t) (g : t.OnlyPoints u) :
    s.OnlyPoints u := by
  unfold State.OnlyPoints at *
  rw [g, h]

theorem State.OnlyPoints.putPoint (s : State) (p : PointId) (r : PointAcq × Bool) :
    s.OnlyPoints (s.putPoint p r) := by
  unfold State.putPoint State.latchIf
  split <;> rfl

theorem or_one_latches : ∀ x : BitVec 8, ((x ||| 0x01) &&& Alert.bit .pointNoisy ≠ 0) := by decide

theorem State.latched_or_pointNoisy (s : State) (x : BitVec 8) (h : s.alerts = x ||| 0x01) :
    s.latched .pointNoisy = true := by
  rw [State.latched, h]
  exact decide_eq_true (or_one_latches x)

/-- Settles O26, by `PointAcq.scan_quiet` and `PointAcq.scan_reaches`. -/
theorem pointAtItsLimitBecomesNoisy : Obligations.PointAtItsLimitBecomesNoisy := by
  refine ⟨fun s p c d a hd ha h => ?_, fun s p c d a level hd ha hacc hscan hact hlim => ?_⟩
  · have hquiet : ¬ a.ReachesLimit d (rawLevel d.polarity c) := by
      rintro ⟨⟨level, hacc, hscan⟩, hact, hlim⟩
      obtain h | h | h | h | ⟨level', hacc', h⟩ := h
      · omega
      · exact h hlim
      · omega
      · rw [h] at hacc
        cases level <;> exact nomatch hacc
      · have hlevel : level = level' := by
          have h' := hacc.symm.trans hacc'
          cases level <;> cases level' <;> simp_all
        subst hlevel
        obtain ⟨hne, hrun⟩ | ⟨heq, hrun⟩ := hscan
        · exact h.elim (fun h => hne h.1) fun h => h.2 hrun
        · exact h.elim (fun h => hrun h.2) fun h => h.1 heq
    obtain ⟨hn, hh, hf⟩ := PointAcq.scan_quiet hquiet
    unfold State.scanPoint
    rw [← hd, ← ha, State.point_putPoint_same, State.alerts_putPoint, hf]
    exact ⟨hn, hh, rfl⟩
  · obtain ⟨hn, hf, hh⟩ := PointAcq.scan_reaches ⟨⟨level, hacc, hscan⟩, hact, hlim⟩
    unfold State.scanPoint
    rw [← hd, ← ha, State.point_putPoint_same]
    exact ⟨hn, State.latched_or_pointNoisy _ s.alerts (by rw [State.alerts_putPoint, hf]; rfl), hh⟩

end Sys2Proof.Machine

/-! The read of a drive line (R1 to R5), the ends of the chatter windows (R4, R6), and what the stations
and the lines make of them (R10, R51, R61). -/

namespace Sys2Proof.Machine

/-! ### What the stations and lines leave alone -/

theorem overflow_latches_no_other : ∀ (x : BitVec 8) (a : Alert), a ≠ .journalOverflow →
    (x ||| 0x04) &&& a.bit = x &&& a.bit := by
  intro x a ha
  cases a with
  | journalOverflow => exact absurd rfl ha
  | _ => revert x; decide

theorem State.latched_congr {s t : State} {a : Alert} (h : t.alerts &&& a.bit = s.alerts &&& a.bit) :
    t.latched a = s.latched a := by
  simp only [State.latched, h]

/-- The operations of the lines latch JOURNAL-OVERFLOW only. -/
theorem lineRel_latched {a : Alert} (ha : a ≠ .journalOverflow) :
    LineRel fun s t => t.latched a = s.latched a where
  refl := fun _ => rfl
  trans := fun h g => g.trans h
  line := fun _ _ _ => rfl
  station := fun _ _ _ => rfl
  enter := fun s r => by
    unfold State.journalEnter
    split
    · exact State.latched_congr (overflow_latches_no_other s.alerts a ha)
    · rfl
  lapse := fun _ _ _ => rfl
  join := fun s w => by
    unfold State.queueJoin
    split
    · cases w <;> rfl
    · rfl

theorem State.latched_settlePoints {a : Alert} (ha : a ≠ .journalOverflow) (old s : State) :
    (State.settlePoints old s).latched a = s.latched a := (lineRel_latched ha).settlePoints old s

/-- What the write queue holds is no matter of the lines' events. -/
theorem keeps_queue : Keeps fun s => (s.queue, s.settingsCopy) := ⟨fun _ _ _ => rfl, fun _ _ _ => rfl⟩

theorem State.queue_settleLines (old s : State) :
    (State.settleLines old s).queue = s.queue ∧
      (State.settleLines old s).settingsCopy = s.settingsCopy := by
  have h : ∀ (l : List LineId) (s : State),
      ((l.foldl (fun s n => State.lineNews old s n) s).queue,
        (l.foldl (fun s n => State.lineNews old s n) s).settingsCopy) = (s.queue, s.settingsCopy) := by
    intro l
    induction l with
    | nil => exact fun _ => rfl
    | cons n l ih =>
      intro s
      refine (ih _).trans (keeps_queue.lineNews_eq (fun s r => ?_) old s n)
      unfold State.journalEnter
      split <;> rfl
  exact Prod.mk.inj (h allLines s)

theorem State.settlePoints_books (old s : State) :
    (State.settlePoints old s).queue = s.queue ∧
      (State.settlePoints old s).settingsCopy = s.settingsCopy ∧
      (State.settlePoints old s).link = s.link := by
  unfold State.settlePoints
  extract_lets moved v u
  have ho : s.OnlyStations u := (State.OnlyStations.foldl (fun s k => .refreshDegraded s k) _ s).trans
    (.foldl (fun s k => .derive s k) _ _)
  clear_value u
  obtain ⟨hq, hc⟩ := State.queue_settleLines old u
  refine ⟨hq.trans ?_, hc.trans ?_, (State.settleLines_link old u).trans ?_⟩ <;> rw [ho]

/-! ### The read of a drive line -/

/-- What the read of a drive line makes of the point on a sense line. -/
def State.scanned (s : State) (drive : DriveId) (sense : BitVec 16) (j : Fin 16) :
    PointAcq × Bool :=
  (s.point (pointAt drive j)).scan (s.pointDef (pointAt drive j))
    (rawLevel (s.pointDef (pointAt drive j)).polarity (sense.getLsbD j.val))

theorem pointAt_inj {drive : DriveId} {i j : Fin 16} (h : pointAt drive i = pointAt drive j) :
    i = j := by
  have := congrArg Fin.val h
  simp only [pointAt] at this
  exact Fin.ext (by omega)

theorem pointAt_of_div {p : PointId} {drive : DriveId} (h : p.val / 16 = drive.val) :
    p = pointAt drive ⟨p.val % 16, Nat.mod_lt _ (by decide)⟩ := by
  apply Fin.ext
  simp only [pointAt]
  omega

theorem pointAt_div (drive : DriveId) (j : Fin 16) : (pointAt drive j).val / 16 = drive.val := by
  simp only [pointAt]
  omega

/-- The scans of some points of a drive line, each once. -/
structure State.ScannedBy (s t : State) (drive : DriveId) (sense : BitVec 16) (l : List (Fin 16)) :
    Prop where
  only : s.OnlyPoints t
  read : ∀ j ∈ l, t.point (pointAt drive j) = (s.scanned drive sense j).1
  others : ∀ p, (∀ j ∈ l, p ≠ pointAt drive j) → t.point p = s.point p
  alerts : t.alerts =
    if l.any (fun j => (s.scanned drive sense j).2) then s.alerts ||| 0x01 else s.alerts

theorem State.scannedBy_foldl (s : State) (drive : DriveId) (sense : BitVec 16) (l : List (Fin 16))
    (hl : l.Nodup) : s.ScannedBy (l.foldl
      (fun s j => s.scanPoint (pointAt drive j) (sense.getLsbD j.val)) s) drive sense l := by
  induction l using List.reverseRecOn with
  | nil => exact ⟨rfl, fun j hj => absurd hj List.not_mem_nil, fun _ _ => rfl, rfl⟩
  | append_singleton l i ih =>
    have hl' := List.nodup_append.mp hl
    have h := ih hl'.1
    have hni : ∀ j ∈ l, pointAt drive i ≠ pointAt drive j := fun j hj e =>
      hl'.2.2 j hj i (List.mem_singleton_self i) (pointAt_inj e).symm
    rw [List.foldl_append, List.foldl_cons, List.foldl_nil]
    generalize l.foldl (fun s j => s.scanPoint (pointAt drive j) (sense.getLsbD j.val)) s = t at h
    have hdef : ∀ p, t.pointDef p = s.pointDef p := fun p => by
      unfold State.pointDef
      rw [h.only]
    have hscan : t.scanPoint (pointAt drive i) (sense.getLsbD i.val) =
        t.putPoint (pointAt drive i) (s.scanned drive sense i) := by
      unfold State.scanPoint State.scanned
      rw [hdef, h.others _ hni]
    rw [hscan]
    refine ⟨h.only.trans (.putPoint _ _ _), fun j hj => ?_, fun p hp => ?_, ?_⟩
    · by_cases hji : j = i
      · subst hji; exact State.point_putPoint_same _ _ _
      · have hjl : j ∈ l := (List.mem_append.mp hj).resolve_right fun hm =>
          hji (List.mem_singleton.mp hm)
        rw [State.point_putPoint_ne _ fun e => hji (pointAt_inj e)]
        exact h.read j hjl
    · rw [State.point_putPoint_ne _ (hp i (by simp))]
      exact h.others p fun j hj => hp j (by simp [hj])
    · rw [State.alerts_putPoint, h.alerts, List.any_append]
      cases l.any (fun j => (s.scanned drive sense j).2) <;>
        cases hi : (s.scanned drive sense i).2 <;> simp [hi, BitVec.or_assoc]

theorem State.scannedBy_scanDrive (s : State) (drive : DriveId) (sense : BitVec 16) :
    s.ScannedBy (s.scanDrive drive sense) drive sense (List.finRange 16) :=
  s.scannedBy_foldl drive sense _ (List.nodup_finRange 16)

/-- The count of a point that is read, its run and its level, where it has settled (R2). -/
theorem PointAcq.scan_table_settled {a : PointAcq} (d : PointSettings) (raw : Bool) {level : Bool}
    (h : a.accepted = Level.of level) :
    (raw ≠ level → a.run + 1 ≠ d.debounce →
      (a.scan d raw).1.accepted = a.accepted ∧ (a.scan d raw).1.run = a.run + 1 ∧
      (a.scan d raw).1.activity = a.activity) ∧
    (raw ≠ level → a.run + 1 = d.debounce →
      (a.scan d raw).1.accepted = Level.of raw ∧ (a.scan d raw).1.run = 0 ∧
      (a.scan d raw).1.activity = if a.activity < 255 then a.activity + 1 else a.activity) ∧
    (raw = level → a.run = 0 →
      (a.scan d raw).1.accepted = a.accepted ∧ (a.scan d raw).1.run = 0 ∧
      (a.scan d raw).1.activity = a.activity) ∧
    (raw = level → a.run ≠ 0 →
      (a.scan d raw).1.accepted = a.accepted ∧ (a.scan d raw).1.run = 0 ∧
      (a.scan d raw).1.activity = if a.activity < 255 then a.activity + 1 else a.activity) := by
  rw [PointAcq.scan_settled h]
  refine ⟨fun hl hr => ?_, fun hl hr => ?_, fun hl hr => ?_, fun hl hr => ?_⟩
  · rw [if_neg hl, if_neg hr]
    exact ⟨rfl, rfl, rfl⟩
  · rw [if_neg hl, if_pos hr]
    exact PointAcq.bump_rest { a with accepted := Level.of raw, run := 0, lastRaw := some raw } d
  · rw [if_pos hl, if_pos hr]
    exact ⟨rfl, hr, rfl⟩
  · rw [if_pos hl, if_neg hr]
    exact PointAcq.bump_rest { a with run := 0, lastRaw := some raw } d

/-- The same where it has not (R3). -/
theorem PointAcq.scan_table_unsettled {a : PointAcq} (d : PointSettings) (raw : Bool)
    (h : a.accepted = .unsettled) :
    (a.scan d raw).1.activity = a.activity ∧
    ∀ run, run = (if a.lastRaw = some raw then a.run + 1 else 1) →
      (run < d.debounce →
        (a.scan d raw).1.accepted = .unsettled ∧ (a.scan d raw).1.run = run) ∧
      (d.debounce ≤ run →
        (a.scan d raw).1.accepted = Level.of raw ∧ (a.scan d raw).1.run = 0) := by
  refine ⟨?_, fun run hrun => ?_⟩
  · obtain ⟨run, hrun⟩ : ∃ run, run = if a.lastRaw = some raw then a.run + 1 else 1 := ⟨_, rfl⟩
    rw [PointAcq.scan_unsettled h hrun]
    split <;> rfl
  · rw [PointAcq.scan_unsettled h hrun]
    refine ⟨fun hlt => ?_, fun hle => ?_⟩
    · rw [if_neg (by omega)]
      exact ⟨h, rfl⟩
    · rw [if_pos hle]
      exact ⟨rfl, rfl⟩

theorem State.scanned_eq {s : State} {drive : DriveId} {sense : BitVec 16} {p : PointId} {raw : Bool}
    (hp : p.val / 16 = drive.val)
    (hraw : raw = (sense.getLsbD (p.val % 16) != ((s.pointDef p).polarity == .inverted))) :
    s.scanned drive sense ⟨p.val % 16, Nat.mod_lt _ (by decide)⟩ =
      (s.point p).scan (s.pointDef p) raw := by
  unfold State.scanned
  rw [← pointAt_of_div hp, hraw, rawLevel_eq]

/-- The read of a drive line, point by point. -/
theorem State.scanDrive_read {s : State} {drive : DriveId} {sense : BitVec 16} {p : PointId}
    {raw : Bool} (hp : p.val / 16 = drive.val)
    (hraw : raw = (sense.getLsbD (p.val % 16) != ((s.pointDef p).polarity == .inverted))) :
    (s.scanDrive drive sense).point p = ((s.point p).scan (s.pointDef p) raw).1 := by
  have h := (s.scannedBy_scanDrive drive sense).read ⟨p.val % 16, Nat.mod_lt _ (by decide)⟩
    (List.mem_finRange _)
  rwa [← pointAt_of_div hp, State.scanned_eq hp hraw] at h

theorem State.scanDrive_alerts (s : State) (drive : DriveId) (sense : BitVec 16) :
    (s.scanDrive drive sense).alerts = s.alerts ∨
      (s.scanDrive drive sense).alerts = s.alerts ||| 0x01 := by
  rw [(s.scannedBy_scanDrive drive sense).alerts]
  split
  · exact .inr rfl
  · exact .inl rfl

theorem exec_matrixScan {s : State} (h : s.power.running = true) (drive : DriveId)
    (sense : BitVec 16) : exec (.matrixScan drive sense) s =
      .next (State.settlePoints s (s.scanDrive drive sense)) := by
  change execMatrixScan drive sense s = _
  rw [execMatrixScan, if_pos h]

/-- Settles O25: the scan of each point by `scannedBy_scanDrive`, and what the stations and lines leave
alone by `settlePoints_same` and `settlePoints_books`. -/
theorem matrixScanReadsItsDrive : Obligations.MatrixScanReadsItsDrive := by
  intro s drive sense hrun
  have hscan := s.scannedBy_scanDrive drive sense
  have hsame := State.settlePoints_same s (s.scanDrive drive sense)
  obtain ⟨hqueue, hcopy, hlink⟩ := State.settlePoints_books s (s.scanDrive drive sense)
  have hlatch := State.latched_settlePoints (a := .pointNoisy) (by decide) s
    (s.scanDrive drive sense)
  refine ⟨_, exec_matrixScan hrun drive sense, ?_⟩
  generalize ht : State.settlePoints s (s.scanDrive drive sense) = t at *
  have hread : ∀ (p : PointId) (raw : Bool), p.val / 16 = drive.val →
      raw = (sense.getLsbD (p.val % 16) != ((s.pointDef p).polarity == .inverted)) →
      t.point p = ((s.point p).scan (s.pointDef p) raw).1 := fun p raw hp hraw => by
    unfold State.point
    rw [hsame.points]
    exact State.scanDrive_read hp hraw
  have honly := hscan.only
  unfold State.OnlyPoints at honly
  refine ⟨fun p hp => ?_, fun p raw hp hraw => ⟨fun level hl => ?_, fun hu => ?_, fun hr => ⟨?_, ?_⟩,
    fun hq => ?_⟩, fun hq => ?_, ?_⟩
  · unfold State.point
    rw [hsame.points]
    refine hscan.others p fun j _ hj => hp ?_
    rw [hj, pointAt_div]
  · rw [hread p raw hp hraw]
    exact PointAcq.scan_table_settled _ raw hl
  · rw [hread p raw hp hraw]
    exact PointAcq.scan_table_unsettled _ raw hu
  · rw [hread p raw hp hraw]
    exact (PointAcq.scan_reaches hr).1
  · rw [hlatch]
    refine State.latched_or_pointNoisy _ s.alerts ?_
    rw [hscan.alerts, if_pos]
    refine List.any_eq_true.mpr ⟨⟨p.val % 16, Nat.mod_lt _ (by decide)⟩, List.mem_finRange _, ?_⟩
    rw [State.scanned_eq hp hraw]
    exact (PointAcq.scan_reaches hr).2.1
  · rw [hread p raw hp hraw]
    obtain ⟨hn, hh, -⟩ := PointAcq.scan_quiet hq
    exact ⟨hn, hh⟩
  · rw [hlatch]
    refine State.latched_congr ?_
    rw [hscan.alerts, if_neg]
    intro hany
    obtain ⟨j, -, hj⟩ := List.any_eq_true.mp hany
    have hquiet := hq (pointAt drive j) _ (pointAt_div drive j) rfl
    have hmod : (⟨(pointAt drive j).val % 16, Nat.mod_lt _ (by decide)⟩ : Fin 16) = j :=
      pointAt_inj (drive := drive) (pointAt_of_div (pointAt_div drive j)).symm
    rw [← hmod, State.scanned_eq (pointAt_div drive j) rfl,
      (PointAcq.scan_quiet hquiet).2.2] at hj
    exact nomatch hj
  · refine ⟨hsame.settings.trans ?_, hsame.inputs.trans ?_, hsame.installed.trans ?_,
      hsame.awaitsFrame.trans ?_, hsame.clock.trans ?_, hsame.archive.trans ?_, hqueue.trans ?_,
      hcopy.trans ?_, hsame.image.trans ?_, hsame.imageStatus.trans ?_, hsame.guardMode.trans ?_,
      hlink.trans ?_, hsame.power.trans ?_, hsame.pins.trans ?_, hsame.pending.trans ?_⟩ <;>
    rw [honly]

/-! ### The stations follow -/

/-- What the stations and the lines make of changed points, in the words of the claims. -/
theorem State.settlePoints_moves (old s : State) (hs : s = { old with
      points := s.points, inputs := s.inputs, installed := s.installed
      awaitsFrame := s.awaitsFrame, alerts := s.alerts, settings := s.settings, clock := s.clock })
    (hc : s.clock.count = old.clock.count) (ho : s.clock.offset = old.clock.offset)
    (hg : s.settings.stations = old.settings.stations)
    (hi : s.settings.lines = old.settings.lines) :
    ∃ u, u = { s with stations := u.stations } ∧ old.StationsMove u ∧
      State.LinesTake old u (State.settlePoints old s) := by
  obtain ⟨u, hset, hu, hmove⟩ := State.stationsMove old s (by rw [hs]) hc ho (by rw [hs]) hg hi
  exact ⟨u, hu, hmove, hset ▸ State.linesTake_settleLines old u⟩

/-- The state of a station by its points (R51). -/
theorem State.derivedState_table (s : State) (k : StationId) :
    (s.stationDef k = none → s.derivedState k = .unmonitored) ∧
    ∀ d, s.stationDef k = some d → (d.run = none → s.derivedState k = .unmonitored) ∧
      ∀ p, d.run = some p →
        (s.effective p = .unsettled → s.derivedState k = .unmonitored) ∧
        (s.effective p = .on → s.derivedState k =
          if (s.station k).state = .stalled then .stalled else .running) ∧
        (s.effective p = .off → s.derivedState k =
          if s.asserted d.fault then .faulted
          else if s.asserted d.block then .blocked
          else if s.asserted d.starve then .starved
          else .halted) := by
  unfold State.derivedState
  refine ⟨fun h => by rw [h], fun d hd => ?_⟩
  rw [hd]
  refine ⟨fun h => by simp only [h], fun p hp => ?_⟩
  simp only [hp]
  refine ⟨fun h => by rw [h], fun h => ?_, fun h => by rw [h]⟩
  rw [h]
  cases (s.station k).state <;> rfl

theorem State.asserted_iff (s : State) (q : Option PointId) :
    s.asserted q = true ↔ ∃ p, q = some p ∧ s.effective p = .on := by
  cases q <;> simp [State.asserted]

theorem State.asserted_eq_false {s : State} {q : Option PointId}
    (h : ∀ p, q = some p → s.effective p ≠ .on) : s.asserted q = false := by
  refine Bool.eq_false_iff.mpr fun ha => ?_
  obtain ⟨p, hp, hon⟩ := (s.asserted_iff q).mp ha
  exact h p hp hon

/-- Settles O39, by `State.derivedState_table` and `State.settlePoints_moves`. -/
theorem stationsFollowTheirPoints : Obligations.StationsFollowTheirPoints := by
  refine ⟨fun s k => ?_, fun s drive sense hrun => ?_⟩
  · obtain ⟨hnone, hdef⟩ := s.derivedState_table k
    refine ⟨hnone, fun d hd => ⟨(hdef d hd).1, fun p hp => ?_⟩⟩
    obtain ⟨hu, hon, hoff⟩ := (hdef d hd).2 p hp
    refine ⟨hu, hon, fun h => ?_⟩
    rw [hoff h]
    refine ⟨fun hf => by rw [if_pos ((s.asserted_iff _).mpr hf)], fun hf => ?_⟩
    rw [State.asserted_eq_false hf]
    refine ⟨fun hb => ?_, fun hb => ?_⟩
    · rw [if_pos ((s.asserted_iff _).mpr hb)]; rfl
    · rw [State.asserted_eq_false hb]
      refine ⟨fun hst => ?_, fun hst => ?_⟩
      · rw [if_pos ((s.asserted_iff _).mpr hst)]; rfl
      · rw [State.asserted_eq_false hst]; rfl
  · have honly := (s.scannedBy_scanDrive drive sense).only
    unfold State.OnlyPoints at honly
    have hpoints := (State.settlePoints_same s (s.scanDrive drive sense)).points
    obtain ⟨u, hu, hmove, htake⟩ := State.settlePoints_moves s (s.scanDrive drive sense)
      (by rw [honly]) (by rw [honly]) (by rw [honly]) (by rw [honly]) (by rw [honly])
    have hualerts : u.alerts = (s.scanDrive drive sense).alerts := by rw [hu]
    refine ⟨_, u, exec_matrixScan hrun drive sense, ?_, ?_, hmove, htake⟩
    · rw [hpoints, hualerts]
      exact hu.trans (by rw [honly])
    · rw [hualerts]
      exact s.scanDrive_alerts drive sense

end Sys2Proof.Machine

/-! SET-POINT-MODE (R9, R11 to R14), the ends of the chatter windows (R4, R6, R15), and the events of the
sampler that change no count (R28, R33). -/

namespace Sys2Proof.Machine

/-! ### Window ends, window closes, slot tables -/

/-- The chatter window that begins at `t` ends within one window (R4, R15). -/
theorem windowEndAfter_bounds {w : Nat} (hw : 0 < w) (t : Nat) :
    t < windowEndAfter w t ∧ windowEndAfter w t ≤ t + w * 100 := by
  unfold windowEndAfter
  have hpos : 0 < w * 100 := by omega
  have hdiv := Nat.div_add_mod t (w * 100)
  have hmod := Nat.mod_lt t hpos
  rw [Nat.add_mul, Nat.one_mul, Nat.mul_comm (t / (w * 100))]
  omega

theorem exec_setMonitor {s : State} (h : s.Takes .setMonitor) (w : Byte) :
    exec (.setMonitor w) s = .next ((s.setWindow (clamp 1 60 w.toNat)).owe
      (some ⟨0xA7, [BitVec.ofNat 8 (clamp 1 60 w.toNat)]⟩)) :=
  congrArg Host.Outcome.next (h.serve_done rfl _)

theorem exec_chatterWindowEnd {s : State} (h : s.power.running = true)
    (hw : s.clock.windowEnd ≤ s.clock.count) :
    exec .chatterWindowEnd s = .next s.endWindow := by
  change execChatterWindowEnd s = _
  rw [execChatterWindowEnd, if_pos]
  simp [h, State.now, hw]

theorem PointAcq.windowEnd_held (a : PointAcq) (d : PointSettings) :
    (a.windowEnd d).held = if a.noisy = true ∧ a.activity < d.limit then none else a.held := by
  unfold PointAcq.windowEnd
  by_cases h : a.noisy = true ∧ a.activity < d.limit
  · simp [h, PointAcq.clearNoisy]
  · rw [if_neg h, if_neg (by simpa using h)]

theorem PointAcq.windowEnd_rest (a : PointAcq) (d : PointSettings) :
    (a.windowEnd d).activity = 0 ∧ (a.windowEnd d).accepted = a.accepted ∧
      (a.windowEnd d).run = a.run ∧
      (a.windowEnd d).noisy = (a.noisy && !decide (a.activity < d.limit)) := by
  unfold PointAcq.windowEnd
  cases hn : a.noisy <;> by_cases hl : a.activity < d.limit <;>
    simp [hn, hl, PointAcq.clearNoisy]

/-- Settles O27, by `State.settlePoints_moves` and `windowEndAfter_bounds`. -/
theorem chatterWindowsEndAndAreSet : Obligations.ChatterWindowsEndAndAreSet := by
  refine ⟨fun s hrun hw => ?_, fun s w taken h ht => ?_⟩
  · obtain ⟨s1, hs1⟩ : ∃ s1 : State, s1 = { s with
        points := Tab.mapAll (fun p a => a.windowEnd (s.pointDef p)) s.points
        inputs := Tab.mapAll (fun i a => a.windowEnd (s.inputDef i)) s.inputs
        clock := { s.clock with windowEnd := windowEndAfter s.settings.window s.now } } := ⟨_, rfl⟩
    have hend : s.endWindow = State.settlePoints s s1 := by rw [hs1]; rfl
    obtain ⟨u, hu, hmove, htake⟩ := State.settlePoints_moves s s1 (by rw [hs1]) (by rw [hs1])
      (by rw [hs1]) (by rw [hs1]) (by rw [hs1])
    have hsame := State.settlePoints_same s s1
    obtain ⟨hqueue, -, hlink⟩ := State.settlePoints_books s s1
    rw [exec_chatterWindowEnd hrun hw, hend]
    generalize State.settlePoints s s1 = t at *
    refine ⟨t, u, rfl, ?_, hmove, htake, fun p => ?_, fun i => ?_, ?_, ?_, ?_, ?_, ?_, ?_, ?_⟩
    · rw [hsame.points, hsame.inputs, hsame.clock]
      exact hu.trans (by rw [hs1])
    · have hp : t.point p = (s.point p).windowEnd (s.pointDef p) := by
        unfold State.point
        rw [hsame.points, hs1, Tab.get_mapAll]
      obtain ⟨hact, hacc, hrun, hn⟩ := PointAcq.windowEnd_rest (s.point p) (s.pointDef p)
      rw [hp]
      exact ⟨hact, hacc, hrun, hn, PointAcq.windowEnd_held _ _⟩
    · have hi : t.input i = (s.input i).windowEnd (s.inputDef i) := by
        unfold State.input
        rw [hsame.inputs, hs1, Tab.get_mapAll]
      rw [hi]
      exact ⟨rfl, rfl, rfl, rfl, rfl, rfl⟩
    · rw [hsame.clock, hs1]; rfl
    · rw [hsame.settings, hs1]
    · rw [hsame.archive, hs1]
    · rw [hqueue, hs1]
    · rw [hlink, hs1]
    · rw [hsame.power, hs1]
    · rw [hsame.guardMode, hs1]
  · subst ht
    refine ⟨exec_setMonitor h w, windowEndAfter_bounds ?_ _⟩
    exact Nat.lt_of_lt_of_le Nat.one_pos (Nat.le_max_left _ _)

theorem exec_windowClose {s : State} (h : s.power.running = true) (i : InputId) :
    exec (.windowClose i) s = .next (s.modInput i fun a =>
      { a with windows := a.windows.filter fun w => s.moment < w.closes }) := by
  change execWindowClose i s = _
  rw [execWindowClose, if_pos h]

theorem exec_slotTableInstall {s : State} (h : s.power.running = true) :
    exec .slotTableInstall s = .next s.installSlots := by
  change execSlotTableInstall s = _
  rw [execSlotTableInstall, if_pos h]

theorem InputAcq.installed_eq (a : InputAcq) (before after : Nat) : a.installed before after =
    if before = 0 ↔ after = 0 then a
    else { a with accepted := .unsettled, run := 0, lastSample := none } := by
  unfold InputAcq.installed
  by_cases hb : before = 0 <;> by_cases ha : after = 0 <;> simp [hb, ha]

theorem State.input_installSlots (s : State) (i : InputId) : s.installSlots.input i =
    (s.input i).installed (slotCount s.installed i) (slotCount s.settings.slots i) := by
  unfold State.installSlots State.input
  rw [Tab.get_mapAll]

/-- Settles O32. -/
theorem windowsCloseAndSlotsInstall : Obligations.WindowsCloseAndSlotsInstall := by
  intro s hrun
  refine ⟨fun i => exec_windowClose hrun i, _, exec_slotTableInstall hrun, rfl, rfl, fun i h => ?_,
    fun i h => ?_, rfl⟩
  · rw [State.input_installSlots, InputAcq.installed_eq, if_pos h]
  · rw [State.input_installSlots, InputAcq.installed_eq, if_neg h]

end Sys2Proof.Machine

/-! The settings of the part as a whole: STORE-SETTINGS and its write (R169, R170), SET-CAUSE (R40,
R42), and what a served request answers when its identifiers are in range. -/

namespace Sys2Proof.Machine

/-! ### A request whose identifiers are in range -/

section Served

variable {s : State} {kind : RequestKind} {range : Option Refused} {refusal : State → Option Refused}

theorem State.Takes.done (h : s.Takes kind) (hrange : range = none) (hr : refusal s = none)
    (effect : State → State × List Byte) :
    s.serve kind none range (checked refusal effect) =
      (effect s).1.owe (some ⟨kind.code + 0x80, (effect s).2⟩) := by
  rw [hrange, h.serve_done hr]

theorem State.Takes.refused (h : s.Takes kind) (hrange : range = none) {r : Refused}
    (hr : refusal s = some r) (effect : State → State × List Byte) :
    s.serve kind none range (checked refusal effect) =
      s.owe (some ⟨0xFF, [kind.code, r.reason.code, r.detail]⟩) := by
  rw [hrange, h.serve_refusal hr]

theorem State.Takes.outOfRange (h : s.Takes kind) {r : Refused} (hrange : range = some r)
    (owner : State → State × Answer) :
    s.serve kind none range owner = s.owe (some ⟨0xFF, [kind.code, r.reason.code, r.detail]⟩) := by
  rw [hrange, h.serve_outOfRange]

end Served

/-! ### Checks taken in order (R162) -/

@[simp] theorem firstRefusal_nil : firstRefusal [] = none := rfl

@[simp] theorem firstRefusal_some (r : Refused) (rest : List (Option Refused)) :
    firstRefusal (some r :: rest) = some r := rfl

@[simp] theorem firstRefusal_none (rest : List (Option Refused)) :
    firstRefusal (none :: rest) = firstRefusal rest := rfl

theorem above_some {b : Byte} {top : Nat} (h : top < b.toNat) : above b top = some ⟨.outOfRange, b⟩ :=
  refuseIf_eq_some (decide_eq_true h) _ _

theorem carriedAbove_some {c : Carried Byte} {top : Nat} (hc : c.presence ≠ 0)
    (h : top < c.value.toNat) : carriedAbove c top = some ⟨.outOfRange, c.value⟩ := by
  rw [carriedAbove, if_neg hc, above_some h]

theorem presenceBad_some {α : Type} {c : Carried α} (h : 1 < c.presence.toNat) (place : Nat) :
    presenceBad c place = some ⟨.malformed, BitVec.ofNat 8 place⟩ :=
  refuseIf_eq_some (decide_eq_true h) _ _

theorem presence_zero_or_one {b : Byte} (h : b.toNat ≤ 1) : b = 0 ∨ b = 1 := by
  have hb : b = 0#8 ∨ b = 1#8 := by
    rcases Nat.le_one_iff_eq_zero_or_eq_one.mp h with h | h
    · exact .inl (BitVec.eq_of_toNat_eq (by simpa using h))
    · exact .inr (BitVec.eq_of_toNat_eq (by simpa using h))
  exact hb

/-! ### STORE-SETTINGS -/

theorem exec_storeSettings {s : State} (h : s.Takes .storeSettings) :
    exec .storeSettings s = .next (s.storeSettings.owe none) := by
  change Host.Outcome.next (s.serve .storeSettings none none fun s => (s.storeSettings, .later)) = _
  rw [State.serve_owner h.receives (by rw [h.commonRefusal]; rfl)]
  rfl

theorem State.storeSettings_eq (s : State) : s.storeSettings = { s with
    queue := s.queue ++ [.settings]
    settingsCopy := if s.queue = [] then some s.settings else s.settingsCopy
    link := { s.link with ahead := s.queue.length } } := by
  unfold State.storeSettings State.queueJoin
  cases hq : s.queue with
  | nil => rfl
  | cons w rest => rfl

theorem State.serveHead_eq (s : State) : s.serveHead = { s with
    settingsCopy := if s.queue.head? = some .settings then some s.settings else none } := by
  unfold State.serveHead
  cases s.queue with
  | nil => rfl
  | cons w rest => cases w <;> rfl

theorem State.settingsWritten_eq {s : State} {rest : List WriteItem} {g : Settings}
    (hq : s.queue = .settings :: rest) (hg : s.settingsCopy = some g) :
    s.settingsWritten = { s with
      queue := rest
      image := some ⟨g, crc16 (Config.imageLayout g)⟩
      imageStatus := .good
      settingsCopy := if rest.head? = some .settings then some s.settings else none } := by
  unfold State.settingsWritten State.queuePop
  rw [State.serveHead_eq]
  simp only [hq, hg, Option.getD_some, List.drop_succ_cons, List.drop_zero, imageCheck]

/-- The reply of the STORE-SETTINGS whose write completed: the status and the items that stood ahead
of it (R170). -/
theorem State.replyStored_eq (s : State) : s.replyStored = { s with
    link := if s.power.running = true ∧ s.link.serving = .serving ∧ s.link.reply = none then
        { s.link with
          serving := .replying
          reply := some ⟨0xA8, [s.imageStatus.code, BitVec.ofNat 8 s.link.ahead]⟩ }
      else s.link } := by
  have hiff : (s.power.running && s.link.serving == .serving && s.link.reply.isNone) = true ↔
      s.power.running = true ∧ s.link.serving = .serving ∧ s.link.reply = none := by
    simp [and_assoc]
  by_cases h : s.power.running = true ∧ s.link.serving = .serving ∧ s.link.reply = none
  · rw [State.replyStored, if_pos (hiff.mpr h), if_pos h]
    rfl
  · rw [State.replyStored, if_neg (mt hiff.mp h), if_neg h]

/-- Settles O36: the queue takes the write, and the image is the copy it began with. -/
theorem settingsAreStored : Obligations.SettingsAreStored := by
  refine fun s => ⟨fun h => ?store, fun rest g hmain hreset hq hg => ?written⟩
  case store => rw [exec_storeSettings h, State.storeSettings_eq]; rfl
  case written =>
    have hserves : s.serves = true := by simp [State.serves, hmain, hreset]
    have hexec : exec .settingsWriteComplete s = .next s.settingsWritten.replyStored := by
      simp only [exec, execSettingsWriteComplete, hserves, hq, if_true]
    rw [hexec, State.replyStored_eq, State.settingsWritten_eq hq hg]
    rfl

/-! ### SET-CAUSE -/

theorem Category.ofByte_code (c : Category) : Category.ofByte c.code = some c := by
  cases c <;> rfl

theorem Category.ofByte_above {b : Byte} (h : 10 < b.toNat) : Category.ofByte b = none := by
  unfold Category.ofByte
  refine List.find?_eq_none.mpr fun c _ hc => ?_
  have hle : c.code.toNat ≤ 10 := by cases c <;> decide
  rw [eq_of_beq hc] at hle
  omega

theorem Category.exists_code {b : Byte} (h : b.toNat ≤ 10) : ∃ c : Category, c.code = b := by
  have hall : ∀ x : Fin 11, ∃ c ∈ Category.all, c.code.toNat = x.val := by decide
  obtain ⟨c, -, hc⟩ := hall ⟨b.toNat, by omega⟩
  exact ⟨c, BitVec.eq_of_toNat_eq hc⟩

theorem hostEntry_setCause_same {g : Settings} {code : CauseCode} (h : 10 ≤ code.toNat)
    (e : Option CauseEntry) : hostEntry (g.setCause code e) code = e := by
  simp only [hostEntry, Settings.setCause, dif_pos h, Tab.get_set_same]

theorem hostEntry_setCause_ne (g : Settings) {code x : CauseCode} (h : x ≠ code)
    (e : Option CauseEntry) : hostEntry (g.setCause code e) x = hostEntry g x := by
  unfold Settings.setCause
  split
  case isFalse => rfl
  case isTrue hcode =>
    unfold hostEntry
    split
    case isFalse => rfl
    case isTrue hx =>
      refine Tab.get_set_ne _ (fun heq => h (BitVec.eq_of_toNat_eq ?_)) _
      have hval := Fin.val_eq_of_eq heq
      dsimp only at hval
      omega

theorem Settings.setCause_eq (g : Settings) (code : CauseCode) (e : Option CauseEntry) :
    g.setCause code e = { g with causes := (g.setCause code e).causes } := by
  unfold Settings.setCause
  split <;> rfl

section SetCause

variable {s : State} {code defined category : Byte} {scope : Carried Byte}

theorem exec_setCause_done (h : s.Takes .setCause) (hrange : causeRange code defined scope = none)
    (hr : causeRefusal code defined category scope s = none) {e : Option CauseEntry}
    (he : causeTaken defined category scope = e) :
    exec (.setCause code defined category scope) s =
      .next (State.owe { s with settings := s.settings.setCause code e }
        (some ⟨0xA5, code :: causeEntryBytes e⟩)) := by
  subst he
  exact congrArg Host.Outcome.next (h.done hrange hr _)

theorem exec_setCause_refused (h : s.Takes .setCause)
    (hrange : causeRange code defined scope = none) {r : Refused}
    (hr : causeRefusal code defined category scope s = some r) :
    exec (.setCause code defined category scope) s =
      .next (s.owe (some ⟨0xFF, [0x25, r.reason.code, r.detail]⟩)) :=
  congrArg Host.Outcome.next (h.refused hrange hr _)

theorem exec_setCause_outOfRange (h : s.Takes .setCause) {r : Refused}
    (hrange : causeRange code defined scope = some r) :
    exec (.setCause code defined category scope) s =
      .next (s.owe (some ⟨0xFF, [0x25, r.reason.code, r.detail]⟩)) :=
  congrArg Host.Outcome.next (h.outOfRange hrange _)

theorem hostCodeRange_none (h : 10 ≤ code.toNat) : hostCodeRange code = none :=
  refuseIf_eq_none (decide_eq_false (by omega)) _ _

theorem causeRange_none (hcode : 10 ≤ code.toNat)
    (hscope : defined ≠ 0 → scope.presence ≠ 0 → scope.value.toNat ≤ 63) :
    causeRange code defined scope = none := by
  rw [causeRange, hostCodeRange_none hcode, firstRefusal_none]
  by_cases hd : defined = 0
  · rw [if_pos hd]; rfl
  · by_cases hp : scope.presence = 0
    · rw [if_neg hd, carriedAbove_none (.inl hp)]; rfl
    · rw [if_neg hd, carriedAbove_none (.inr (hscope hd hp))]; rfl

end SetCause

/-- Settles O38: the checks of the entry in the order of the body, and the entry written. -/
theorem causesAreWritten : Obligations.CausesAreWritten := by
  intro s code defined category scope h
  refine ⟨fun hcode => ?range, fun hcode hd => ?removed, fun hcode hd hscope => ⟨fun hc => ?category,
    fun hc hp => ?presence⟩, fun c hcode hd hc hp hscope => ⟨fun hbad => ?cause, fun hu hpl => ?taken⟩⟩
  case range =>
    exact exec_setCause_outOfRange h (r := ⟨.outOfRange, code⟩) (by
      rw [causeRange, hostCodeRange, refuseIf_eq_some (decide_eq_true hcode), firstRefusal_some])
  case removed =>
    have hexec := exec_setCause_done h (category := category) (scope := scope) (defined := defined)
      (causeRange_none hcode fun h => absurd hd h) (if_pos hd) (if_pos hd)
    refine ⟨_, hexec, hostEntry_setCause_same hcode none,
      fun x hx => hostEntry_setCause_ne _ hx _, ?_⟩
    conv_lhs => rw [Settings.setCause_eq]
    rfl
  case category =>
    exact exec_setCause_refused h (r := ⟨.malformed, 2⟩) (causeRange_none hcode fun _ => hscope) (by
      rw [causeRefusal, if_neg hd, Category.ofByte_above hc])
  case presence =>
    obtain ⟨c, rfl⟩ := Category.exists_code hc
    exact exec_setCause_refused h (r := ⟨.malformed, 3⟩) (causeRange_none hcode fun _ => hscope) (by
      simp only [causeRefusal, if_neg hd, Category.ofByte_code, presenceBad_some hp,
        firstRefusal_some]
      rfl)
  case cause =>
    subst hc
    have hrange : causeRange code defined scope = none := causeRange_none hcode fun _ hp0 =>
      hscope ((presence_zero_or_one hp).resolve_left hp0)
    refine exec_setCause_refused h (r := ⟨.cause, code⟩) hrange ?_
    simp only [causeRefusal, if_neg hd, Category.ofByte_code, presenceBad_none hp,
      firstRefusal_none]
    cases hbad with
    | inl hu => rw [refuseIf_eq_some (by rw [hu]; rfl), firstRefusal_some]
    | inr hpl =>
      obtain ⟨hplanned, hone⟩ := hpl
      have hne : (c == Category.unassigned) = false := by
        cases c with
        | unassigned => exact absurd hplanned (by decide)
        | _ => rfl
      rw [refuseIf_eq_none hne, firstRefusal_none, refuseIf_eq_some (by rw [hplanned, hone]; rfl),
        firstRefusal_some]
  case taken =>
    subst hc
    have hrange : causeRange code defined scope = none := causeRange_none hcode fun _ hp0 =>
      hscope ((presence_zero_or_one hp).resolve_left hp0)
    have hplanned : (c.planned && scope.presence != 0) = false := by
      cases hc : c.planned with
      | false => rfl
      | true => rw [hpl hc]; rfl
    have hr : causeRefusal code defined c.code scope s = none := by
      simp only [causeRefusal, if_neg hd, Category.ofByte_code, presenceBad_none hp,
        refuseIf_eq_none (beq_eq_false_iff_ne.mpr hu), refuseIf_eq_none hplanned,
        firstRefusal_none, firstRefusal_nil]
    have htaken : causeTaken defined c.code scope = some ⟨c, carriedStation scope⟩ := by
      rw [causeTaken, if_neg hd, Category.ofByte_code]; rfl
    refine ⟨_, exec_setCause_done h hrange hr htaken, ?_,
      fun x hx => hostEntry_setCause_ne _ hx _, ?_⟩
    · exact hostEntry_setCause_same hcode _
    · conv_lhs => rw [Settings.setCause_eq]
      rcases presence_zero_or_one hp with hzero | hone
      · simp [carriedStation, causeEntryBytes, hzero, flag, optional]
      · simp [carriedStation, causeEntryBytes, hone, flag, optional,
          idByte_stationOfByte (hscope hone)]

end Sys2Proof.Machine

/-! The shift calendar (R143, R144): what makes an instant the first boundary after another one, or the
last one up to it, and SET-SCHEDULE. -/

namespace Sys2Proof.Machine

/-! ### Boundary instants -/

/-- In an ordered list, what `find?` finds comes before everything else that passes the test. -/
theorem find?_first {α : Type} {R : α → α → Prop} {l : List α} (hl : l.Pairwise R) {p : α → Bool}
    {v r : α} (h : l.find? p = some v) (hr : r ∈ l) (hp : p r = true) : r = v ∨ R v r := by
  obtain ⟨-, before, after, rfl, hbefore⟩ := List.find?_eq_some_iff_append.mp h
  rcases List.mem_append.mp hr with hr | hr
  · have := hbefore r hr
    simp [hp] at this
  · rcases List.mem_cons.mp hr with rfl | hr
    · exact .inl rfl
    · exact .inr ((List.pairwise_cons.mp (List.pairwise_append.mp hl).2.1).1 r hr)

section Boundaries

variable {schedule : List Nat}

theorem firstBoundaryAfter_isSome (h : schedule ≠ []) (t : Nat) :
    (firstBoundaryAfter schedule t).isSome = true := by
  refine Option.isSome_iff_ne_none.mpr fun hnone => ?_
  unfold firstBoundaryAfter at hnone
  extract_lets day at hnone
  clear_value day
  split at hnone
  · exact Option.some_ne_none _ hnone
  · exact h (List.head?_eq_none_iff.mp (Option.map_eq_none_iff.mp hnone))

/-- The beginning of the day of an instant, with the length of a day written out. -/
theorem day_eq (t : Nat) : t / Config.dayLength * Config.dayLength = t / 8640000 * 8640000 := rfl

theorem firstBoundaryAfter_spec (hp : schedule.Pairwise (· < ·))
    (hv : ∀ v ∈ schedule, v < 8640000) {t b : Nat} (h : firstBoundaryAfter schedule t = some b) :
    t < b ∧ b % 8640000 ∈ schedule ∧ ∀ x, t < x → x % 8640000 ∈ schedule → b ≤ x := by
  unfold firstBoundaryAfter at h
  extract_lets day at h
  have hday : day = t / 8640000 * 8640000 := day_eq t
  have hlen : Config.dayLength = 8640000 := rfl
  clear_value day
  split at h
  next v hfind =>
    obtain rfl := Option.some.inj h
    have hmem := List.mem_of_find?_eq_some hfind
    have hvlt := hv v hmem
    have hlt : t < day + v := by simpa using List.find?_some hfind
    refine ⟨hlt, ?_, fun x hx hxm => ?_⟩
    · rw [show (day + v) % 8640000 = v by omega]
      exact hmem
    · by_cases hsame : x / 8640000 = t / 8640000
      · have hpass : t < day + x % 8640000 := by omega
        rcases find?_first hp hfind hxm (decide_eq_true hpass) with heq | hgt <;> omega
      · omega
  next hfind =>
    cases schedule with
    | nil => exact nomatch h
    | cons v rest =>
      rw [List.head?_cons, Option.map_some, hlen] at h
      have hb : day + 8640000 + v = b := Option.some.inj h
      have hvlt := hv v List.mem_cons_self
      refine ⟨by omega, ?_, fun x hx hxm => ?_⟩
      · rw [show b % 8640000 = v by omega]
        exact List.mem_cons_self
      · have hpast : ¬ t < day + x % 8640000 := fun hlt =>
          List.find?_eq_none.mp hfind _ hxm (decide_eq_true hlt)
        have hfirst : v ≤ x % 8640000 := by
          rcases List.mem_cons.mp hxm with heq | hin
          · exact heq.ge
          · exact ((List.pairwise_cons.mp hp).1 _ hin).le
        omega

theorem lastBoundaryBy_spec (hp : schedule.Pairwise (· < ·))
    (hv : ∀ v ∈ schedule, v < 8640000) {t b : Nat} (h : lastBoundaryBy schedule t = some b) :
    b ≤ t ∧ b % 8640000 ∈ schedule ∧ ∀ x, x ≤ t → x % 8640000 ∈ schedule → x ≤ b := by
  have hrev : schedule.reverse.Pairwise (fun a b => b < a) := List.pairwise_reverse.mpr hp
  unfold lastBoundaryBy at h
  extract_lets day at h
  have hday : day = t / 8640000 * 8640000 := day_eq t
  have hlen : Config.dayLength = 8640000 := rfl
  clear_value day
  split at h
  next v hfind =>
    obtain rfl := Option.some.inj h
    have hmem := List.mem_reverse.mp (List.mem_of_find?_eq_some hfind)
    have hvlt := hv v hmem
    have hle : day + v ≤ t := by simpa using List.find?_some hfind
    refine ⟨hle, ?_, fun x hx hxm => ?_⟩
    · rw [show (day + v) % 8640000 = v by omega]
      exact hmem
    · by_cases hsame : x / 8640000 = t / 8640000
      · have hpass : day + x % 8640000 ≤ t := by omega
        rcases find?_first hrev hfind (List.mem_reverse.mpr hxm) (decide_eq_true hpass) with
          heq | hgt <;> omega
      · omega
  next hfind =>
    split at h
    next => exact nomatch h
    next hlater =>
      obtain ⟨v, hlast, hb⟩ := Option.map_eq_some_iff.mp h
      rw [hlen] at hb
      have hmem := List.mem_of_getLast? hlast
      have hvlt := hv v hmem
      obtain ⟨before, rfl⟩ := List.getLast?_eq_some_iff.mp hlast
      refine ⟨by omega, ?_, fun x hx hxm => ?_⟩
      · rw [show b % 8640000 = v by omega]
        exact hmem
      · have hpast : ¬ day + x % 8640000 ≤ t := fun hle =>
          List.find?_eq_none.mp hfind _ (List.mem_reverse.mpr hxm) (decide_eq_true hle)
        have hgreatest : x % 8640000 ≤ v := by
          rcases List.mem_append.mp hxm with hin | heq
          · exact ((List.pairwise_append.mp hp).2.2 _ hin _ (List.mem_singleton.mpr rfl)).le
          · exact (List.mem_singleton.mp heq).le
        omega

end Boundaries

/-! ### SET-SCHEDULE -/

theorem notRising_eq_none_iff (place : Nat) (l : List Nat) :
    notRising place l = none ↔ l.Pairwise (· < ·) := by
  rw [← List.isChain_iff_pairwise]
  induction l generalizing place with
  | nil => simp [notRising]
  | cons a rest ih =>
    cases rest with
    | nil => simp [notRising]
    | cons b rest =>
      rw [List.isChain_cons_cons, notRising]
      by_cases h : a < b
      · rw [if_pos h, ih]; simp [h]
      · rw [if_neg h]; simp [h]

theorem scheduleTaken_eq (values : List (BitVec 32)) :
    scheduleTaken values = values.map fun v => min v.toNat 863999 := by
  refine List.map_congr_left fun v _ => ?_
  simp only [clamp]
  omega

theorem State.setSchedule_eq (s : State) (taken : List Nat) : s.setSchedule taken = { s with
    settings := { s.settings with schedule := taken.map (10 * ·) }
    clock := { s.clock with
      nextBoundary := if s.clock.isSet then
          firstBoundaryAfter (taken.map (10 * ·)) (max s.hall (s.clock.lastBoundary.getD 0))
        else none } } := rfl

section SetSchedule

variable {s : State} {values : List (BitVec 32)}

theorem exec_setSchedule_malformed (h : s.Takes .setSchedule) (hlen : 4 < values.length) :
    exec (.setSchedule values) s =
      .next (s.owe (some ⟨0xFF, [0x12, 0x02, BitVec.ofNat 8 (1 + 4 * values.length)]⟩)) := by
  have hlength : scheduleLength values =
      some ⟨.malformed, BitVec.ofNat 8 (1 + 4 * values.length)⟩ :=
    refuseIf_eq_some (decide_eq_true hlen) _ _
  have hcommon := (h.commonRefusal (scheduleLength values) none).trans
    (by rw [hlength, Option.some_or])
  exact congrArg Host.Outcome.next (State.serve_refused h.receives hcommon _)

theorem exec_setSchedule_within (s : State) (hlen : values.length ≤ 4) :
    exec (.setSchedule values) s = .next (s.serve .setSchedule none none
      (checked (scheduleRefusal values) fun s =>
        let taken := scheduleTaken values
        (s.setSchedule taken, BitVec.ofNat 8 taken.length :: taken.flatMap (field 4)))) := by
  have hlength : scheduleLength values = none :=
    refuseIf_eq_none (decide_eq_false (by omega)) _ _
  exact congrArg Host.Outcome.next (by rw [hlength])

end SetSchedule

/-- Settles O35: the schedule is taken when it rises, and both boundary instants are what R144 calls
them. -/
theorem scheduleIsReplaced : Obligations.ScheduleIsReplaced := by
  refine ⟨fun s values taken h htaken => ?_, fun schedule t hp hv =>
    ⟨fun hne => firstBoundaryAfter_isSome hne t, fun b hb => firstBoundaryAfter_spec hp hv hb,
      fun b hb => lastBoundaryBy_spec hp hv hb⟩⟩
  rw [← scheduleTaken_eq] at htaken
  subst htaken
  refine ⟨exec_setSchedule_malformed h, fun hlen hrising => ?replaced, fun hlen hfalls => ?refused⟩
  case replaced =>
    have hr : scheduleRefusal values s = none := by
      rw [scheduleRefusal, (notRising_eq_none_iff 0 _).mpr hrising]; rfl
    rw [exec_setSchedule_within s hlen, h.serve_done hr]
    rfl
  case refused =>
    obtain ⟨place, hplace⟩ := Option.ne_none_iff_exists'.mp
      (mt (notRising_eq_none_iff 0 (scheduleTaken values)).mp hfalls)
    refine ⟨BitVec.ofNat 8 (1 + 4 * place), ?_⟩
    have hr : scheduleRefusal values s = some ⟨.malformed, BitVec.ofNat 8 (1 + 4 * place)⟩ := by
      rw [scheduleRefusal, hplace]; rfl
    rw [exec_setSchedule_within s hlen, h.serve_refusal hr]
    rfl

end Sys2Proof.Machine

/-! What the operations of a line make of its record and its bank (R118, R119, R131): entering a state,
promotion, the ends of stoppages and the degraded test, each said once as an update of one line. -/

namespace Sys2Proof.Machine

/-! ### Entering a state: the bank -/

/-- The bank of a line that enters `st` at `t` with the bucket `k`. -/
def Bank.enter (b : Bank) (st : LineState) (t rate : Nat) (k : Bucket) : Bank :=
  (if st = .running then { b.credit t rate with runStart := some t } else b.credit t rate).switch t k

theorem Bank.time_credit (b : Bank) (t rate : Nat) (y : Bucket) :
    (b.credit t rate).time y = b.time y := by
  unfold Bank.time
  rw [Bank.times_credit]

theorem Bank.time_switch (b : Bank) (t : Nat) (k y : Bucket) :
    (b.switch t k).time y = (b.book t).time y := rfl

/-- Booking again at the same count adds nothing. -/
theorem Bank.time_book_of_segStart {b : Bank} {t : Nat} (h : b.segStart = t) (y : Bucket) :
    (b.book t).time y = b.time y := by
  rw [Bank.time_book, h, Nat.sub_self, ite_self, Nat.add_zero]

theorem Bank.time_book_congr {b c : Bank} (ht : ∀ y, b.time y = c.time y)
    (hk : b.booking = c.booking) (hs : b.segStart = c.segStart) (t : Nat) (y : Bucket) :
    (b.book t).time y = (c.book t).time y := by
  rw [Bank.time_book, Bank.time_book, ht, hk, hs]

section Enter

variable (b : Bank) (st : LineState) (t rate : Nat) (k : Bucket)

/-- The bank that books until `t`, before it books in the new bucket. -/
theorem Bank.enter_eq : b.enter st t rate k = { b.book t with
    counts := (b.credit t rate).counts
    booking := k
    runStart := if st = .running then some t else none } := by
  have hc : b.credit t rate =
      { b with counts := (b.credit t rate).counts, runStart := none } := by
    unfold Bank.credit
    cases hr : b.runStart with
    | none => cases b; simp_all
    | some r => rfl
  unfold Bank.enter
  rw [hc]
  split <;> rfl

@[simp] theorem Bank.counts_enter : (b.enter st t rate k).counts = (b.credit t rate).counts := by
  rw [Bank.enter_eq]

@[simp] theorem Bank.time_enter (y : Bucket) : (b.enter st t rate k).time y = (b.book t).time y := by
  rw [Bank.enter_eq]; rfl

@[simp] theorem Bank.booking_enter : (b.enter st t rate k).booking = k := by rw [Bank.enter_eq]

@[simp] theorem Bank.segStart_enter : (b.enter st t rate k).segStart = t := by rw [Bank.enter_eq]; rfl

@[simp] theorem Bank.openCount_enter : (b.enter st t rate k).openCount = b.openCount := by
  rw [Bank.enter_eq]; rfl

@[simp] theorem Bank.runStart_enter :
    (b.enter st t rate k).runStart = if st = .running then some t else none := by
  rw [Bank.enter_eq]

@[simp] theorem Bank.booked_enter : (b.enter st t rate k).booked = b.booked + (t - b.segStart) := by
  rw [Bank.enter_eq]
  exact Bank.booked_book b t

@[simp] theorem Bank.degraded_enter : (b.enter st t rate k).degraded = b.degraded := by
  rw [Bank.enter_eq]; rfl

@[simp] theorem Bank.countNoisy_enter : (b.enter st t rate k).countNoisy = b.countNoisy := by
  rw [Bank.enter_eq]; rfl

end Enter

/-- The running segment is credited at the line's rate (R131). -/
theorem Bank.runCredited_of_credit {b b' : Bank} {rate : Option Nat} {t : Nat}
    (hi : b'.counts.ideal = (b.credit t (rate.getD 0)).counts.ideal)
    (hr : b'.counts.remainder = (b.credit t (rate.getD 0)).counts.remainder) :
    b.RunCredited b' rate t where
  segment := fun r q total hrun hrate htotal => by
    rw [hi, hr, hrate, Bank.counts_credit_some hrun, htotal]
    exact ⟨rfl, rfl⟩
  kept := fun hrun => by
    rw [hi, hr, Bank.counts_credit_none hrun]
    exact ⟨rfl, rfl⟩

/-! ### Entering a state: the line -/

/-- The record of a line that enters `st`. -/
def LineLive.enter (l : LineLive) (st : LineState) (stamp t rate : Nat) : LineLive :=
  { l with
    state := st
    stamp := stamp
    bank := l.bank.map fun b => b.enter st t rate (LineLive.bucket { l with state := st }) }

theorem State.enterLine_eq (s : State) (n : LineId) (st : LineState) (t : Nat) :
    s.enterLine n st t = s.modLine n fun l => l.enter st (s.hallAt t) t (s.rate n) := by
  unfold State.enterLine State.rebook
  rw [State.modLine_modLine]
  refine State.modLine_congr s n ?_
  simp only [LineLive.enter, Option.map_map]
  rfl

theorem State.line_enterLine (s : State) (n : LineId) (st : LineState) (t : Nat) :
    (s.enterLine n st t).line n = (s.line n).enter st (s.hallAt t) t (s.rate n) := by
  rw [State.enterLine_eq, State.line_modLine_same]

/-! ### Promotion (R76, R121) -/

/-- The bank of a line whose candidate, with these contributors, is promoted at `t`. -/
def Bank.promote (b : Bank) (t : Nat) (cs : List Contributor) : Bank :=
  ((b.book t).promoteTimes cs).modCounts fun c => { c with stoppage := saturate (c.stoppage + 1) }

/-- The record of a line whose candidate `r` is promoted at `t`, before it enters DOWN. -/
def LineLive.promote (l : LineLive) (r : Stoppage) (t : Nat) : LineLive :=
  { l with
    slot := some { r with kind := .record l.nextNumber }
    nextNumber := l.nextNumber + 1
    bank := l.bank.map fun b => b.promote t (r.contributorsAt t) }

theorem State.promote_eq {s : State} {n : LineId} {r : Stoppage} (h : (s.line n).slot = some r)
    (t : Nat) : s.promote n t =
      s.modLine n fun l => (l.promote r t).enter .down (s.hallAt t) t (s.rate n) := by
  unfold State.promote
  simp only [h]
  rw [State.enterLine_eq, State.modLine_modLine]
  rfl

theorem Bank.promote_time (b : Bank) (t : Nat) (cs : List Contributor) (y : Bucket) :
    (b.promote t cs).time y = ((b.book t).promoteTimes cs).time y := rfl

@[simp] theorem Bank.promote_counts (b : Bank) (t : Nat) (cs : List Contributor) :
    (b.promote t cs).counts = { b.counts with stoppage := min (b.counts.stoppage + 1) 4294967295 } := by
  unfold Bank.promote Bank.modCounts
  rw [Bank.counts_promoteTimes]
  rfl

@[simp] theorem Bank.promote_segStart (b : Bank) (t : Nat) (cs : List Contributor) :
    (b.promote t cs).segStart = t := Bank.segStart_promoteTimes (b.book t) cs

@[simp] theorem Bank.promote_openCount (b : Bank) (t : Nat) (cs : List Contributor) :
    (b.promote t cs).openCount = b.openCount := Bank.openCount_promoteTimes (b.book t) cs

@[simp] theorem Bank.promote_booked (b : Bank) (t : Nat) (cs : List Contributor) :
    (b.promote t cs).booked = b.booked + (t - b.segStart) :=
  (Bank.booked_promoteTimes (b.book t) cs).trans (Bank.booked_book b t)

theorem Bank.promoteTimes_rest (b : Bank) (cs : List Contributor) :
    b.promoteTimes cs = { b with times := (b.promoteTimes cs).times } := by
  induction cs generalizing b with
  | nil => rfl
  | cons c cs ih =>
    have hstep : b.promoteTimes (c :: cs) =
      (b.transfer .n (.cat c.category) c.duration).promoteTimes cs := rfl
    rw [hstep, ih]
    rfl

theorem Bank.promote_rest (b : Bank) (t : Nat) (cs : List Contributor) :
    b.promote t cs = { b.book t with
      times := ((b.book t).promoteTimes cs).times
      counts := { b.counts with stoppage := min (b.counts.stoppage + 1) 4294967295 } } := by
  unfold Bank.promote
  rw [Bank.promoteTimes_rest]
  rfl

/-- Buckets that hold the same hold the promoted durations alike. -/
theorem Bank.Promoted.congr {b b1 b2 : Bank} {cs : List Contributor} (h : b.Promoted b1 cs)
    (ht : ∀ y, b2.time y = b1.time y) : b.Promoted b2 cs := by
  simpa only [Bank.Promoted, ht] using h

/-! ### The degraded test (R84, R128) -/

/-- Whether the test finds the stoppage in the slot degraded, and not yet marked. -/
def State.newlyDegraded (s : State) (n : LineId) : Bool :=
  match (s.line n).slot with
  | none => false
  | some r => !r.markers.degraded && (s.constraintDegraded n || (s.station r.walkStation).degraded)

/-- A stoppage marked degraded, when it is found so. -/
def Stoppage.degrade (r : Stoppage) (d : Bool) : Stoppage :=
  { r with markers := { r.markers with degraded := r.markers.degraded || d } }

def LineLive.degrade (l : LineLive) (d : Bool) : LineLive :=
  { l with
    slot := l.slot.map fun r => r.degrade d
    bank := l.bank.map fun b => { b with degraded := b.degraded || d } }

theorem LineLive.degrade_false (l : LineLive) : l.degrade false = l := by
  have hslot : l.slot.map (fun r => r.degrade false) = l.slot := by
    cases l.slot with
    | none => rfl
    | some r => simp [Stoppage.degrade]
  have hbank : l.bank.map (fun b => { b with degraded := b.degraded || false }) = l.bank := by
    cases l.bank with
    | none => rfl
    | some b => simp
  unfold LineLive.degrade
  rw [hslot, hbank]

theorem State.modLine_id (s : State) (n : LineId) {f : LineLive → LineLive}
    (h : f (s.line n) = s.line n) : s.modLine n f = s := by
  have hset : Tab.set s.lines n (s.line n) = s.lines := Tab.set_get s.lines n
  unfold State.modLine Tab.modify
  rw [show f (Tab.get s.lines n) = s.line n from h, hset]

theorem State.testDegraded_eq (s : State) (n : LineId) :
    s.testDegraded n = s.modLine n fun l => l.degrade (s.newlyDegraded n) := by
  unfold State.testDegraded State.newlyDegraded
  cases hslot : (s.line n).slot with
  | none => exact (s.modLine_id n (LineLive.degrade_false _)).symm
  | some r =>
    dsimp only
    by_cases h : (!r.markers.degraded &&
        (s.constraintDegraded n || (s.station r.walkStation).degraded)) = true
    · rw [if_pos h, h]
      unfold State.markBankDegraded State.modSlot State.modBank
      rw [State.modLine_modLine]
      refine State.modLine_congr s n ?_
      simp [LineLive.degrade, Stoppage.degrade]
    · rw [if_neg h, Bool.eq_false_iff.mpr h]
      exact (s.modLine_id n (LineLive.degrade_false _)).symm

/-- The marker after the test: as it was, or because the constraint or the latest walk result is
degraded. -/
theorem State.degraded_or_newly {s : State} {n : LineId} {r : Stoppage}
    (h : (s.line n).slot = some r) : (r.markers.degraded || s.newlyDegraded n) =
      (r.markers.degraded || (s.constraintDegraded n || (s.station r.walkStation).degraded)) := by
  simp only [State.newlyDegraded, h]
  cases r.markers.degraded <;> simp

/-! ### The ends of stoppages -/

/-- The bank of a line whose candidate ends at `t` as a micro-stop. -/
def Bank.endMicro (b : Bank) (t : Nat) : Bank :=
  ((b.book t).transfer .n .m ((b.book t).time .n)).modCounts fun c =>
    { c with micro := saturate (c.micro + 1) }

theorem State.endMicro_eq {s : State} {n : LineId} {r : Stoppage} (h : (s.line n).slot = some r)
    (t : Nat) : s.endMicro n t = (s.modLine n fun l =>
      { l with slot := none, bank := l.bank.map fun b => b.endMicro t }).creditRoots true
        (r.contributorsAt t) := by
  unfold State.endMicro
  simp only [h]
  rfl

theorem State.line_creditRoots (s : State) (micro : Bool) (cs : List Contributor) (n : LineId) :
    (s.creditRoots micro cs).line n = s.line n :=
  congrArg (fun v => Tab.get v n) (s.lines_creditRoots micro cs)

theorem State.line_journalEnter (s : State) (r : JournalRecord) (n : LineId) :
    (s.journalEnter r).line n = s.line n :=
  congrArg (fun v => Tab.get v n) (s.lines_journalEnter r)

theorem State.line_endMicro {s : State} {n : LineId} {r : Stoppage} (h : (s.line n).slot = some r)
    (t : Nat) : (s.endMicro n t).line n =
      { s.line n with slot := none, bank := (s.line n).bank.map fun b => b.endMicro t } := by
  rw [State.endMicro_eq h, State.line_creditRoots, State.line_modLine_same]

theorem State.line_closeRecord {s : State} {n : LineId} {r : Stoppage} {m : Nat}
    (h : (s.line n).openRecord = some (r, m)) (kind : CloseKind) (t : Nat) :
    (s.closeRecord n kind t).line n = { s.line n with slot := none } := by
  rw [State.closeRecord_eq h, State.line_modLine_same, State.line_creditRoots,
    State.line_journalEnter]

@[simp] theorem Bank.endMicro_counts (b : Bank) (t : Nat) :
    (b.endMicro t).counts = { b.counts with micro := min (b.counts.micro + 1) 4294967295 } := rfl

@[simp] theorem Bank.endMicro_segStart (b : Bank) (t : Nat) : (b.endMicro t).segStart = t := rfl

@[simp] theorem Bank.endMicro_openCount (b : Bank) (t : Nat) :
    (b.endMicro t).openCount = b.openCount := rfl

@[simp] theorem Bank.endMicro_runStart (b : Bank) (t : Nat) :
    (b.endMicro t).runStart = b.runStart := rfl

@[simp] theorem Bank.endMicro_booked (b : Bank) (t : Nat) :
    (b.endMicro t).booked = b.booked + (t - b.segStart) :=
  (Bank.booked_transfer (b.book t) _ _ _).trans (Bank.booked_book b t)

theorem Bank.endMicro_microStopped (b : Bank) (t : Nat) :
    (b.book t).MicroStopped (b.endMicro t) := Bank.microStopped_transfer (b.book t)

/-- Buckets that hold the same after a micro-stop hold it alike. -/
theorem Bank.MicroStopped.congr {b b1 b2 : Bank} (h : b.MicroStopped b1)
    (ht : ∀ y, b2.time y = b1.time y) : b.MicroStopped b2 := by
  simpa only [Bank.MicroStopped, ht] using h

theorem LineLive.openRecord_of_record {l : LineLive} {r : Stoppage} {m : Nat}
    (h : l.slot = some r) (hk : r.kind = .record m) : l.openRecord = some (r, m) := by
  simp only [LineLive.openRecord, h, hk]

end Sys2Proof.Machine

/-! Rates, thresholds and plans of a line: SET-RATE (R88), SET-LINE-TIMERS and THRESHOLD-EXPIRY (R76,
R89), PLAN-OVERRUN (R86), and PLAN-BEGIN (R85). -/

namespace Sys2Proof.Machine

/-! ### SET-RATE -/

section SetRate

variable {s : State} {n : LineId} {line : Byte} {rate : BitVec 32}

theorem exec_setRate_done (h : s.Takes .setRate) (hl : line.toNat = n.val) (hr : rate ≠ 0) :
    exec (.setRate line rate) s = .next ((s.setRate n (min 150000 rate.toNat)).owe
      (some ⟨0xC3, line :: field 4 (min 150000 rate.toNat)⟩)) := by
  have hpos : 0 < rate.toNat := Nat.pos_of_ne_zero fun hz => hr (BitVec.eq_of_toNat_eq hz)
  have hclamp : clamp 1 150000 rate.toNat = min 150000 rate.toNat := by unfold clamp; omega
  refine congrArg Host.Outcome.next ((h.done (above_none (lineByte_le hl))
    (refuseIf_eq_none (decide_eq_false hr) _ _) _).trans ?_)
  rw [hclamp, lineOfByte_eq hl]
  rfl

theorem exec_setRate_zero (h : s.Takes .setRate) (hl : line.toNat = n.val) (hr : rate = 0) :
    exec (.setRate line rate) s = .next (s.owe (some ⟨0xFF, [0x43, 0x03, 0]⟩)) :=
  congrArg Host.Outcome.next (h.refused (r := ⟨.outOfRange, 0⟩)
    (refusal := fun _ => refuseIf (rate = 0) .outOfRange 0) (above_none (lineByte_le hl))
    (refuseIf_eq_some (decide_eq_true hr) _ _) _)

end SetRate

/-- Settles O47: a running segment is credited at the old rate. -/
theorem ratesAreTaken : Obligations.RatesAreTaken := by
  intro s n line rate taken reply h hl htaken hreply
  subst htaken hreply
  refine ⟨exec_setRate_zero h hl, fun hr hst => ?other, fun b old a total hr hst hb hold ha htotal =>
    ?running⟩
  case other =>
    rw [exec_setRate_done h hl hr, State.setRate]
    simp only [if_neg hst]
  case running =>
    have hrate : s.rate n = old := by rw [State.rate, hold]; rfl
    have hmod : s.modBank n (fun b => { b.credit s.now (s.rate n) with runStart := some s.now }) =
        s.modLine n fun l => { l with
          bank := some { b with
            counts := { b.counts with
              ideal := b.counts.ideal + total / 360000
              remainder := total % 360000 }
            runStart := some s.clock.count } } := by
      refine State.modLine_congr s n ?_
      have hcredit : b.credit s.now old = { b with
          counts := { b.counts with
            ideal := b.counts.ideal + total / 360000
            remainder := total % 360000 }
          runStart := none } := by
        unfold Bank.credit
        rw [ha, htotal]
        rfl
      simp only [hb, Option.map_some, hrate, hcredit]
      rfl
    rw [exec_setRate_done h hl hr, State.setRate]
    simp only [if_pos hst, hmod]

/-! ### The threshold -/

theorem State.line_promote {s : State} {n : LineId} {r : Stoppage} (h : (s.line n).slot = some r)
    (t : Nat) : (s.promote n t).line n =
      ((s.line n).promote r t).enter .down (s.hallAt t) t (s.rate n) := by
  rw [State.promote_eq h, State.line_modLine_same]

/-- What a promotion leaves of a line (R76, R121): the record in the slot, and the bank whose
candidate's time has moved to the categories. -/
theorem LineLive.promote_enter (l : LineLive) (r : Stoppage) (stamp t rate : Nat) :
    (l.promote r t).enter .down stamp t rate = { l with
      state := .down
      stamp := stamp
      slot := some { r with kind := .record l.nextNumber }
      nextNumber := l.nextNumber + 1
      bank := l.bank.map fun b =>
        (b.promote t (r.contributorsAt t)).enter .down t rate (.cat r.lastCategory) } := by
  unfold LineLive.enter LineLive.promote
  simp only [Option.map_map]
  rfl

theorem Bank.promoted_promote (b : Bank) (t rate : Nat) (st : LineState) (k : Bucket)
    (cs : List Contributor) :
    (b.book t).Promoted ((b.promote t cs).enter st t rate k) cs := by
  refine (Bank.promoted_promoteTimes (b.book t) cs).congr fun y => ?_
  rw [Bank.time_enter, Bank.time_book_of_segStart (Bank.promote_segStart b t cs)]
  rfl

theorem exec_setLineTimers {s : State} {n : LineId} {line : Byte}
    {threshold lookback deadline : BitVec 16} (h : s.Takes .setLineTimers)
    (hl : line.toNat = n.val) :
    exec (.setLineTimers line threshold lookback deadline) s = .next
      (((s.modLineDef n fun d => { d with
          threshold := min 600 threshold.toNat
          lookback := min 3600 lookback.toNat
          deadline := min 7200 deadline.toNat }).newThreshold n
            (min 600 threshold.toNat * 100)).owe
        (some ⟨0xA6, line :: (field 2 (min 600 threshold.toNat) ++
          field 2 (min 3600 lookback.toNat) ++ field 2 (min 7200 deadline.toNat))⟩)) := by
  have hclamp : ∀ top x : Nat, clamp 0 top x = min top x := fun top x => by
    unfold clamp; omega
  refine congrArg Host.Outcome.next
    ((h.done (refusal := accepted) (above_none (lineByte_le hl)) rfl _).trans ?_)
  simp only [hclamp, lineOfByte_eq hl]
  rfl

theorem State.newThreshold_of_no_candidate {s : State} {n : LineId}
    (h : ∀ r e, (s.line n).slot = some r → r.kind ≠ .candidate e) (threshold : Nat) :
    s.newThreshold n threshold = s := by
  unfold State.newThreshold
  cases hr : (s.line n).slot with
  | none => rfl
  | some r =>
    cases hk : r.kind with
    | record m => simp only [hk]
    | candidate e => exact absurd hk (h r e hr)

theorem State.newThreshold_candidate {s : State} {n : LineId} {r : Stoppage} {e : Nat}
    (hr : (s.line n).slot = some r) (hk : r.kind = .candidate e) (threshold : Nat) :
    s.newThreshold n threshold = if threshold ≤ s.now - r.startCount then s.promote n s.now
      else s.modLine n fun l => { l with
        slot := some { r with kind := .candidate (r.startCount + threshold) } } := by
  unfold State.newThreshold
  simp only [hr, hk]
  split
  · rfl
  · refine State.modLine_congr s n ?_
    simp only [hr, Option.map_some]

theorem exec_thresholdExpiry {s : State} {n : LineId} {r : Stoppage} {e : Nat}
    (hrun : s.power.running = true) (hr : (s.line n).slot = some r) (hk : r.kind = .candidate e) :
    exec (.thresholdExpiry n) s = .next (if e ≤ s.clock.count then s.promote n s.now else s) := by
  have hdue : s.thresholdDue n = decide (e ≤ s.clock.count) := by
    simp only [State.thresholdDue, hr, hk]
    rfl
  have hexec : exec (.thresholdExpiry n) s =
    .next (if s.power.running && s.thresholdDue n then s.promote n s.now else s) := rfl
  rw [hexec, hdue, hrun, Bool.true_and]
  simp only [decide_eq_true_eq]

/-- Settles O48: the threshold of a candidate moves, or has passed and promotes it. -/
theorem candidatesMeetTheirThreshold : Obligations.CandidatesMeetTheirThreshold := by
  intro s n
  refine ⟨fun line threshold lookback deadline limit set reply h hl hlimit hset hreply =>
    ⟨fun hnone => ?untouched, fun r e hr hk => ⟨fun hbefore => ?moved, fun hpast => ?passed⟩⟩,
    fun r e b hrun hr hk hb => ⟨fun hbefore => ?early, fun hpast => ?expired⟩⟩
  case untouched =>
    subst hlimit hset hreply
    rw [exec_setLineTimers h hl, State.newThreshold_of_no_candidate]
    exact hnone
  case moved =>
    have hline : (set.line n).slot = some r := by rw [hset]; exact hr
    have hnow : ¬ limit * 100 ≤ set.now - r.startCount := by rw [hset]; exact not_le.mpr hbefore
    have hexec := exec_setLineTimers (threshold := threshold) (lookback := lookback)
      (deadline := deadline) h hl
    rw [← hlimit, ← hset, ← hreply, State.newThreshold_candidate hline hk, if_neg hnow] at hexec
    exact hexec
  case passed =>
    have hline : set.line n = s.line n := by rw [hset]; rfl
    have hslot : (set.line n).slot = some r := by rw [hline]; exact hr
    have hsetnow : set.now = s.clock.count := by rw [hset]; rfl
    have hnow : limit * 100 ≤ set.now - r.startCount := by rw [hsetnow]; exact hpast
    have hexec := exec_setLineTimers (threshold := threshold) (lookback := lookback)
      (deadline := deadline) h hl
    rw [← hlimit, ← hset, ← hreply, State.newThreshold_candidate hslot hk, if_pos hnow] at hexec
    refine ⟨_, hexec, ?_⟩
    rw [State.line_owe, State.line_promote hslot, LineLive.promote_enter, hline, hsetnow,
      State.owe_settings]
    refine ⟨rfl, rfl, fun b hb => ⟨_, by rw [hb]; rfl, Bank.promoted_promote b _ _ _ _ _⟩, ?_⟩
    rw [State.promote_eq hslot]
    rfl
  case early => rw [exec_thresholdExpiry hrun hr hk, if_neg (not_le.mpr hbefore)]
  case expired =>
    have hline : (s.promote n s.now).line n = _ :=
      (State.line_promote hr s.now).trans (LineLive.promote_enter _ r _ _ _)
    refine ⟨s.promote n s.now, (b.promote s.now (r.contributorsAt s.now)).enter .down s.now
      (s.rate n) (.cat r.lastCategory), ?_, ?_⟩
    · rw [exec_thresholdExpiry hrun hr hk, if_pos hpast]
    · have hcounts := Bank.counts_credit_rest (b.promote s.now (r.contributorsAt s.now)) s.now
        (s.rate n)
      rw [hline, Bank.counts_enter, hcounts, Bank.promote_counts]
      refine ⟨rfl, rfl, rfl, rfl, ?_, rfl, rfl, rfl, rfl, ?_, Bank.promoted_promote b _ _ _ _ _,
        Bank.booking_enter _ _ _ _ _, (State.OnlyLine.promote s n s.now).others, ?_⟩
      · rw [hb]; rfl
      · rw [Bank.booked_enter, Bank.promote_booked, Bank.promote_segStart, Nat.sub_self,
          Nat.add_zero]
        rfl
      · rw [State.promote_eq hr]
        rfl

end Sys2Proof.Machine

/-! A line that is evaluated (R73 to R75, R119): it runs, waits for its constraint, or opens a candidate
attributed by the walk, which a threshold of 0 promotes at once; and the ends of plans (R86, R87). -/

namespace Sys2Proof.Machine

/-! ### The candidate that opens -/

/-- The stoppage that a line opens (R74). -/
def State.candidate (s : State) (n : LineId) : Stoppage :=
  { kind := .candidate (s.now + (s.lineDef n).threshold * 100)
    startStamp := s.hall
    startCount := s.now
    entryState := s.constraintState n
    serial := (s.line n).serial
    operatorCause := none
    markers := RecordMarkers.clear
    contributors := [s.newContributor (s.walk n)]
    lastSince := s.now
    walkStation := (s.walk n).1 }

/-- Whether the stoppage that a line opens is degraded from its beginning (R84). -/
def State.opensDegraded (s : State) (n : LineId) : Bool :=
  s.constraintDegraded n || (s.station (s.walk n).1).degraded

/-- The record of a line that enters PENDING-STOP with its candidate. -/
def State.pendingLine (s : State) (n : LineId) (l : LineLive) : LineLive :=
  (LineLive.enter { l with slot := some (s.candidate n) } .pendingStop s.hall s.now
    (s.rate n)).degrade (s.opensDegraded n)

/-- The record of a line that opens a candidate, promoted at once with a threshold of 0 (R76). -/
def State.stopLine (s : State) (n : LineId) (l : LineLive) : LineLive :=
  if (s.lineDef n).threshold = 0 then
    ((s.pendingLine n l).promote ((s.candidate n).degrade (s.opensDegraded n)) s.now).enter .down
      s.hall s.now (s.rate n)
  else s.pendingLine n l

theorem State.openCandidate_eq (s : State) (n : LineId) :
    s.openCandidate n = s.modLine n (s.stopLine n) := by
  have hpending : ((s.modLine n fun l => { l with slot := some (s.candidate n) }).enterLine n
      .pendingStop s.now).testDegraded n = s.modLine n (s.pendingLine n) := by
    rw [State.enterLine_eq, State.modLine_modLine, State.testDegraded_eq, State.modLine_modLine]
    refine State.modLine_congr s n ?_
    have hnewly : (s.modLine n fun l => LineLive.enter { l with slot := some (s.candidate n) }
        .pendingStop s.hall s.now (s.rate n)).newlyDegraded n = s.opensDegraded n := by
      unfold State.newlyDegraded
      rw [State.line_modLine_same]
      rfl
    exact congrArg (LineLive.degrade _) hnewly
  have hopen : s.openCandidate n =
      if (s.lineDef n).threshold * 100 = 0 then (s.modLine n (s.pendingLine n)).promote n s.now
      else s.modLine n (s.pendingLine n) := by
    unfold State.openCandidate
    extract_lets w threshold r u v
    have hu : u = s.modLine n fun l => { l with slot := some (s.candidate n) } := rfl
    have hv : v = s.modLine n (s.pendingLine n) := by
      have hnow : u.now = s.now := by rw [hu, State.now_modLine]
      rw [← hpending, ← hu, ← hnow]
    have hnow : v.now = s.now := by rw [hv, State.now_modLine]
    rw [hnow, hv]
  rw [hopen]
  by_cases hz : (s.lineDef n).threshold = 0
  · have hslot : ((s.modLine n (s.pendingLine n)).line n).slot =
        some ((s.candidate n).degrade (s.opensDegraded n)) := by
      rw [State.line_modLine_same]
      rfl
    rw [if_pos (by rw [hz]), State.promote_eq hslot, State.modLine_modLine]
    refine State.modLine_congr s n ?_
    rw [State.stopLine, if_pos hz]
    rfl
  · rw [if_neg (by omega)]
    refine State.modLine_congr s n ?_
    rw [State.stopLine, if_neg hz]

theorem State.line_openCandidate (s : State) (n : LineId) :
    (s.openCandidate n).line n = s.stopLine n (s.line n) := by
  rw [State.openCandidate_eq, State.line_modLine_same]

/-! ### The bank of a line that enters a state -/

/-- The bank `b'` of a line whose bank was `b` when it entered a state at `t`: the segment is booked and
credited, and the bank books in `k` from there (R118, R119, R131). -/
structure Bank.Enters (b b' : Bank) (rate t : Nat) (k : Bucket) (run : Option Nat)
    (stoppages : Nat) : Prop where
  times : ∀ y, b'.time y = (b.book t).time y
  booking : b'.booking = k
  runStart : b'.runStart = run
  segStart : b'.segStart = t
  openCount : b'.openCount = b.openCount
  countNoisy : b'.countNoisy = b.countNoisy
  counts : b'.counts = { (b.credit t rate).counts with stoppage := stoppages }

namespace Bank.Enters

variable {b b' : Bank} {rate t stoppages : Nat} {k : Bucket} {run : Option Nat}

theorem enter (b : Bank) (st : LineState) (t rate : Nat) (k : Bucket) :
    b.Enters (b.enter st t rate k) rate t k (if st = .running then some t else none)
      b.counts.stoppage where
  times := fun y => Bank.time_enter b st t rate k y
  booking := Bank.booking_enter b st t rate k
  runStart := Bank.runStart_enter b st t rate k
  segStart := Bank.segStart_enter b st t rate k
  openCount := Bank.openCount_enter b st t rate k
  countNoisy := Bank.countNoisy_enter b st t rate k
  counts := by
    rw [Bank.counts_enter, Bank.counts_credit_rest]

theorem degraded (h : b.Enters b' rate t k run stoppages) (d : Bool) :
    b.Enters { b' with degraded := d } rate t k run stoppages := { h with }

/-- A promotion with no time in the contributors only counts the stoppage and books on. -/
theorem promoted (h : b.Enters b' rate t k none stoppages) {c : Contributor} (hc : c.duration = 0)
    (cat : Category) :
    b.Enters ((b'.promote t [c]).enter .down t rate (.cat cat)) rate t (.cat cat) none
      (min (stoppages + 1) 4294967295) where
  times := fun y => by
    have hmove : ((b'.book t).transfer .n (.cat c.category) 0).time y = (b'.book t).time y := by
      have hz : (b'.book t).transfer .n (.cat c.category) 0 = b'.book t := by
        have hid : ∀ (v : Vector Nat 16) (i : Fin 16), Tab.modify v i (· + 0) = v := fun v i => by
          exact Tab.set_get v i
        have hid' : ∀ (v : Vector Nat 16) (i : Fin 16), Tab.modify v i (· - 0) = v := fun v i => by
          exact Tab.set_get v i
        unfold Bank.transfer
        simp only [Nat.zero_min, hid, hid']
      rw [hz]
    have hpromote : (b'.promote t [c]).time y =
        ((b'.book t).transfer .n (.cat c.category) c.duration).time y := rfl
    rw [Bank.time_enter, Bank.time_book_of_segStart (Bank.promote_segStart _ _ _), hpromote, hc,
      hmove, Bank.time_book_of_segStart h.segStart, h.times]
  booking := Bank.booking_enter _ _ _ _ _
  runStart := Bank.runStart_enter _ _ _ _ _
  segStart := Bank.segStart_enter _ _ _ _ _
  openCount := by rw [Bank.openCount_enter, Bank.promote_openCount, h.openCount]
  countNoisy := by
    rw [Bank.countNoisy_enter, Bank.promote_rest]
    exact h.countNoisy
  counts := by
    have hrun : (b'.promote t [c]).runStart = none := by
      rw [Bank.promote_rest]; exact h.runStart
    rw [Bank.counts_enter, Bank.counts_credit_none hrun, Bank.promote_counts, h.counts]

theorem booked (h : b.Enters b' rate t k run stoppages) :
    b'.booked = b.booked + (t - b.segStart) := by
  have htimes : b'.times = (b.book t).times := Tab.ext fun i => by
    have hall : ∀ j : Fin 16, ∃ y : Bucket, y.index = j := by
      intro j
      have hcodes : ∀ j : Fin 16, ∃ y ∈ [Bucket.u, .n, .m, .o, .x] ++ Category.all.map Bucket.cat,
          y.index = j := by decide
      obtain ⟨y, -, hy⟩ := hcodes j
      exact ⟨y, hy⟩
    obtain ⟨y, rfl⟩ := hall i
    exact h.times y
  unfold Bank.booked
  rw [htimes]
  exact Bank.booked_book b t

theorem runCredited {rate : Option Nat} (h : b.Enters b' (rate.getD 0) t k run stoppages) :
    b.RunCredited b' rate t :=
  Bank.runCredited_of_credit (by rw [h.counts]) (by rw [h.counts])

theorem plainCounts (h : b.Enters b' rate t k run stoppages) : b'.counts = { b.counts with
    ideal := b'.counts.ideal, remainder := b'.counts.remainder, stoppage := stoppages } := by
  rw [h.counts, Bank.counts_credit_rest]

end Bank.Enters

/-! ### What an opening leaves -/

section Opening

variable (s : State) (n : LineId) (l : LineLive)

theorem State.stopLine_state : (s.stopLine n l).state =
    if (s.lineDef n).threshold = 0 then .down else .pendingStop := by
  unfold State.stopLine
  split <;> rfl

theorem State.stopLine_slot : (s.stopLine n l).slot = some { s.candidate n with
    kind := if (s.lineDef n).threshold = 0 then .record l.nextNumber
      else .candidate (s.now + (s.lineDef n).threshold * 100)
    markers := { RecordMarkers.clear with degraded := s.opensDegraded n } } := by
  unfold State.stopLine
  split <;> rfl

/-- What an opening does not touch. -/
theorem State.stopLine_rest : s.stopLine n l = { l with
    state := (s.stopLine n l).state
    stamp := s.hall
    slot := (s.stopLine n l).slot
    nextNumber := if (s.lineDef n).threshold = 0 then l.nextNumber + 1 else l.nextNumber
    bank := (s.stopLine n l).bank } := by
  unfold State.stopLine
  split <;> rfl

theorem State.stopLine_bank {b : Bank} (h : l.bank = some b) : ∃ b',
    (s.stopLine n l).bank = some b' ∧ b.Enters b' (s.rate n) s.now
      (if (s.lineDef n).threshold = 0 then
        .cat (contributorCategory s.settings (s.walk n).2) else .n) none
      (if (s.lineDef n).threshold = 0 then min (b.counts.stoppage + 1) 4294967295
        else b.counts.stoppage) := by
  have hpending : (s.pendingLine n l).bank = some { b.enter .pendingStop s.now (s.rate n) .n with
      degraded := (b.enter .pendingStop s.now (s.rate n) .n).degraded || s.opensDegraded n } := by
    unfold State.pendingLine LineLive.enter LineLive.degrade
    rw [h]
    rfl
  have henters := (Bank.Enters.enter b .pendingStop s.now (s.rate n) .n).degraded
    ((b.enter .pendingStop s.now (s.rate n) .n).degraded || s.opensDegraded n)
  by_cases hz : (s.lineDef n).threshold = 0
  · rw [State.stopLine, if_pos hz, if_pos hz, if_pos hz, LineLive.promote_enter, hpending]
    exact ⟨_, rfl, henters.promoted
      (c := { s.newContributor (s.walk n) with duration := s.now - s.now }) (Nat.sub_self _)
      (contributorCategory s.settings (s.walk n).2)⟩
  · rw [State.stopLine, if_neg hz, if_neg hz, if_neg hz]
    exact ⟨_, hpending, henters⟩

end Opening

/-! ### Evaluation -/

theorem State.evaluate_running {s : State} {n : LineId} (h : s.constraintState n = .running) :
    s.evaluate n = s.modLine n fun l => l.enter .running s.hall s.now (s.rate n) := by
  unfold State.evaluate
  rw [h]
  exact State.enterLine_eq s n _ _

theorem State.evaluate_unmonitored {s : State} {n : LineId}
    (h : s.constraintState n = .unmonitored) :
    s.evaluate n = s.modLine n fun l => l.enter .resuming s.hall s.now (s.rate n) := by
  unfold State.evaluate
  rw [h]
  exact State.enterLine_eq s n _ _

theorem State.evaluate_stopped {s : State} {n : LineId} (hr : s.constraintState n ≠ .running)
    (hu : s.constraintState n ≠ .unmonitored) :
    s.evaluate n = s.modLine n (s.stopLine n) := by
  rw [← State.openCandidate_eq]
  unfold State.evaluate
  cases h : s.constraintState n with
  | running => exact absurd h hr
  | unmonitored => exact absurd h hu
  | _ => rfl

/-- The record of a line that is evaluated. -/
def State.evaluated (s : State) (n : LineId) (l : LineLive) : LineLive :=
  match s.constraintState n with
  | .running => l.enter .running s.hall s.now (s.rate n)
  | .unmonitored => l.enter .resuming s.hall s.now (s.rate n)
  | .stalled | .faulted | .halted | .blocked | .starved => s.stopLine n l

theorem State.evaluate_eq (s : State) (n : LineId) :
    s.evaluate n = s.modLine n (s.evaluated n) := by
  by_cases hr : s.constraintState n = .running
  · rw [State.evaluate_running hr]
    exact State.modLine_congr s n (by simp only [State.evaluated, hr])
  by_cases hu : s.constraintState n = .unmonitored
  · rw [State.evaluate_unmonitored hu]
    exact State.modLine_congr s n (by simp only [State.evaluated, hu])
  rw [State.evaluate_stopped hr hu]
  refine State.modLine_congr s n ?_
  unfold State.evaluated
  cases h : s.constraintState n with
  | running => exact absurd h hr
  | unmonitored => exact absurd h hu
  | _ => rfl

theorem State.evaluated_running {s : State} {n : LineId} (h : s.constraintState n = .running)
    (l : LineLive) : s.evaluated n l = l.enter .running s.hall s.now (s.rate n) := by
  simp only [State.evaluated, h]

theorem State.evaluated_unmonitored {s : State} {n : LineId}
    (h : s.constraintState n = .unmonitored) (l : LineLive) :
    s.evaluated n l = l.enter .resuming s.hall s.now (s.rate n) := by
  simp only [State.evaluated, h]

theorem State.evaluated_stopped {s : State} {n : LineId} (hr : s.constraintState n ≠ .running)
    (hu : s.constraintState n ≠ .unmonitored) (l : LineLive) :
    s.evaluated n l = s.stopLine n l := by
  unfold State.evaluated
  cases h : s.constraintState n with
  | running => exact absurd h hr
  | unmonitored => exact absurd h hu
  | _ => rfl

/-- The bucket and the running segment that a line enters with (R119, R131). -/
def State.bookingAfter (s : State) (n : LineId) (st : LineState) : Bucket :=
  match st with
  | .running => .u
  | .pendingStop => .n
  | .down => .cat (contributorCategory s.settings (s.walk n).2)
  | .planned | .resuming | .outOfService => .x

theorem State.evaluated_bank {s : State} {n : LineId} {l : LineLive} {b : Bank}
    (h : l.bank = some b) : ∃ b', (s.evaluated n l).bank = some b' ∧
      b.Enters b' (s.rate n) s.now (s.bookingAfter n (s.evaluated n l).state)
        (if (s.evaluated n l).state = .running then some s.now else none)
        (if (s.evaluated n l).state = .down then min (b.counts.stoppage + 1) 4294967295
          else b.counts.stoppage) := by
  by_cases hr : s.constraintState n = .running
  · rw [State.evaluated_running hr]
    exact ⟨_, by rw [LineLive.enter, h]; rfl, Bank.Enters.enter b .running s.now (s.rate n) .u⟩
  by_cases hu : s.constraintState n = .unmonitored
  · rw [State.evaluated_unmonitored hu]
    exact ⟨_, by rw [LineLive.enter, h]; rfl, Bank.Enters.enter b .resuming s.now (s.rate n) .x⟩
  rw [State.evaluated_stopped hr hu]
  obtain ⟨b', hb', henters⟩ := s.stopLine_bank n l h
  refine ⟨b', hb', ?_⟩
  rw [State.stopLine_state]
  by_cases hz : (s.lineDef n).threshold = 0
  · simp only [if_pos hz] at henters ⊢
    exact henters
  · simp only [if_neg hz] at henters ⊢
    exact henters

/-- What an evaluation does not touch. -/
theorem State.evaluated_rest (s : State) (n : LineId) (l : LineLive) : s.evaluated n l = { l with
    state := (s.evaluated n l).state
    stamp := s.hall
    slot := (s.evaluated n l).slot
    nextNumber := (s.evaluated n l).nextNumber
    bank := (s.evaluated n l).bank } := by
  by_cases hr : s.constraintState n = .running
  · rw [State.evaluated_running hr]; rfl
  by_cases hu : s.constraintState n = .unmonitored
  · rw [State.evaluated_unmonitored hu]; rfl
  rw [State.evaluated_stopped hr hu]
  conv_lhs => rw [State.stopLine_rest]
  rw [State.stopLine_rest]

end Sys2Proof.Machine

/-! Records that enter the journal (R97 to R99), PLAN-BEGIN (R85), PLAN-END (R87) and PLAN-OVERRUN
(R86, R123). -/

namespace Sys2Proof.Machine

/-! ### What a closed record leaves -/

theorem State.OnlyStations.creditRoots (s : State) (micro : Bool) (cs : List Contributor) :
    s.OnlyStations (s.creditRoots micro cs) := by
  unfold State.creditRoots
  cases cs with
  | nil => exact .refl s
  | cons c cs =>
    exact (State.OnlyStations.foldl (fun s c => .modStation s c.station _) (c :: cs) s).trans
      (.modStation _ c.station _)

theorem State.CreditedDown.congr {s s' t t' : State} {cs : List Contributor}
    (h : s'.CreditedDown t' cs) (hs : s'.stations = s.stations) (ht : t'.stations = t.stations) :
    s.CreditedDown t cs := by
  intro k y hy
  have hk : (s'.station k).tally = some y := by unfold State.station; rw [hs]; exact hy
  obtain ⟨z, hz, hc⟩ := h k y hk
  exact ⟨z, by unfold State.station at hz ⊢; rw [← ht]; exact hz, hc⟩

theorem State.CreditedMicro.congr {s s' t t' : State} {cs : List Contributor}
    (h : s'.CreditedMicro t' cs) (hs : s'.stations = s.stations) (ht : t'.stations = t.stations) :
    s.CreditedMicro t cs := by
  intro k y hy
  have hk : (s'.station k).tally = some y := by unfold State.station; rw [hs]; exact hy
  obtain ⟨z, hz, hc⟩ := h k y hk
  exact ⟨z, by unfold State.station at hz ⊢; rw [← ht]; exact hz, hc⟩

/-- The state after the entry of a record: the journal, the records lost and the alerts. -/
theorem State.journalEnter_eq (s : State) (r : JournalRecord) : s.journalEnter r = { s with
    journal := (s.journalEnter r).journal
    lost := (s.journalEnter r).lost
    alerts := (s.journalEnter r).alerts } := by
  unfold State.journalEnter
  split <;> rfl

theorem State.journalEnter_latched {s : State} (h : 192 ≤ s.journal.length) (r : JournalRecord) :
    (s.journalEnter r).latched .journalOverflow = true := by
  have halerts : (s.journalEnter r).alerts = s.alerts ||| Alert.bit .journalOverflow := by
    unfold State.journalEnter
    rw [if_pos (show Config.journalCapacity ≤ s.journal.length from h)]
    rfl
  unfold State.latched
  rw [halerts]
  refine decide_eq_true fun hzero => ?_
  have hbit : ((s.alerts ||| Alert.bit .journalOverflow) &&& Alert.bit .journalOverflow) =
      Alert.bit .journalOverflow := by
    ext i hi
    simp only [BitVec.getElem_and, BitVec.getElem_or]
    cases s.alerts[i] <;> cases (Alert.bit .journalOverflow)[i] <;> rfl
  rw [hbit] at hzero
  exact absurd hzero (by decide)

section CloseRecord

variable {s : State} {n : LineId} {r : Stoppage} {m : Nat}

/-- The state after a record closes: its entry in the journal, its credits to the stations, and the
empty slot. -/
theorem State.closeRecord_rest (h : (s.line n).openRecord = some (r, m)) (kind : CloseKind)
    (t : Nat) :
    s.closeRecord n kind t = { s with
      lines := Tab.modify s.lines n fun l => { l with slot := none }
      stations := (s.closeRecord n kind t).stations
      journal := (s.journalEnter (s.closedRecord n r m kind t)).journal
      lost := (s.journalEnter (s.closedRecord n r m kind t)).lost
      alerts := (s.journalEnter (s.closedRecord n r m kind t)).alerts } := by
  rw [State.closeRecord_eq h]
  have hcredit := State.OnlyStations.creditRoots (s.journalEnter (s.closedRecord n r m kind t)) false
    (r.contributorsAt t)
  have henter := State.journalEnter_eq s (s.closedRecord n r m kind t)
  generalize (s.journalEnter (s.closedRecord n r m kind t)).creditRoots false
    (r.contributorsAt t) = v at hcredit ⊢
  generalize s.journalEnter (s.closedRecord n r m kind t) = u at hcredit henter ⊢
  rw [hcredit, henter]
  rfl

theorem State.closeRecord_credited (h : (s.line n).openRecord = some (r, m)) (kind : CloseKind)
    (t : Nat) : s.CreditedDown (s.closeRecord n kind t) (r.contributorsAt t) := by
  rw [State.closeRecord_eq h]
  refine (State.creditedDown (s.journalEnter (s.closedRecord n r m kind t)) _).congr ?_ rfl
  rw [State.journalEnter_eq]

theorem State.closeRecord_journal (h : (s.line n).openRecord = some (r, m)) (kind : CloseKind)
    (t : Nat) : (s.closeRecord n kind t).journal =
      (if s.journal.length < 192 then s.journal else s.journal.tail) ++
        [s.closedRecord n r m kind t] := by
  rw [State.closeRecord_rest h, ← State.journalEnter_journal]

end CloseRecord

/-- Settles O52: what `closeRecord` enters is the closed record, field by field. -/
theorem closedRecordsEnterTheJournal : Obligations.ClosedRecordsEnterTheJournal := by
  intro s n r m t deadline kind hr hk hdeadline
  have hopen : (s.line n).openRecord = some (r, m) := LineLive.openRecord_of_record hr hk
  have hrest := State.closeRecord_rest hopen kind t
  have hstate : (s.closedRecord n r m kind t).state =
    entryRecordState kind r.operatorCause.isSome deadline t s.clock.count := by rw [hdeadline]; rfl
  refine ⟨s.closedRecord n r m kind t, State.closeRecord_journal hopen kind t, rfl, rfl, rfl, rfl,
    rfl, rfl, rfl, rfl, rfl, State.closeRecord_credited hopen kind t, fun hc => ?confirmed,
    fun hc hl => ?lapsed, fun hc ho hl => ?outage, fun hc hd hu => ?unconfirmed, ?lost,
    fun hfull => ?overflow, by rw [State.line_closeRecord hopen],
    (State.OnlyLine.closeRecord s n kind t).others, (State.OnlyLine.closeRecord s n kind t).same.settings⟩
  case confirmed =>
    rw [hstate, Option.isSome_iff_ne_none.mpr hc]; rfl
  case lapsed =>
    rw [hstate, hc]
    obtain rfl | hz := hl
    · rfl
    · cases kind <;> simp [entryRecordState, hz]
  case outage =>
    subst ho
    rw [hstate, hc]
    simp [entryRecordState, hl]
  case unconfirmed =>
    rw [hstate, hc]
    obtain rfl | rfl | ⟨rfl, hlt⟩ := hu
    · simp [entryRecordState, hd]
    · simp [entryRecordState, hd]
    · simp [entryRecordState, hd, hlt]
  case lost => rw [hrest, ← State.journalEnter_lost]
  case overflow =>
    have halerts := State.journalEnter_latched hfull (s.closedRecord n r m kind t)
    rw [hrest]
    exact halerts

/-! ### PLAN-END and PLAN-OVERRUN -/

/-- The walk reads the settings, the counter, and of the stations their states, reported causes and
memories (R77). -/
theorem State.walk_of_judged {s t : State} (hg : t.settings = s.settings)
    (hc : t.clock.count = s.clock.count) (hstate : ∀ k, (t.station k).state = (s.station k).state)
    (hreported : ∀ k, (t.station k).reported = (s.station k).reported)
    (hmemory : ∀ k, (t.station k).memory = (s.station k).memory) (n : LineId) :
    t.walk n = s.walk n := by
  have hcause : ∀ k, (t.station k).currentCause = (s.station k).currentCause := fun k => by
    unfold StationLive.currentCause
    rw [hstate, hreported]
  have hjudge : ∀ (d : Direction) (lookback : Nat) k,
      judge d lookback s.now (t.station k) = judge d lookback s.now (s.station k) :=
    fun d lookback k => by
      unfold judge
      rw [hstate, hmemory, hcause]
  have hon : ∀ (d : Direction) (lookback : Nat) (ks : List StationId) (last : StationId),
      t.walkOn d lookback last ks = s.walkOn d lookback last ks := by
    intro d lookback ks
    induction ks with
    | nil => exact fun _ => rfl
    | cons k rest ih =>
      intro last
      unfold State.walkOn
      rw [show t.now = s.now from hc, hjudge, ih k]
  have hmembers : t.members n = s.members n := by
    unfold State.members State.positionIn State.stationDef
    rw [hg]
  have hdef : t.lineDef n = s.lineDef n := by unfold State.lineDef; rw [hg]
  unfold State.walk
  rw [hdef]
  split
  · unfold State.walkFrom
    simp only [hdef, hmembers, hon, hstate, hcause]
  · rfl

theorem State.walk_congr {s t : State} (hg : t.settings = s.settings)
    (hc : t.clock.count = s.clock.count) (hk : ∀ k, (s.station k).SameButTally (t.station k))
    (n : LineId) : t.walk n = s.walk n :=
  State.walk_of_judged hg hc (fun k => (hk k).state) (fun k => (hk k).reported)
    (fun k => (hk k).memory) n

theorem State.walk_modLine (s : State) (n m : LineId) (f : LineLive → LineLive) :
    (s.modLine n f).walk m = s.walk m :=
  State.walk_congr (s := s) (t := s.modLine n f) rfl rfl (fun _ => .refl _) m

theorem exec_planEnd_refused {s : State} {n : LineId} {line : Byte} (h : s.Takes .planEnd)
    (hl : line.toNat = n.val) (hst : (s.line n).state ≠ .planned) :
    exec (.planEnd line) s =
      .next (s.owe (some ⟨0xFF, [0x45, 0x0B, (s.line n).state.code]⟩)) := by
  have hr : planEndRefusal line s = some ⟨.state, (s.line n).state.code⟩ := by
    rw [planEndRefusal, lineOfByte_eq hl]
    exact refuseIf_eq_some (decide_eq_true hst) _ _
  exact congrArg Host.Outcome.next (h.refused (above_none (lineByte_le hl)) hr _)

theorem exec_planEnd_done {s : State} {n : LineId} {line : Byte} {p : Plan} (h : s.Takes .planEnd)
    (hl : line.toNat = n.val) (hst : (s.line n).state = .planned) (hp : (s.line n).plan = some p) :
    exec (.planEnd line) s = .next ((s.endPlan n).owe (some ⟨0xC5, line ::
      (p.bytes s.clock.count ++ [((s.endPlan n).line n).state.code])⟩)) := by
  have hr : planEndRefusal line s = none := by
    rw [planEndRefusal, lineOfByte_eq hl]
    exact refuseIf_eq_none (decide_eq_false (not_not_intro hst)) _ _
  refine congrArg Host.Outcome.next ((h.done (above_none (lineByte_le hl)) hr _).trans ?_)
  simp only [lineOfByte_eq hl, hp]
  rfl

theorem exec_planOverrun {s : State} {n : LineId} {p : Plan} {limit : Nat}
    (hrun : s.power.running = true) (hp : (s.line n).plan = some p) (ho : p.overrun = false)
    (he : p.expected = some limit) : exec (.planOverrun n) s =
      .next (if limit * 100 ≤ p.elapsedAt s.clock.count then s.overrun n else s) := by
  have hdue : s.overrunDue n = decide (limit * 100 ≤ p.elapsedAt s.clock.count) := by
    simp only [State.overrunDue, hp, he, ho]
    rfl
  have hexec : exec (.planOverrun n) s =
    .next (if s.power.running && s.overrunDue n then s.overrun n else s) := rfl
  rw [hexec, hdue, hrun, Bool.true_and]
  simp only [decide_eq_true_eq]

/-- Settles O51: the plan ends and the line is evaluated, and an overrun books O. -/
theorem plansOverrunAndEnd : Obligations.PlansOverrunAndEnd := by
  refine fun s n => ⟨fun line h hl => ⟨exec_planEnd_refused h hl, fun p hst hp => ?ended⟩,
    fun p b limit hrun hst hp hb ho he => ⟨fun hbefore => ?early, fun hpast => ?overrun⟩⟩
  case early => rw [exec_planOverrun hrun hp ho he, if_neg (not_le.mpr hbefore)]
  case overrun =>
    rw [exec_planOverrun hrun hp ho he, if_pos hpast]
    refine congrArg Host.Outcome.next ?_
    unfold State.overrun State.rebook
    rw [State.modLine_modLine]
    refine State.modLine_congr s n ?_
    simp only [hp, hb, Option.map_some]
    unfold LineLive.bucket
    simp only [hst]
    rfl
  case ended =>
    have hend : s.endPlan n = (s.modLine n fun l => { l with plan := none }).evaluate n := rfl
    have hexec := exec_planEnd_done h hl hst hp
    obtain ⟨a, ha⟩ : ∃ a, a = s.modLine n fun l => { l with plan := none } := ⟨_, rfl⟩
    have hline : a.line n = { s.line n with plan := none } := by rw [ha, State.line_modLine_same]
    have hcon : a.constraintState n = s.constraintState n := by
      rw [ha, State.constraintState_modLine]
    have hhall : a.hall = s.hall := by rw [ha, State.hall_modLine]
    have hnow : a.now = s.clock.count := by rw [ha]; rfl
    have hwalk : a.walk n = s.walk n := by rw [ha, State.walk_modLine]
    have hset : a.settings = s.settings := by rw [ha]; rfl
    have hdef : a.lineDef n = s.lineDef n := by rw [ha]; rfl
    have htline : (s.endPlan n).line n = a.evaluated n { s.line n with plan := none } := by
      rw [hend, ← ha, State.evaluate_eq, State.line_modLine_same, hline]
    have htrest : s.endPlan n = { s with lines := (s.endPlan n).lines } := by
      rw [hend, State.evaluate_eq]; rfl
    have hothers : ∀ m, m ≠ n → (s.endPlan n).line m = s.line m := fun m hm => by
      rw [hend, State.evaluate_eq, State.line_modLine_ne _ hm, State.line_modLine_ne _ hm]
    generalize s.endPlan n = t at *
    refine ⟨_, hexec, ?_⟩
    rw [State.line_owe, htline]
    refine ⟨by rw [State.evaluated_rest], by rw [State.evaluated_rest]; exact hhall,
      fun hr => ?running, fun hu => ?resuming, fun hr hu => ?stopped, fun b hb => ?bank,
      fun m hm => (State.line_owe t _ m).trans (hothers m hm), ?rest, ?link⟩
    case running => rw [State.evaluated_running (hcon.trans hr)]; rfl
    case resuming => rw [State.evaluated_unmonitored (hcon.trans hu)]; rfl
    case stopped =>
      rw [State.evaluated_stopped (hcon ▸ hr) (hcon ▸ hu), State.stopLine_state,
        State.stopLine_slot, hdef]
      refine ⟨rfl, _, rfl, hnow, ?_⟩
      have hcs : (a.candidate n).contributors = [a.newContributor (a.walk n)] := rfl
      rw [hcs, hwalk, State.newContributor, hset]
    case bank =>
      obtain ⟨b', hb', henters⟩ := State.evaluated_bank (s := a) (n := n)
        (l := { s.line n with plan := none }) hb
      generalize a.evaluated n { s.line n with plan := none } = l at hb' henters ⊢
      have hcounts := henters.plainCounts
      refine ⟨b', hb', henters.segStart.trans hnow, fun k => hnow ▸ henters.times k,
        by rw [hcounts], by rw [hcounts], by rw [hcounts], by rw [hcounts], by rw [hcounts],
        fun hst => ?_, fun hst => ?_, fun hst => ?_, fun hst => ?_⟩
      · rw [hst] at henters
        exact ⟨henters.booking, by rw [henters.runStart, hnow]; rfl⟩
      · rw [hst] at henters
        exact ⟨henters.booking, henters.runStart⟩
      · rw [hst] at henters
        exact ⟨henters.booking, henters.runStart⟩
      · rw [hst] at henters
        refine ⟨henters.runStart, ?_, by rw [henters.counts, if_pos rfl]⟩
        rw [henters.booking, State.bookingAfter, hwalk, hset]
    case rest =>
      rw [htrest]
      rfl
    case link =>
      rw [State.owe_link, htrest]

end Sys2Proof.Machine

/-! PLAN-BEGIN (R85): the stoppage in the slot ends, and the line enters PLANNED. -/

namespace Sys2Proof.Machine

theorem planCategory_of_planned {g : Settings} {code : CauseCode} {c : Category}
    {scope : Option StationId} (h : hostEntry g code = some ⟨c, scope⟩) (hc : c.planned = true) :
    planCategory g code = some c := by
  simp only [planCategory, h, hc, if_true]

theorem planCategory_none {g : Settings} {code : CauseCode}
    (h : ∀ c scope, hostEntry g code = some ⟨c, scope⟩ → c.planned = false) :
    planCategory g code = none := by
  unfold planCategory
  split
  next e he => rw [if_neg (by rw [h e.category e.scope he]; exact Bool.false_ne_true)]
  next => rfl

theorem State.notInService_none {s : State} {n : LineId} {line : Byte} (hl : line.toNat = n.val)
    (h : s.inService n = true) : s.notInService line = none := by
  rw [State.notInService, lineOfByte_eq hl, h]
  rfl

theorem State.notInService_some {s : State} {n : LineId} {line : Byte} (hl : line.toNat = n.val)
    (h : s.inService n = false) : s.notInService line = some ⟨.notInService, line⟩ := by
  rw [State.notInService, lineOfByte_eq hl, h]
  rfl

section PlanBegin

variable {s : State} {n : LineId} {line cause : Byte} {expected : Carried (BitVec 32)}

theorem exec_planBegin_refused (h : s.Takes .planBegin) (hl : line.toNat = n.val) {r : Refused}
    (hr : planRefusal line cause expected s = some r) :
    exec (.planBegin line cause expected) s =
      .next (s.owe (some ⟨0xFF, [0x44, r.reason.code, r.detail]⟩)) :=
  congrArg Host.Outcome.next (h.refused (above_none (lineByte_le hl)) hr _)

theorem exec_planBegin_done (h : s.Takes .planBegin) (hl : line.toNat = n.val)
    (hr : planRefusal line cause expected s = none) {c : Category}
    (hc : planCategory s.settings cause = some c) :
    exec (.planBegin line cause expected) s =
      .next ((s.beginPlan n (s.newPlan cause c (expectedTaken expected))).owe
        (some ⟨0xC4, line :: ((s.newPlan cause c (expectedTaken expected)).bytes s.now ++
          (s.line n).slotOutcome)⟩)) := by
  refine congrArg Host.Outcome.next ((h.done (above_none (lineByte_le hl)) hr _).trans ?_)
  simp only [lineOfByte_eq hl, hc, Option.getD_some]
  rfl

end PlanBegin

theorem State.newPlan_bytes (s : State) (cause : CauseCode) (c : Category) (limit : Option Nat) :
    (s.newPlan cause c limit).bytes s.now = [cause, c.code] ++ stamp s.hall ++
      optional (field 4) limit ++ field 4 0 ++ [0] := by
  have helapsed : (s.newPlan cause c limit).elapsedAt s.now = 0 := by
    simp [Plan.elapsedAt, State.newPlan]
  rw [Plan.bytes, helapsed]
  rfl

/-! ### The stoppage that a plan ends -/

theorem State.endForPlan_none {s : State} {n : LineId} (h : (s.line n).slot = none) :
    s.endForPlan n = s := by
  unfold State.endForPlan
  rw [h]

theorem State.endForPlan_candidate {s : State} {n : LineId} {r : Stoppage} {e : Nat}
    (h : (s.line n).slot = some r) (hk : r.kind = .candidate e) :
    s.endForPlan n = s.endMicro n s.now := by
  unfold State.endForPlan
  simp only [h, hk]

theorem State.endForPlan_record {s : State} {n : LineId} {r : Stoppage} {m : Nat}
    (h : (s.line n).slot = some r) (hk : r.kind = .record m) :
    s.endForPlan n = s.closeRecord n .plan s.now := by
  unfold State.endForPlan
  simp only [h, hk]

/-- A micro-stop that ends changes nothing but its line's record and the tallies of the stations. -/
theorem State.endMicro_rest {s : State} {n : LineId} {r : Stoppage} (h : (s.line n).slot = some r)
    (t : Nat) : s.endMicro n t = { s with
      lines := Tab.modify s.lines n fun l =>
        { l with slot := none, bank := l.bank.map fun b => b.endMicro t }
      stations := (s.endMicro n t).stations } := by
  rw [State.endMicro_eq h]
  exact State.OnlyStations.creditRoots _ true _

theorem State.endMicro_credited {s : State} {n : LineId} {r : Stoppage}
    (h : (s.line n).slot = some r) (t : Nat) :
    s.CreditedMicro (s.endMicro n t) (r.contributorsAt t) := by
  rw [State.endMicro_eq h]
  exact (State.creditedMicro (s.modLine n _) _).congr rfl rfl

/-- What a plan that begins does with the slot, and with the bank before the line enters PLANNED. -/
theorem State.endForPlan_line (s : State) (n : LineId) : ∃ f : Bank → Bank,
    (s.endForPlan n).line n =
      { s.line n with slot := none, bank := (s.line n).bank.map f } ∧
    ((∀ r e, (s.line n).slot = some r → r.kind ≠ .candidate e) → f = id) ∧
    ∀ r e, (s.line n).slot = some r → r.kind = .candidate e → f = fun b => b.endMicro s.now := by
  cases hr : (s.line n).slot with
  | none =>
    rw [State.endForPlan_none hr]
    refine ⟨id, ?_, fun _ => rfl, fun r e h => nomatch h⟩
    rw [Option.map_id_fun, id_eq, ← hr]
  | some r =>
    cases hk : r.kind with
    | candidate e =>
      rw [State.endForPlan_candidate hr hk]
      exact ⟨_, State.line_endMicro hr s.now, fun h => absurd hk (h r e rfl), fun _ _ _ _ => rfl⟩
    | record m =>
      rw [State.endForPlan_record hr hk,
        State.line_closeRecord (LineLive.openRecord_of_record hr hk)]
      refine ⟨id, by rw [Option.map_id_fun, id_eq], fun _ => rfl, fun r' e h he => ?_⟩
      rw [← Option.some.inj h, hk] at he
      exact nomatch he

/-- The bank of a line whose stoppage a plan ends: `f` of it, as `endForPlan_line` says. -/
def EndsForPlan (f : Bank → Bank) (t : Nat) : Prop := f = id ∨ f = fun b => b.endMicro t

/-- The counts of a bank whose candidate has ended are credited as they would have been. -/
theorem Bank.counts_credit_endMicro (b : Bank) (t rate : Nat) :
    ((b.endMicro t).credit t rate).counts = { (b.credit t rate).counts with
      micro := min (b.counts.micro + 1) 4294967295 } := by
  cases hr : b.runStart with
  | none => rw [Bank.counts_credit_none (by exact hr), Bank.counts_credit_none hr]; rfl
  | some a => rw [Bank.counts_credit_some (r := a) (by exact hr), Bank.counts_credit_some hr]; rfl

theorem EndsForPlan.counts {f : Bank → Bank} {t : Nat} (h : EndsForPlan f t) (b : Bank) (rate : Nat) :
    ((f b).credit t rate).counts = { (b.credit t rate).counts with
      micro := (f b).counts.micro } := by
  obtain rfl | rfl := h
  · dsimp only [id]
    rw [Bank.counts_credit_rest]
  · exact Bank.counts_credit_endMicro b t rate

theorem EndsForPlan.booked {f : Bank → Bank} {t : Nat} (h : EndsForPlan f t) (b : Bank) :
    (f b).booked + (t - (f b).segStart) = b.booked + (t - b.segStart) := by
  obtain rfl | rfl := h
  · rfl
  · simp

theorem EndsForPlan.stoppage {f : Bank → Bank} {t : Nat} (h : EndsForPlan f t) (b : Bank) :
    (f b).counts.stoppage = b.counts.stoppage := by
  obtain rfl | rfl := h
  · rfl
  · rfl

theorem State.beginPlan_eq (s : State) (n : LineId) (p : Plan) :
    s.beginPlan n p = (s.endForPlan n).modLine n fun l =>
      LineLive.enter { l with plan := some p } .planned s.hall s.now (s.rate n) := by
  have hsame := (State.OnlyLine.endForPlan s n).same
  unfold State.beginPlan
  rw [State.enterLine_eq, State.modLine_modLine]
  refine State.modLine_congr _ n ?_
  rw [State.hallAt_modLine, State.rate_modLine]
  unfold State.hallAt State.rate State.lineDef State.hall State.hallAt
  rw [hsame.clock, hsame.settings]

theorem Keeps.endForPlan {β : Type} {g : State → β} (h : Keeps g) (s : State) (n : LineId)
    (hj : ∀ (s : State) (r : JournalRecord), g (s.journalEnter r) = g s) :
    g (s.endForPlan n) = g s := by
  unfold State.endForPlan
  cases hr : (s.line n).slot with
  | none => rfl
  | some r =>
    cases hk : r.kind with
    | candidate e => simp only [hk]; exact h.endMicro s n s.now
    | record m =>
      simp only [hk]
      rw [State.closeRecord_eq (LineLive.openRecord_of_record hr hk), h.line, h.credit, hj]

/-- Settles O50: the slot empties by its own rule, and the line enters PLANNED with its plan. -/
theorem plansBegin : Obligations.PlansBegin := by
  refine fun s n line cause expected h hl => ⟨fun hp => ?presence, fun hp hs => ?service,
    fun hp hs hc => ?cause, fun c scope b limit hp hs hc hplanned hb hlimit => ?begun⟩
  case presence =>
    exact exec_planBegin_refused h hl (r := ⟨.malformed, 2⟩) (by
      rw [planRefusal, presenceBad_some hp, firstRefusal_some]; rfl)
  case service =>
    exact exec_planBegin_refused h hl (r := ⟨.notInService, line⟩) (by
      rw [planRefusal, presenceBad_none hp, State.notInService_some hl hs, firstRefusal_none,
        firstRefusal_some])
  case cause =>
    exact exec_planBegin_refused h hl (r := ⟨.cause, cause⟩) (by
      rw [planRefusal, presenceBad_none hp, State.notInService_none hl hs, planCategory_none hc]
      rfl)
  case begun =>
    have hcat := planCategory_of_planned hc hplanned
    have hr : planRefusal line cause expected s = none := by
      rw [planRefusal, presenceBad_none hp, State.notInService_none hl hs, hcat]
      rfl
    have htaken : expectedTaken expected = limit := hlimit.symm
    have hexec := exec_planBegin_done h hl hr hcat
    rw [htaken, State.newPlan_bytes] at hexec
    obtain ⟨f, huline, hplain, hmicro⟩ := s.endForPlan_line n
    have hf : EndsForPlan f s.now := by
      by_cases hcandidate : ∀ r e, (s.line n).slot = some r → r.kind ≠ .candidate e
      · exact .inl (hplain hcandidate)
      · push Not at hcandidate
        obtain ⟨r, e, hslot, hk⟩ := hcandidate
        exact .inr (hmicro r e hslot hk)
    have honly : s.OnlyLine (s.beginPlan n (s.newPlan cause c limit)) n := .beginPlan s n _
    have hbegin := s.beginPlan_eq n (s.newPlan cause c limit)
    generalize s.beginPlan n (s.newPlan cause c limit) = t at hexec hbegin honly
    have hline : t.line n = LineLive.enter { s.line n with
        slot := none, bank := (s.line n).bank.map f, plan := some (s.newPlan cause c limit) }
        .planned s.hall s.now (s.rate n) := by
      rw [hbegin, State.line_modLine_same, huline]
    have hstations : t.stations = (s.endForPlan n).stations := by rw [hbegin]; rfl
    have hjournal : t.journal = (s.endForPlan n).journal := by rw [hbegin]; rfl
    have hqueue : t.queue = s.queue := by
      rw [hbegin]
      exact congrArg Prod.fst (keeps_queue.endForPlan s n fun s r => by rw [State.journalEnter_eq])
    clear hbegin
    have henters := Bank.Enters.enter (f b) .planned s.now (s.rate n) (.cat c)
    have hbank : (t.line n).bank =
        some ((f b).enter .planned s.now (s.rate n) (.cat c)) := by
      rw [hline, LineLive.enter, hb]
      rfl
    generalize (f b).enter .planned s.now (s.rate n) (.cat c) = b' at henters hbank
    have hcounts : b'.counts = { (b.credit s.now (s.rate n)).counts with
        micro := (f b).counts.micro, stoppage := b.counts.stoppage } := by
      rw [henters.counts, hf.counts b, hf.stoppage b]
    have hrest := Bank.counts_credit_rest b s.now (s.rate n)
    have hcredited : b.RunCredited b' (s.lineDef n).rate s.clock.count :=
      Bank.runCredited_of_credit (by rw [hcounts]; rfl) (by rw [hcounts]; rfl)
    refine ⟨_, b', hexec, ?_⟩
    rw [State.line_owe]
    refine ⟨by rw [hline]; rfl, by rw [hline]; rfl, by rw [hline]; rfl, by rw [hline]; rfl, hbank,
      henters.booking, henters.runStart, hcredited, henters.segStart, ?counts, ?booked,
      fun r e hslot hk => ?candidate, fun r m hslot hk => ?record, fun hslot => ?empty,
      honly.others, ⟨honly.same.settings, honly.same.points, honly.same.inputs,
        honly.same.installed, honly.same.awaitsFrame, honly.same.clock, honly.same.archive,
        honly.same.image, honly.same.imageStatus, honly.same.guardMode, honly.same.power,
        honly.same.pins, honly.same.pending⟩, hqueue, ?link⟩
    case counts => rw [hcounts, hrest]
    case booked => rw [henters.booked, hf.booked b]; rfl
    case candidate =>
      obtain rfl := hmicro r e hslot hk
      rw [State.endForPlan_candidate hslot hk] at hstations hjournal
      refine ⟨hjournal.trans (by rw [State.endMicro_rest hslot]), ?_,
        (State.endMicro_credited hslot s.now).congr rfl hstations.symm, by rw [hcounts]; rfl⟩
      refine (b.endMicro_microStopped s.now).congr fun y => ?_
      rw [henters.times, Bank.time_book_of_segStart (Bank.endMicro_segStart b s.now)]
    case record =>
      have hopen := LineLive.openRecord_of_record hslot hk
      obtain rfl := hplain fun r' e hslot' hk' => by
        rw [← Option.some.inj (hslot.symm.trans hslot'), hk] at hk'
        exact nomatch hk'
      rw [State.endForPlan_record hslot hk] at hstations hjournal
      refine ⟨⟨s.closedRecord n r m .plan s.now, ?_, rfl, rfl, rfl, rfl, rfl⟩, henters.times,
        (State.closeRecord_credited hopen .plan s.now).congr rfl hstations.symm,
        by rw [hcounts]; rfl⟩
      have hmem : s.closedRecord n r m .plan s.now ∈ t.journal := by
        rw [hjournal, State.closeRecord_journal hopen]
        exact List.mem_append_right _ (List.mem_singleton.mpr rfl)
      exact hmem
    case empty =>
      obtain rfl := hplain fun r e hslot' => absurd (hslot.symm.trans hslot') (Option.some_ne_none r).symm
      rw [State.endForPlan_none hslot] at hstations hjournal
      exact ⟨hjournal, hstations, by rw [hcounts]; rfl, henters.times⟩
    case link => rw [State.owe_link, honly.link]

end Sys2Proof.Machine

/-! The close of a shift (R101, R147, R148): what settling the slot leaves, what is staged, and what the
journal holds of the shift that closed. -/

namespace Sys2Proof.Machine

/-! ### The reading of a bank that closes -/

theorem Bank.counts_view (b : Bank) (t rate : Nat) (hasOutput : Bool) :
    (b.view t rate hasOutput).counts = (b.credit t rate).counts := by
  have hview : (b.view t rate hasOutput).counts = ((b.book t).credit t rate).counts := rfl
  rw [hview]
  cases h : b.runStart with
  | none => rw [Bank.counts_credit_none h, Bank.counts_credit_none (by exact h), Bank.counts_book]
  | some a =>
    rw [Bank.counts_credit_some h, Bank.counts_credit_some (r := a) (by exact h), Bank.counts_book]

theorem Bank.counts_credit_promote (b : Bank) (t rate : Nat) (cs : List Contributor) :
    ((b.promote t cs).credit t rate).counts = { (b.credit t rate).counts with
      stoppage := min (b.counts.stoppage + 1) 4294967295 } := by
  have hrun : (b.promote t cs).runStart = b.runStart := by rw [Bank.promote_rest]; rfl
  cases h : b.runStart with
  | none =>
    rw [Bank.counts_credit_none (hrun.trans h), Bank.counts_credit_none h, Bank.promote_counts]
  | some a =>
    rw [Bank.counts_credit_some (hrun.trans h), Bank.counts_credit_some h, Bank.promote_counts]

/-- The reading of the bank whose candidate was promoted at the close. -/
theorem Bank.view_promoted (b : Bank) (t rate : Nat) (hasOutput : Bool) (cs : List Contributor)
    (cat : Category) {v : BankView}
    (hv : v = ((b.promote t cs).enter .down t rate (.cat cat)).view t rate hasOutput) :
    v.counts = { (b.view t rate hasOutput).counts with
      stoppage := min (b.counts.stoppage + 1) 4294967295 } ∧
    v.scheduled = t - b.openCount ∧ v.countNoisy = b.countNoisy ∧ v.degraded = b.degraded ∧
    v.figures = figures v.scheduled v.times v.counts hasOutput ∧
    ∃ b', (b.book t).Promoted b' cs ∧ ∀ k, timeOf v.times k = b'.time k := by
  have hpromote := b.promote_rest t cs
  have htimes : ∀ k, timeOf v.times k =
      ((b.promote t cs).enter .down t rate (.cat cat)).time k := fun k => by
    rw [hv, Bank.timeOf_view, Bank.segStart_enter, Nat.sub_self, ite_self, Nat.add_zero]
  have hcounts : v.counts = { (b.view t rate hasOutput).counts with
      stoppage := min (b.counts.stoppage + 1) 4294967295 } := by
    have hstopped : ((b.promote t cs).enter .down t rate (.cat cat)).runStart = none :=
      Bank.runStart_enter _ _ _ _ _
    rw [hv, Bank.counts_view, Bank.counts_credit_none hstopped, Bank.counts_enter,
      Bank.counts_credit_promote, Bank.counts_view]
  have hopen := Bank.openCount_enter (b.promote t cs) .down t rate (.cat cat)
  have hnoisy := Bank.countNoisy_enter (b.promote t cs) .down t rate (.cat cat)
  have hdegraded := Bank.degraded_enter (b.promote t cs) .down t rate (.cat cat)
  have hmove := Bank.promoted_promote b t rate .down (.cat cat) cs
  generalize (b.promote t cs).enter .down t rate (.cat cat) = b0 at hv htimes hopen hnoisy hdegraded hmove
  refine ⟨hcounts, ?_, ?_, ?_, by rw [hv]; rfl, b0, hmove, htimes⟩
  · rw [hv, ← Bank.promote_openCount b t cs, ← hopen]; rfl
  · rw [hv]; exact hnoisy.trans (by rw [hpromote]; rfl)
  · rw [hv]; exact hdegraded.trans (by rw [hpromote]; rfl)

/-! ### The tallies -/

/-- Since when a station's tally runs in its state is no matter of the stoppages that end. -/
theorem keeps_since (k : StationId) : Keeps fun s => (s.station k).since where
  line := fun _ _ _ => rfl
  tally := fun s m f => by
    by_cases h : k = m
    · subst h
      unfold State.modTally
      rw [State.station_modStation_same]
    · unfold State.modTally
      rw [State.station_modStation_ne s h]

/-- A tally credited is credited as well when it is read. -/
theorem State.CreditedDown.tallyAt {s t : State} {cs : List Contributor} (h : s.CreditedDown t cs)
    {k : StationId} (hst : (t.station k).state = (s.station k).state)
    (hsince : (t.station k).since = (s.station k).since) {now : Nat} {y : StationTally}
    (hy : (s.station k).tallyAt now = some y) :
    ∃ z, (t.station k).tallyAt now = some z ∧ y.CreditedDown z k cs := by
  obtain ⟨y0, hy0, rfl⟩ := Option.map_eq_some_iff.mp hy
  obtain ⟨z0, hz0, hz, hcount⟩ := h k y0 hy0
  refine ⟨z0.addTime (s.station k).state (now - (s.station k).since), ?_, ?_, hcount⟩
  · rw [StationLive.tallyAt, hz0, hst, hsince]
    rfl
  · conv_lhs => rw [hz]
    rfl

theorem State.station_modTally_ne (s : State) {j k : StationId} (h : k ≠ j)
    (f : StationTally → StationTally) : (s.modTally j f).station k = s.station k :=
  State.station_modStation_ne s h _

/-- A station that no contributor names is not credited. -/
theorem State.station_creditRoots_ne {cs : List Contributor} {k : StationId}
    (h : ∀ c ∈ cs, c.station ≠ k) (s : State) (micro : Bool) :
    (s.creditRoots micro cs).station k = s.station k := by
  have hfold : ∀ (f : Contributor → StationTally → StationTally) (l : List Contributor) (s : State),
      (∀ c ∈ l, c.station ≠ k) →
      (l.foldl (fun s c => s.modTally c.station (f c)) s).station k = s.station k := by
    intro f l
    induction l with
    | nil => exact fun _ _ => rfl
    | cons c l ih =>
      intro s hl
      rw [List.foldl_cons, ih _ fun x hx => hl x (List.mem_cons_of_mem c hx),
        State.station_modTally_ne s (hl c List.mem_cons_self).symm]
  unfold State.creditRoots
  cases cs with
  | nil => rfl
  | cons c cs =>
    dsimp only
    rw [State.station_modTally_ne _ (h c List.mem_cons_self).symm]
    exact hfold (fun c y => if micro then { y with rootMicro := y.rootMicro + c.duration }
      else { y with rootDown := y.rootDown + c.duration }) _ s h

/-- Sealing the last contributor changes its duration, and no station. -/
theorem sealLast_stations {since t : Nat} {cs : List Contributor} {c : Contributor}
    (h : c ∈ sealLast since t cs) : ∃ d ∈ cs, d.station = c.station := by
  induction cs with
  | nil => exact absurd h List.not_mem_nil
  | cons x cs ih =>
    cases cs with
    | nil =>
      obtain rfl := List.mem_singleton.mp h
      exact ⟨x, List.mem_cons_self, rfl⟩
    | cons y rest =>
      rcases List.mem_cons.mp h with rfl | hin
      · exact ⟨_, List.mem_cons_self, rfl⟩
      · obtain ⟨d, hd, hst⟩ := ih hin
        exact ⟨d, List.mem_cons_of_mem x hd, hst⟩

/-- A record that closes leaves the stations that none of its contributors names. -/
theorem State.station_closeRecord_ne {s : State} {n : LineId} {r : Stoppage} {m : Nat}
    (h : (s.line n).openRecord = some (r, m)) {k : StationId}
    (hk : ∀ c ∈ r.contributors, c.station ≠ k) (kind : CloseKind) (t : Nat) :
    (s.closeRecord n kind t).station k = s.station k := by
  rw [State.closeRecord_eq h, State.station_modLine, State.station_creditRoots_ne fun c hc => ?_]
  · rw [State.journalEnter_eq]; rfl
  · obtain ⟨d, hd, hst⟩ := sealLast_stations hc
    exact hst ▸ hk d hd

/-! ### The slot that a close settles (R148) -/

/-- What settling the slot of line `n` leaves. -/
structure State.SlotSettled (s u : State) (n : LineId) : Prop where
  only : s.OnlyLine u n
  queue : u.queue = s.queue ∧ u.settingsCopy = s.settingsCopy
  rest : u.line n = { s.line n with
    state := (u.line n).state
    stamp := (u.line n).stamp
    slot := none
    nextNumber := (u.line n).nextNumber
    bank := (u.line n).bank }
  state : ((∀ r e, (s.line n).slot = some r → r.kind ≠ .candidate e) →
      (u.line n).state = (s.line n).state) ∧
    ∀ r e, (s.line n).slot = some r → r.kind = .candidate e → (u.line n).state = .down
  reading : ∀ b, (s.line n).bank = some b → ∃ b0, (u.line n).bank = some b0 ∧
    s.ClosedReading n b (s.bankView n b0 s.clock.count)
  entered : ∀ r, (s.line n).slot = some r → ∃ j, u.journal =
    (if s.journal.length < 192 then s.journal else s.journal.tail) ++ [j] ∧ s.ShiftRecord n r j
  unentered : (s.line n).slot = none → u.journal = s.journal
  tallies : ∀ k y, (s.station k).tallyAt s.clock.count = some y →
    ∃ z, (u.station k).tallyAt s.clock.count = some z ∧
      y.CreditedDown z k (s.slotContributors n)
  untouched : ∀ k, (∀ r c, (s.line n).slot = some r → c ∈ r.contributors → c.station ≠ k) →
    u.station k = s.station k

theorem State.settleSlot_none {s : State} {n : LineId} (h : (s.line n).slot = none) (t : Nat) :
    s.settleSlot n t = s := by
  unfold State.settleSlot
  rw [h]

theorem State.settleSlot_record {s : State} {n : LineId} {r : Stoppage} {m : Nat}
    (h : (s.line n).slot = some r) (hk : r.kind = .record m) (t : Nat) :
    s.settleSlot n t = s.closeRecord n .shiftEnd t := by
  unfold State.settleSlot
  simp only [h, hk]

theorem State.settleSlot_candidate {s : State} {n : LineId} {r : Stoppage} {e : Nat}
    (h : (s.line n).slot = some r) (hk : r.kind = .candidate e) (t : Nat) :
    s.settleSlot n t = (s.promote n t).closeRecord n .shiftEnd t := by
  unfold State.settleSlot
  simp only [h, hk]

theorem StationTally.creditedDown_nil (y : StationTally) (k : StationId) :
    y.CreditedDown y k [] := ⟨by simp [rootTime], by simp [rootCount]⟩

theorem State.slotSettled_none {s : State} {n : LineId} (h : (s.line n).slot = none) :
    s.SlotSettled s n where
  only := .refl s n
  queue := ⟨rfl, rfl⟩
  rest := by rw [← h]
  state := ⟨fun _ => rfl, fun r e hr => nomatch h.symm.trans hr⟩
  reading := fun b hb => ⟨b, hb, fun _ => rfl, fun r e hr => nomatch h.symm.trans hr⟩
  entered := fun r hr => nomatch h.symm.trans hr
  unentered := fun _ => rfl
  tallies := fun k y hy => ⟨y, hy, by
    rw [State.slotContributors, h]
    exact y.creditedDown_nil k⟩
  untouched := fun _ _ => rfl

theorem State.closeRecord_queue {s : State} {n : LineId} {r : Stoppage} {m : Nat}
    (h : (s.line n).openRecord = some (r, m)) (kind : CloseKind) (t : Nat) :
    (s.closeRecord n kind t).queue = s.queue ∧
      (s.closeRecord n kind t).settingsCopy = s.settingsCopy := by
  rw [State.closeRecord_rest h]
  exact ⟨rfl, rfl⟩

theorem State.closeRecord_since {s : State} {n : LineId} {r : Stoppage} {m : Nat}
    (h : (s.line n).openRecord = some (r, m)) (kind : CloseKind) (t : Nat) (k : StationId) :
    ((s.closeRecord n kind t).station k).since = (s.station k).since := by
  rw [State.closeRecord_eq h]
  refine ((keeps_since k).line _ _ _).trans (((keeps_since k).credit _ _ _).trans ?_)
  rw [State.journalEnter_eq]
  rfl

theorem State.closedRecord_shiftRecord (s : State) (n : LineId) (r : Stoppage) {m : Nat}
    (hm : m = match r.kind with
      | .candidate _ => (s.line n).nextNumber
      | .record m => m) : s.ShiftRecord n r (s.closedRecord n r m .shiftEnd s.now) where
  line := rfl
  serial := rfl
  number := hm
  start := rfl
  duration := rfl
  entry := rfl
  cause := rfl
  state := by
    unfold State.closedRecord entryRecordState
    cases r.operatorCause <;> rfl
  markers := rfl
  contributors := rfl

theorem State.slotSettled_record {s : State} {n : LineId} {r : Stoppage} {m : Nat}
    (h : (s.line n).slot = some r) (hk : r.kind = .record m) :
    s.SlotSettled (s.closeRecord n .shiftEnd s.now) n := by
  have hopen := LineLive.openRecord_of_record h hk
  have hnone : ∀ r' e, (s.line n).slot = some r' → r'.kind ≠ .candidate e := fun r' e h' he => by
    rw [← Option.some.inj (h.symm.trans h'), hk] at he
    exact nomatch he
  have hline := State.line_closeRecord hopen .shiftEnd s.now
  exact {
    only := .closeRecord s n _ _
    queue := State.closeRecord_queue hopen _ _
    rest := by rw [hline]
    state := ⟨fun _ => by rw [hline], fun r' e h' he => absurd he (hnone r' e h')⟩
    reading := fun b hb => ⟨b, by rw [hline]; exact hb, fun _ => rfl,
      fun r' e h' he => absurd he (hnone r' e h')⟩
    entered := fun r' h' => by
      obtain rfl := Option.some.inj (h.symm.trans h')
      exact ⟨_, State.closeRecord_journal hopen _ _,
        s.closedRecord_shiftRecord n r (by rw [hk])⟩
    unentered := fun h' => nomatch h.symm.trans h'
    tallies := fun k y hy => by
      have hcs : s.slotContributors n = r.contributorsAt s.now := by
        rw [State.slotContributors, h]; rfl
      rw [hcs]
      exact (State.closeRecord_credited hopen .shiftEnd s.now).tallyAt
        ((State.OnlyLine.closeRecord s n .shiftEnd s.now).stations k).state
        (State.closeRecord_since hopen .shiftEnd s.now k) hy
    untouched := fun k hk => State.station_closeRecord_ne hopen (fun c hc => hk r c h hc) _ _ }

theorem State.slotSettled_candidate {s : State} {n : LineId} {r : Stoppage} {e : Nat}
    (h : (s.line n).slot = some r) (hk : r.kind = .candidate e) :
    s.SlotSettled ((s.promote n s.now).closeRecord n .shiftEnd s.now) n := by
  have hsome : ∀ r', (s.line n).slot = some r' → r' = r := fun r' h' =>
    Option.some.inj (h'.symm.trans h)
  obtain ⟨p, hp⟩ : ∃ p, p = s.promote n s.now := ⟨_, rfl⟩
  have hpline : p.line n = _ :=
    (congrArg (State.line · n) hp).trans ((State.line_promote h s.now).trans (LineLive.promote_enter _ r _ _ _))
  have hpeq := State.promote_eq h s.now
  rw [← hp] at hpeq ⊢
  have hpstations : p.stations = s.stations := by rw [hpeq]; rfl
  have hpjournal : p.journal = s.journal := by rw [hpeq]; rfl
  have hpqueue : p.queue = s.queue ∧ p.settingsCopy = s.settingsCopy := by rw [hpeq]; exact ⟨rfl, rfl⟩
  have honly : s.OnlyLine p n := by rw [hp]; exact .promote s n s.now
  clear hpeq hp
  have hopen : (p.line n).openRecord =
      some ({ r with kind := .record (s.line n).nextNumber }, (s.line n).nextNumber) :=
    LineLive.openRecord_of_record (by rw [hpline]) rfl
  have hline := State.line_closeRecord hopen .shiftEnd s.now
  have hjournal := State.closeRecord_journal hopen .shiftEnd s.now
  have hqueue := State.closeRecord_queue hopen .shiftEnd s.now
  have hcredit := State.closeRecord_credited hopen .shiftEnd s.now
  have hsince := State.closeRecord_since hopen .shiftEnd s.now
  have honlyu : s.OnlyLine (p.closeRecord n .shiftEnd s.now) n := honly.trans (.closeRecord p n _ _)
  have huntouched := fun (k : StationId) (hk : ∀ c ∈ r.contributors, c.station ≠ k) =>
    State.station_closeRecord_ne (k := k) hopen hk .shiftEnd s.now
  generalize p.closeRecord n .shiftEnd s.now = u at *
  exact {
    only := honlyu
    queue := ⟨hqueue.1.trans hpqueue.1, hqueue.2.trans hpqueue.2⟩
    rest := by rw [hline, hpline]
    state := ⟨fun hnone => absurd hk (hnone r e h), fun _ _ _ _ => by rw [hline, hpline]⟩
    reading := fun b hb => by
      refine ⟨(b.promote s.now (r.contributorsAt s.now)).enter .down s.now (s.rate n)
        (.cat r.lastCategory), by rw [hline, hpline, hb]; rfl,
        fun hnone => absurd hk (hnone r e h), fun r' _ h' _ => ?_⟩
      obtain rfl := hsome r' h'
      exact Bank.view_promoted b s.now (s.rate n) _ _ r'.lastCategory rfl
    entered := fun r' h' => by
      obtain rfl := hsome r' h'
      have hrecord := s.closedRecord_shiftRecord n r' (m := (s.line n).nextNumber) (by rw [hk])
      have hsame : p.closedRecord n { r' with kind := .record (s.line n).nextNumber }
          (s.line n).nextNumber .shiftEnd s.now =
          s.closedRecord n r' (s.line n).nextNumber .shiftEnd s.now := by
        unfold State.closedRecord State.lineDef State.now
        rw [honly.same.settings, honly.same.clock]
        rfl
      rw [hsame, hpjournal] at hjournal
      exact ⟨_, hjournal, hrecord⟩
    unentered := fun h' => nomatch h.symm.trans h'
    tallies := fun k y hy => by
      have hcs : s.slotContributors n = r.contributorsAt s.now := by
        rw [State.slotContributors, h]; rfl
      rw [hcs]
      have hstation : ∀ k, p.station k = s.station k := fun k => by
        unfold State.station; rw [hpstations]
      exact State.CreditedDown.tallyAt (s := s) (cs := r.contributorsAt s.now)
        (hcredit.congr hpstations rfl) (honlyu.stations k).state
        ((hsince k).trans (by rw [hstation])) hy
    untouched := fun k hk => by
      rw [huntouched k fun c hc => hk r c h hc]
      unfold State.station
      rw [hpstations] }

theorem State.slotSettled (s : State) (n : LineId) : s.SlotSettled (s.settleSlot n s.now) n := by
  cases h : (s.line n).slot with
  | none =>
    rw [State.settleSlot_none h]
    exact State.slotSettled_none h
  | some r =>
    cases hk : r.kind with
    | candidate e =>
      rw [State.settleSlot_candidate h hk]
      exact State.slotSettled_candidate h hk
    | record m =>
      rw [State.settleSlot_record h hk]
      exact State.slotSettled_record h hk

end Sys2Proof.Machine

/-! The turn of a shift (R147, R148): the closed bank is staged and joins the write queue, and the next
shift opens, with the stoppage continued. -/

namespace Sys2Proof.Machine

/-! ### Staging -/

theorem State.queueJoin_eq (s : State) (w : WriteItem) : s.queueJoin w = { s with
    queue := s.queue ++ [w]
    settingsCopy := (s.queueJoin w).settingsCopy } := by
  unfold State.queueJoin
  cases hq : s.queue with
  | nil => rw [State.serveHead_eq]; rfl
  | cons x rest => rfl

/-- The tally of a member in the closed bank is the one gathered of it. -/
theorem ClosedBank.tallyOf_of_mem {c : ClosedBank} {ks : List StationId}
    {g : StationId → Option StationTally}
    (hc : c.members = ks.filterMap fun k => (g k).map fun y => (k, y)) {k : StationId}
    (hk : k ∈ ks) {y : StationTally} (hy : g k = some y) : c.tallyOf k = some y := by
  unfold ClosedBank.tallyOf
  rw [hc]
  clear hc
  induction ks with
  | nil => exact absurd hk List.not_mem_nil
  | cons m ks ih =>
    by_cases hm : m = k
    · subst hm
      rw [List.filterMap_cons_some (b := (m, y)) (by rw [hy]; rfl), List.find?_cons_of_pos (by simp)]
      rfl
    · have hin : k ∈ ks := (List.mem_cons.mp hk).resolve_left fun h => hm h.symm
      cases hg : g m with
      | none => rw [List.filterMap_cons_none (by rw [hg]; rfl)]; exact ih hin
      | some z =>
        rw [List.filterMap_cons_some (b := (m, z)) (by rw [hg]; rfl),
          List.find?_cons_of_neg (by simpa using hm)]
        exact ih hin

theorem JournalRecord.settled_lapse (r : JournalRecord) : r.lapse.state.settled = true := by
  unfold JournalRecord.lapse
  split
  next h => exact h
  next => rfl

theorem JournalRecord.lapse_rest (r : JournalRecord) : r.lapse = { r with state := r.lapse.state } := by
  unfold JournalRecord.lapse
  split <;> rfl

theorem JournalRecord.lapse_of_settled {r : JournalRecord} (h : r.state.settled = true) :
    r.lapse = r := by
  unfold JournalRecord.lapse
  rw [if_pos h]

/-- Every record of the shift whose records lapse is settled after it (R101). -/
theorem State.lapseShift_settled (s : State) (n : LineId) (serial : Nat) :
    ∀ r ∈ (s.lapseShift n serial).journal, r.line = n → r.serial = serial →
      r.state.settled = true := by
  intro r hr hn hs
  obtain ⟨x, -, rfl⟩ := List.mem_map.mp hr
  by_cases hx : x.line = n ∧ x.serial = serial
  · rw [if_pos hx]; exact x.settled_lapse
  · rw [if_neg hx] at hn hs
    exact absurd ⟨hn, hs⟩ hx

/-- A settled record keeps its place at the end of the journal when a shift's records lapse. -/
theorem State.lapseShift_getLast? {s : State} {n : LineId} {serial : Nat} {j : JournalRecord}
    {before : List JournalRecord} (h : s.journal = before ++ [j]) (hj : j.state.settled = true) :
    (s.lapseShift n serial).journal.getLast? = some j := by
  unfold State.lapseShift
  rw [h, List.map_append, List.map_singleton, List.getLast?_concat]
  split
  · rw [JournalRecord.lapse_of_settled hj]
  · rfl

theorem State.ShiftRecord.settled {s : State} {n : LineId} {r : Stoppage} {j : JournalRecord}
    (h : s.ShiftRecord n r j) : j.state.settled = true := by
  rw [h.state]
  split <;> rfl

/-! ### What a line's turn leaves of the other lines -/

/-- What the turn of line `n` makes of the journal: it may enter a record of line `n`, and changes no
record of another line. -/
def JournalTurn (n : LineId) (j j' : List JournalRecord) : Prop :=
  ∃ base g, (base = j ∨ ∃ r : JournalRecord, r.line = n ∧
      base = (if j.length < 192 then j else j.tail) ++ [r]) ∧ j' = base.map g ∧
    ∀ x : JournalRecord, (g x).line = x.line ∧ (x.line ≠ n → g x = x)

theorem JournalTurn.refl (n : LineId) (j : List JournalRecord) : JournalTurn n j j :=
  ⟨j, id, .inl rfl, (List.map_id j).symm, fun _ => ⟨rfl, fun _ => rfl⟩⟩

/-- What the turn of line `n` leaves of the other lines: their records, their items in the write queue,
their records in the journal, and the stations that it does not charge. -/
structure State.LineTurn (s t : State) (n : LineId) : Prop where
  only : s.OnlyLine t n
  queue : ∀ w ∈ s.queue, w ∈ t.queue
  journal : JournalTurn n s.journal t.journal
  untouched : ∀ k, (∀ r c, (s.line n).slot = some r → c ∈ r.contributors → c.station ≠ k) →
    k ∉ s.members n → t.station k = s.station k

theorem State.LineTurn.refl (s : State) (n : LineId) : s.LineTurn s n :=
  ⟨.refl s n, fun _ => id, .refl n _, fun _ _ _ => rfl⟩

theorem State.SlotSettled.journal {s u : State} {n : LineId} (h : s.SlotSettled u n)
    (serial : Nat) : JournalTurn n s.journal (u.lapseShift n serial).journal := by
  refine ⟨u.journal, fun r => if r.line = n ∧ r.serial = serial then r.lapse else r, ?_, rfl,
    fun x => ⟨?_, fun hx => if_neg fun hn => hx hn.1⟩⟩
  · cases hs : (s.line n).slot with
    | none => exact .inl (h.unentered hs)
    | some r =>
      obtain ⟨j, hj, hrecord⟩ := h.entered r hs
      exact .inr ⟨j, hrecord.line, hj⟩
  · dsimp only
    split
    · rw [JournalRecord.lapse_rest]
    · rfl

/-! ### The close of a shift -/

/-- What the close of a shift of line `n` leaves. -/
structure State.ShiftClosed (s t : State) (n : LineId) (reason : CloseReason) (deferred : Bool)
    (b : Bank) (c : ClosedBank) : Prop where
  shift : s.ClosedShift t n b c
  alone : s.ClosedAlone t n c
  reason : c.reason = reason
  deferred : c.deferred = deferred
  queue : t.queue = s.queue ++ [WriteItem.bank n]
  only : s.OnlyLine t n
  rest : t.line n = { s.line n with
    state := (t.line n).state
    stamp := (t.line n).stamp
    slot := none
    nextNumber := (t.line n).nextNumber
    bank := (t.line n).bank
    staging := some c }
  state : ((∀ r e, (s.line n).slot = some r → r.kind ≠ .candidate e) →
      (t.line n).state = (s.line n).state) ∧
    ∀ r e, (s.line n).slot = some r → r.kind = .candidate e → (t.line n).state = .down
  journal : JournalTurn n s.journal t.journal
  untouched : ∀ k, (∀ r c, (s.line n).slot = some r → c ∈ r.contributors → c.station ≠ k) →
    t.station k = s.station k

theorem State.closeShift_closed {s : State} {n : LineId} {b : Bank}
    (hb : (s.line n).bank = some b) (reason : CloseReason) (deferred : Bool) :
    ∃ c, s.ShiftClosed (s.closeShift n reason deferred s.now) n reason deferred b c := by
  have honly : s.OnlyLine (s.closeShift n reason deferred s.now) n := .closeShift s n _ _ _
  have hu : s.SlotSettled (s.settleSlot n s.now) n := s.slotSettled n
  have hclose : s.closeShift n reason deferred s.now = ((s.settleSlot n s.now).lapseShift n
    ((s.settleSlot n s.now).line n).serial).stage n reason deferred s.now := rfl
  rw [hclose] at honly ⊢
  clear hclose
  generalize s.settleSlot n s.now = u at hu honly ⊢
  have hserial : (u.line n).serial = (s.line n).serial := by rw [hu.rest]
  have hopened : (u.line n).openStamp = (s.line n).openStamp := by rw [hu.rest]
  rw [hserial] at honly ⊢
  obtain ⟨b0, hb0, hreading⟩ := hu.reading b hb
  obtain ⟨v, hv⟩ : ∃ v, v = u.lapseShift n (s.line n).serial := ⟨_, rfl⟩
  have hvline : v.line n = u.line n := by rw [hv]; rfl
  have hvjournal : v.journal = (u.lapseShift n (s.line n).serial).journal := by rw [hv]
  have hvset : v.settings = s.settings := by rw [hv]; exact hu.only.same.settings
  have hvclock : v.clock = s.clock := by rw [hv]; exact hu.only.same.clock
  have hvqueue : v.queue = s.queue := by rw [hv]; exact hu.queue.1
  have hvstation : ∀ k, v.station k = u.station k := fun k => by rw [hv]; rfl
  rw [← hv] at honly ⊢
  have hstage : v.stage n reason deferred s.now = (v.modLine n fun l => { l with
      staging := some (v.gather n b0 reason deferred s.now) }).queueJoin (.bank n) := by
    unfold State.stage
    rw [hvline, hb0]
  obtain ⟨c, hc⟩ : ∃ c, c = v.gather n b0 reason deferred s.now := ⟨_, rfl⟩
  rw [hstage, ← hc, State.queueJoin_eq] at honly ⊢
  obtain ⟨t, ht⟩ : ∃ t, t = { (v.modLine n fun l => { l with staging := some c }) with
    queue := (v.modLine n fun l => { l with staging := some c }).queue ++ [WriteItem.bank n]
    settingsCopy := ((v.modLine n fun l => { l with staging := some c }).queueJoin
      (.bank n)).settingsCopy } := ⟨_, rfl⟩
  rw [← ht] at honly ⊢
  have htline : t.line n = { u.line n with staging := some c } := by
    rw [ht, ← hvline]
    exact State.line_modLine_same v n _
  have htjournal : t.journal = (u.lapseShift n (s.line n).serial).journal := by
    rw [ht, ← hvjournal]; rfl
  have htqueue : t.queue = s.queue ++ [.bank n] := by rw [ht, ← hvqueue]; rfl
  have htstation : ∀ k, t.station k = u.station k := fun k => by rw [ht, ← hvstation]; rfl
  clear ht hstage
  have hview : c.view = s.bankView n b0 s.clock.count := by
    rw [hc]
    unfold State.gather State.bankView State.rate State.lineDef
    rw [hvset]
    rfl
  refine ⟨c, ?shift, ?alone, by rw [hc]; rfl, by rw [hc]; rfl, htqueue, honly, ?rest, ?state,
    by rw [htjournal]; exact hu.journal _, fun k hk => (htstation k).trans (hu.untouched k hk)⟩
  case shift =>
    exact {
      staged := by rw [htline]
      line := by rw [hc]; rfl
      serial := by rw [hc, ← hserial, ← hvline]; rfl
      opened := by rw [hc, ← hopened, ← hvline]; rfl
      closed := by
        rw [hc]
        unfold State.gather State.hall State.hallAt
        rw [hvclock]
      reading := by rw [hview]; exact hreading
      record := fun r hr => by
        obtain ⟨j, hj, hrecord⟩ := hu.entered r hr
        refine ⟨j, ?_, hrecord⟩
        rw [htjournal]
        exact List.mem_of_getLast? (State.lapseShift_getLast? hj hrecord.settled)
      settled := by rw [htjournal]; exact u.lapseShift_settled n _ }
  case alone =>
    exact {
      record := fun r hr => by
        obtain ⟨j, hj, hrecord⟩ := hu.entered r hr
        refine ⟨j, ?_, hrecord⟩
        rw [htjournal]
        exact State.lapseShift_getLast? hj hrecord.settled
      unrecorded := fun hnone => by
        rw [htjournal, ← hu.unentered hnone]
        exact List.length_map _
      tallies := fun k hk y hy => by
        obtain ⟨z, hz, hcredited⟩ := hu.tallies k y hy
        refine ⟨z, ?_, hcredited⟩
        have hmembers : c.members = (s.members n).filterMap fun k =>
            ((v.station k).tallyAt s.now).map fun y => (k, y) := by
          rw [hc]
          unfold State.gather State.closedTallies State.members State.positionIn State.stationDef
          rw [hvset]
        exact ClosedBank.tallyOf_of_mem hmembers hk (by rw [hvstation]; exact hz) }
  case rest =>
    rw [htline]
    conv_lhs => rw [hu.rest]
  case state => rw [htline]; exact hu.state

/-! ### The next shift -/

/-- The bank of a shift that opens. -/
def LineLive.newBank (l : LineLive) (t : Nat) (noisy degraded : Bool) : Bank :=
  { Bank.create t noisy degraded l.bucket with
    runStart := if l.state = .running then some t else none }

/-- The record of a line whose shift `serial` opens. -/
def LineLive.opened (l : LineLive) (serial stamp t : Nat) (noisy degraded : Bool) : LineLive :=
  { l with
    serial := serial
    openStamp := some stamp
    nextNumber := match l.slot with
      | some _ => 2
      | none => 1
    bank := some (l.newBank t noisy degraded) }

theorem State.openShift_eq (s : State) (n : LineId) (serial t : Nat) :
    s.openShift n serial t = (s.modLine n fun l =>
      l.opened serial (s.hallAt t) t (s.lineNoisy n) (s.constraintDegraded n)).openTallies n t := rfl

theorem State.openTallies_eq (s : State) (n : LineId) (t : Nat) :
    s.openTallies n t = { s with stations := (s.openTallies n t).stations } :=
  State.OnlyStations.foldl (fun s k => .modStation s k _) (s.members n) s

theorem State.line_openShift (s : State) (n : LineId) (serial t : Nat) :
    (s.openShift n serial t).line n = (s.line n).opened serial (s.hallAt t) t (s.lineNoisy n)
      (s.constraintDegraded n) := by
  rw [State.openShift_eq, State.openTallies_eq]
  exact State.line_modLine_same s n _

/-- An opening changes the line's record and the tallies of its members alone. -/
theorem State.openShift_books (s : State) (n : LineId) (serial t : Nat) :
    (s.openShift n serial t).journal = s.journal ∧ (s.openShift n serial t).queue = s.queue ∧
      (s.openShift n serial t).alerts = s.alerts := by
  rw [State.openShift_eq, State.openTallies_eq]
  exact ⟨rfl, rfl, rfl⟩

theorem serialAfter_one {serial : Nat} (h : serial ≤ 4294967295) :
    serialAfter serial 1 = if serial = 4294967295 then 1 else serial + 1 := by
  unfold serialAfter
  rw [if_neg (by omega), show Config.countLimit = 4294967295 from rfl]
  by_cases heq : serial = 4294967295
  · rw [if_pos heq, heq]
  · rw [if_neg heq, Nat.add_sub_cancel, Nat.mod_eq_of_lt (by omega)]

theorem Bank.booked_create (t : Nat) (noisy degraded : Bool) (k : Bucket) :
    (Bank.create t noisy degraded k).booked = 0 := by
  simp [Bank.booked, Bank.create]

theorem LineLive.newBank_opened (l : LineLive) (t : Nat) (noisy degraded : Bool) :
    (l.newBank t noisy degraded).openCount = t ∧ (l.newBank t noisy degraded).booked = 0 ∧
      (l.newBank t noisy degraded).counts = Counts.zero :=
  ⟨rfl, Bank.booked_create t noisy degraded l.bucket, rfl⟩

/-! ### The turn -/

section Turn

variable {s : State} {n : LineId} {b : Bank}

theorem State.turnShift_none (hs : (s.line n).slot = none) (reason : CloseReason)
    (deferred : Bool) (t : Nat) : s.turnShift n reason deferred t =
      (s.closeShift n reason deferred t).openShift n (serialAfter (s.line n).serial 1) t := by
  unfold State.turnShift
  simp only [hs]

theorem State.turnShift_some {r : Stoppage} (hs : (s.line n).slot = some r) (reason : CloseReason)
    (deferred : Bool) (t : Nat) : s.turnShift n reason deferred t =
      (((s.closeShift n reason deferred t).modLine n fun l => { l with
          slot := some ((s.closeShift n reason deferred t).continuation n r
            (serialAfter (s.line n).serial 1) t) }).openShift n
        (serialAfter (s.line n).serial 1) t).testDegraded n := by
  unfold State.turnShift
  simp only [hs]

/-- What the turn of a shift of line `n` leaves: the closed shift, and the next one. -/
structure State.ShiftTurned (s t : State) (n : LineId) (reason : CloseReason) (deferred : Bool)
    (b : Bank) (c : ClosedBank) : Prop where
  shift : s.ClosedShift t n b c
  alone : s.ClosedAlone t n c
  reason : c.reason = reason
  deferred : c.deferred = deferred
  queue : t.queue = s.queue ++ [WriteItem.bank n]
  only : s.OnlyLine t n
  stamp : (t.line n).openStamp = some s.hall
  kept : (t.line n).deferred = (s.line n).deferred
  tallies : ∀ k ∈ s.members n, (t.station k).tally = some StationTally.zero
  slot : (t.line n).slot.isSome = (s.line n).slot.isSome
  next : (s.line n).coherent = true → (s.line n).serial ≤ 4294967295 → ∃ b', s.OpenedNext t n b'
  journal : JournalTurn n s.journal t.journal
  untouched : ∀ k, (∀ r c, (s.line n).slot = some r → c ∈ r.contributors → c.station ≠ k) →
    k ∉ s.members n → t.station k = s.station k

/-- A shift stays closed while its line's record of it and the journal stay as they are. -/
theorem State.ClosedShift.congr {s t u : State} {c : ClosedBank} (h : s.ClosedShift t n b c)
    (hl : (u.line n).staging = (t.line n).staging) (hj : u.journal = t.journal) :
    s.ClosedShift u n b c :=
  { h with
    staged := hl.trans h.staged
    record := by rw [hj]; exact h.record
    settled := by rw [hj]; exact h.settled }

theorem State.ClosedAlone.congr {s t u : State} {c : ClosedBank} (h : s.ClosedAlone t n c)
    (hj : u.journal = t.journal) : s.ClosedAlone u n c :=
  { h with
    record := by rw [hj]; exact h.record
    unrecorded := by rw [hj]; exact h.unrecorded }

theorem LineLive.coherent_candidate_or_down {l : LineLive} (h : l.coherent = true) {r : Stoppage}
    (hr : l.slot = some r) : (∃ e, r.kind = .candidate e) ∨
      (∀ r' e, l.slot = some r' → r'.kind ≠ .candidate e) ∧ l.state = .down := by
  have hc := l.coherent_iff.mp h
  have hslot : l.shape.slot = some r.isRecord := by rw [LineLive.shape, hr]; rfl
  cases hk : r.kind with
  | candidate e => exact .inl ⟨e, rfl⟩
  | record m =>
    have hrec : r.isRecord = true := by rw [Stoppage.isRecord, hk]
    obtain ⟨hstate, -, -⟩ := hc.of_slot hslot
    refine .inr ⟨fun r' e hr' he => ?_, by rw [hrec] at hstate; exact hstate⟩
    rw [← Option.some.inj (hr.symm.trans hr'), hk] at he
    exact nomatch he

/-- The state before the degraded test of a continuation. -/
def State.continued (a : State) (n : LineId) (r : Stoppage) (serial t : Nat) : State :=
  (a.modLine n fun l => { l with slot := some (a.continuation n r serial t) }).openShift n serial t

theorem State.members_of_settings {s t : State} (h : t.settings = s.settings) (n : LineId) :
    t.members n = s.members n := by
  unfold State.members State.positionIn State.stationDef
  rw [h]

theorem State.openShift_tallies (a : State) (n : LineId) (serial t : Nat) {k : StationId}
    (hk : k ∈ a.members n) :
    ((a.openShift n serial t).station k).tally = some StationTally.zero := by
  rw [State.openShift_eq, State.station_openTallies, if_pos (by rw [State.members_modLine]; exact hk)]

theorem State.openShift_station_ne (a : State) (n : LineId) (serial t : Nat) {k : StationId}
    (hk : k ∉ a.members n) : (a.openShift n serial t).station k = a.station k := by
  rw [State.openShift_eq, State.station_openTallies, if_neg (by rw [State.members_modLine]; exact hk)]
  rfl

theorem State.hallAt_of_clock {s t : State} (h : t.clock = s.clock) (u : Nat) :
    t.hallAt u = s.hallAt u := by
  unfold State.hallAt
  rw [h]

theorem State.shiftTurned_none (hb : (s.line n).bank = some b) (hs : (s.line n).slot = none)
    (reason : CloseReason) (deferred : Bool) : ∃ c,
      s.ShiftTurned (s.turnShift n reason deferred s.now) n reason deferred b c := by
  obtain ⟨c, hclosed⟩ := State.closeShift_closed hb reason deferred
  refine ⟨c, ?_⟩
  have honly : s.OnlyLine (s.turnShift n reason deferred s.now) n := .turnShift s n _ _ _
  rw [State.turnShift_none hs] at honly ⊢
  generalize s.closeShift n reason deferred s.now = a at hclosed honly ⊢
  obtain ⟨hjournal, hqueue, -⟩ := a.openShift_books n (serialAfter (s.line n).serial 1) s.now
  have hline := a.line_openShift n (serialAfter (s.line n).serial 1) s.now
  have htally : ∀ k ∈ s.members n, ((a.openShift n (serialAfter (s.line n).serial 1) s.now).station
      k).tally = some StationTally.zero := fun k hk =>
    a.openShift_tallies n _ _ (by rw [State.members_of_settings hclosed.only.same.settings]; exact hk)
  have hstation : ∀ k, k ∉ s.members n → ((a.openShift n (serialAfter (s.line n).serial 1)
      s.now).station k) = a.station k := fun k hk => a.openShift_station_ne n _ _
    (by rw [State.members_of_settings hclosed.only.same.settings]; exact hk)
  have hhall : a.hallAt s.now = s.hall := State.hallAt_of_clock hclosed.only.same.clock s.now
  rw [hhall] at hline
  generalize a.lineNoisy n = noisy at hline
  generalize a.constraintDegraded n = degraded at hline
  generalize a.openShift n (serialAfter (s.line n).serial 1) s.now = t at *
  have hslot : (a.line n).slot = none := by rw [hclosed.rest]
  have hstate : (a.line n).state = (s.line n).state :=
    hclosed.state.1 fun r e hr => nomatch hs.symm.trans hr
  have hplan : (a.line n).plan = (s.line n).plan := by rw [hclosed.rest]
  have hstaging : (t.line n).staging = (a.line n).staging := by rw [hline]; rfl
  exact {
    shift := hclosed.shift.congr hstaging hjournal
    alone := hclosed.alone.congr hjournal
    reason := hclosed.reason
    deferred := hclosed.deferred
    queue := hqueue.trans hclosed.queue
    only := honly
    stamp := by rw [hline]; rfl
    kept := by rw [hline, LineLive.opened, hclosed.rest]
    tallies := htally
    slot := by
      have htslot : (t.line n).slot = (a.line n).slot := by rw [hline]; rfl
      rw [htslot, hslot, hs]
    journal := by rw [hjournal]; exact hclosed.journal
    untouched := fun k hk hm => (hstation k hm).trans (hclosed.untouched k hk)
    next := fun _ hserial => by
      have hbank := (a.line n).newBank_opened s.now noisy degraded
      refine ⟨(a.line n).newBank s.now noisy degraded, ?_⟩
      exact {
        serial := by rw [hline, ← serialAfter_one hserial]; rfl
        stamp := by rw [hline]; rfl
        plan := by rw [hline, ← hplan]; rfl
        bank := by rw [hline]; rfl
        opened := hbank
        plain := fun _ => by
          refine ⟨by rw [hline]; exact hslot, by rw [hline, ← hstate]; rfl, ?_, fun hr => ?_,
            fun hr => ?_, fun p hp hplanned => ?_⟩
          · rw [hline, LineLive.opened, hslot]
          · rw [← hstate] at hr
            unfold LineLive.newBank LineLive.bucket
            rw [if_pos hr, hr]
            exact ⟨rfl, rfl⟩
          · rw [← hstate] at hr
            unfold LineLive.newBank LineLive.bucket
            rw [hr]
            rfl
          · rw [← hstate] at hp
            rw [← hplan] at hplanned
            unfold LineLive.newBank LineLive.bucket
            rw [hp, hplanned]
            rfl
        continued := fun r hr => nomatch hs.symm.trans hr } }

theorem State.continuation_single (a : State) (n : LineId) (r : Stoppage) (serial t : Nat) :
    (a.continuation n r serial t).contributors.length = 1 ∧
    ∀ last, r.contributors.getLast? = some last → (a.continuation n r serial t).contributors =
      [⟨last.station, last.cause, contributorCategory a.settings last.cause, 0⟩] := by
  unfold State.continuation
  refine ⟨rfl, fun last hlast => ?_⟩
  rw [hlast]
  rfl

theorem State.shiftTurned_some (hb : (s.line n).bank = some b) {r : Stoppage}
    (hs : (s.line n).slot = some r) (reason : CloseReason) (deferred : Bool) : ∃ c,
      s.ShiftTurned (s.turnShift n reason deferred s.now) n reason deferred b c := by
  obtain ⟨c, hclosed⟩ := State.closeShift_closed hb reason deferred
  refine ⟨c, ?_⟩
  have honly : s.OnlyLine (s.turnShift n reason deferred s.now) n := .turnShift s n _ _ _
  rw [State.turnShift_some hs] at honly ⊢
  generalize s.closeShift n reason deferred s.now = a at hclosed honly ⊢
  obtain ⟨serial, hserial⟩ : ∃ x, x = serialAfter (s.line n).serial 1 := ⟨_, rfl⟩
  rw [← hserial] at honly ⊢
  obtain ⟨q, hq⟩ : ∃ q, q = a.continuation n r serial s.now := ⟨_, rfl⟩
  rw [← hq] at honly ⊢
  obtain ⟨x, hx⟩ : ∃ x, x = a.modLine n fun l => { l with slot := some q } := ⟨_, rfl⟩
  rw [← hx] at honly ⊢
  have hxline : x.line n = { a.line n with slot := some q } := by
    rw [hx]; exact State.line_modLine_same a n _
  have hxsame : s.SameButLines x := hclosed.only.same.trans
    (by rw [hx]; exact (State.OnlyLine.modLine a n _).same)
  have hxstation : ∀ k, (s.station k).SameButTally (x.station k) := fun k => by
    rw [hx]; exact hclosed.only.stations k
  have hxkept : ∀ k, x.station k = a.station k := fun k => by rw [hx]; rfl
  have hxbooks : x.journal = a.journal ∧ x.queue = a.queue := by rw [hx]; exact ⟨rfl, rfl⟩
  clear hx
  obtain ⟨hjournal, hqueue, -⟩ := x.openShift_books n serial s.now
  have hyline := x.line_openShift n serial s.now
  rw [State.hallAt_of_clock hxsame.clock, hxline] at hyline
  have hytally : ∀ k ∈ s.members n, ((x.openShift n serial s.now).station k).tally =
      some StationTally.zero := fun k hk => x.openShift_tallies n serial s.now
    (by rw [State.members_of_settings hxsame.settings]; exact hk)
  have hystation' : ∀ k, k ∉ s.members n → (x.openShift n serial s.now).station k = a.station k :=
    fun k hk => (x.openShift_station_ne n _ _
      (by rw [State.members_of_settings hxsame.settings]; exact hk)).trans (hxkept k)
  have hyonly : x.OnlyLine (x.openShift n serial s.now) n := .openShift x n _ _
  generalize x.lineNoisy n = noisy at hyline
  generalize x.constraintDegraded n = degraded at hyline
  generalize x.openShift n serial s.now = y at *
  have hysettings : y.settings = s.settings := hyonly.same.settings.trans hxsame.settings
  have hystation : ∀ k, (s.station k).SameButTally (y.station k) := fun k =>
    (hxstation k).trans (hyonly.stations k)
  have hyslot : (y.line n).slot = some q := by rw [hyline]; rfl
  have hmarked := State.degraded_or_newly hyslot
  rw [State.testDegraded_eq] at honly ⊢
  generalize y.newlyDegraded n = d at hmarked honly ⊢
  obtain ⟨t, ht⟩ : ∃ t, t = y.modLine n fun l => l.degrade d := ⟨_, rfl⟩
  rw [← ht] at honly ⊢
  have hline : t.line n = (LineLive.opened { a.line n with slot := some q } serial (s.hallAt s.now)
      s.now noisy degraded).degrade d := by
    rw [ht, ← hyline]; exact State.line_modLine_same y n _
  have htbooks : t.journal = a.journal ∧ t.queue = a.queue := by
    rw [ht]
    exact ⟨hjournal.trans hxbooks.1, hqueue.trans hxbooks.2⟩
  have httally : ∀ k ∈ s.members n, (t.station k).tally = some StationTally.zero := fun k hk => by
    rw [ht]; exact hytally k hk
  have htstation : ∀ k, t.station k = y.station k := fun k => by rw [ht]; rfl
  clear ht
  have hwalkStation : q.walkStation = r.walkStation := by rw [hq]; rfl
  have hasettings : a.settings = s.settings := hclosed.only.same.settings
  have hqmarkers : q.markers = { RecordMarkers.clear with continued := true } := by rw [hq]; rfl
  have htslot : (t.line n).slot = some (q.degrade d) := by rw [hline]; rfl
  exact {
    shift := hclosed.shift.congr (by rw [hline]; rfl) htbooks.1
    alone := hclosed.alone.congr htbooks.1
    reason := hclosed.reason
    deferred := hclosed.deferred
    queue := htbooks.2.trans hclosed.queue
    only := honly
    stamp := by rw [hline]; rfl
    kept := by
      have hkept : (t.line n).deferred = (a.line n).deferred := by rw [hline]; rfl
      rw [hkept, hclosed.rest]
    tallies := httally
    slot := by rw [htslot, hs]; rfl
    journal := by rw [htbooks.1]; exact hclosed.journal
    untouched := fun k hk hm =>
      (htstation k).trans ((hystation' k hm).trans (hclosed.untouched k hk))
    next := fun hcoherent hle => by
      have hdown : (a.line n).state = .down := by
        obtain ⟨e, he⟩ | ⟨hnone, hdown⟩ := LineLive.coherent_candidate_or_down hcoherent hs
        · exact hclosed.state.2 r e hs he
        · exact (hclosed.state.1 hnone).trans hdown
      obtain ⟨hsingle, hcontributor⟩ := a.continuation_single n r serial s.now
      rw [← hq] at hsingle hcontributor
      have hbank := (LineLive.newBank_opened { a.line n with slot := some q } s.now noisy degraded)
      obtain ⟨b', hb'⟩ : ∃ b' : Bank, b' = LineLive.newBank { a.line n with slot := some q } s.now
        noisy degraded := ⟨_, rfl⟩
      have hbooking : b'.booking = .cat q.lastCategory := by
        rw [hb']
        unfold LineLive.newBank LineLive.bucket
        rw [hdown]
        rfl
      rw [← hb'] at hbank
      refine ⟨{ b' with degraded := b'.degraded || d }, ?_⟩
      exact {
        serial := by rw [hline, ← serialAfter_one hle, ← hserial]; rfl
        stamp := by rw [hline]; rfl
        plan := by
          have hplan : (t.line n).plan = (a.line n).plan := by rw [hline]; rfl
          rw [hplan, hclosed.rest]
        bank := by rw [hline, hb']; rfl
        opened := hbank
        plain := fun hnone => nomatch hs.symm.trans hnone
        continued := fun r' hr' => by
          obtain rfl := Option.some.inj (hs.symm.trans hr')
          refine ⟨by rw [hline]; exact hdown, by rw [hline]; rfl, ⟨_, htslot, ?_⟩,
            fun last hlast => ?_⟩
          · exact {
              kind := by rw [hq]; rfl
              start := by
                have hhall : a.hallAt s.now = s.hall :=
                  State.hallAt_of_clock hclosed.only.same.clock s.now
                rw [hq, ← hhall]
                exact ⟨rfl, rfl, rfl⟩
              serial := by rw [hline, hq]; rfl
              cause := by rw [hq]; rfl
              entry := fun k hk => by
                have hentry : (q.degrade d).entryState = a.constraintState n := by rw [hq]; rfl
                rw [hentry]
                unfold State.constraintState State.lineDef at *
                rw [hasettings, hk]
                exact (hclosed.only.stations k).state
              markers := by
                have hm : (q.degrade d).markers =
                  { q.markers with degraded := q.markers.degraded || d } := rfl
                rw [hm, hmarked, hqmarkers, hwalkStation]
                refine ⟨rfl, fun k hk => ?_⟩
                have hcon : y.constraintDegraded n = (s.station k).degraded := by
                  unfold State.constraintDegraded State.lineDef at *
                  rw [hysettings, hk]
                  exact (hystation k).degraded
                rw [hcon, (hystation r.walkStation).degraded]
                rfl
              single := hsingle
              contributor := fun last hlast => (hcontributor last hlast).trans (by rw [hasettings]) }
          · refine hbooking.trans ?_
            rw [Stoppage.lastCategory, hcontributor last hlast, hasettings]
            rfl } }

/-- Every turn of a shift, whatever the slot holds. -/
theorem State.shiftTurned (hb : (s.line n).bank = some b) (reason : CloseReason) (deferred : Bool) :
    ∃ c, s.ShiftTurned (s.turnShift n reason deferred s.now) n reason deferred b c := by
  cases hs : (s.line n).slot with
  | none => exact State.shiftTurned_none hb hs reason deferred
  | some r => exact State.shiftTurned_some hb hs reason deferred

end Turn

end Sys2Proof.Machine

/-! Requests that close shifts: CLOSE-SHIFT (R147 to R149) and DISABLE-LINE (R72). -/

namespace Sys2Proof.Machine

/-! ### What a reply owed leaves of the facts about a shift -/

theorem State.SameButLines.owe {s t : State} (h : s.SameButLines t) (r : Option Reply) :
    s.SameButLines (t.owe r) :=
  ⟨h.settings, h.points, h.inputs, h.installed, h.awaitsFrame, h.clock, h.archive, h.image,
    h.imageStatus, h.guardMode, h.power, h.pins, h.pending⟩

theorem State.Continues.congr {s t u : State} {n : LineId} {r q : Stoppage}
    (h : s.Continues t n r q) (hl : u.line n = t.line n) : s.Continues u n r q :=
  { h with serial := by rw [hl]; exact h.serial }

theorem State.OpenedNext.congr {s t u : State} {n : LineId} {b : Bank} (h : s.OpenedNext t n b)
    (hl : u.line n = t.line n) : s.OpenedNext u n b where
  serial := by rw [hl]; exact h.serial
  stamp := by rw [hl]; exact h.stamp
  plan := by rw [hl]; exact h.plan
  bank := by rw [hl]; exact h.bank
  opened := h.opened
  plain := by rw [hl]; exact h.plain
  continued := fun r hr => by
    obtain ⟨hstate, hnumber, ⟨q, hq, hcontinues⟩, hbooking⟩ := h.continued r hr
    rw [hl]
    exact ⟨hstate, hnumber, ⟨q, hq, hcontinues.congr hl⟩, hbooking⟩

/-! ### CLOSE-SHIFT -/

section Close

variable {s : State} {n : LineId} {line : Byte}

theorem exec_closeShift_refused (h : s.Takes .closeShift) (hl : line.toNat = n.val) {r : Refused}
    (hr : closeRefusal line s = some r) : exec (.closeShift line) s =
      .next (s.owe (some ⟨0xFF, [0x42, r.reason.code, r.detail]⟩)) :=
  congrArg Host.Outcome.next (h.refused (above_none (lineByte_le hl)) hr _)

theorem exec_closeShift_done (h : s.Takes .closeShift) (hl : line.toNat = n.val)
    (hr : closeRefusal line s = none) {t : State} (ht : t = s.turnShift n .request false s.now) :
    exec (.closeShift line) s = .next (t.owe (some ⟨0xC2, line :: (field 4 (s.line n).serial ++
      stamp t.hall ++ field 4 (t.line n).serial ++ optional (fun _ => field 4 1)
        (t.line n).slot)⟩)) := by
  subst ht
  refine congrArg Host.Outcome.next ((h.done (above_none (lineByte_le hl)) hr _).trans ?_)
  simp only [lineOfByte_eq hl]
  rfl

theorem stagingRefusal_some (hl : line.toNat = n.val) (h : (s.line n).staging ≠ none) :
    refuseIf (s.line (lineOfByte line)).staging.isSome .busy line = some ⟨.busy, line⟩ := by
  rw [lineOfByte_eq hl]
  exact refuseIf_eq_some (Option.isSome_iff_ne_none.mpr h) _ _

theorem stagingRefusal_none (hl : line.toNat = n.val) (h : (s.line n).staging = none) :
    refuseIf (s.line (lineOfByte line)).staging.isSome .busy line = none := by
  rw [lineOfByte_eq hl]
  exact refuseIf_eq_none (by rw [h]; rfl) _ _

end Close

/-- Settles O46: the shift turns, and the reply gives both serials. -/
theorem shiftsCloseOnRequest : Obligations.ShiftsCloseOnRequest := by
  refine fun s n line h hl => ⟨fun hs => ?service, fun hs hstaged => ?busy,
    fun b hs hstaged hb hcoherent hserial => ?closed⟩
  case service =>
    exact exec_closeShift_refused h hl (r := ⟨.notInService, line⟩) (by
      rw [closeRefusal, State.notInService_some hl hs, firstRefusal_some])
  case busy =>
    exact exec_closeShift_refused h hl (r := ⟨.busy, line⟩) (by
      rw [closeRefusal, State.notInService_none hl hs, stagingRefusal_some hl hstaged,
        firstRefusal_none, firstRefusal_some])
  case closed =>
    have hr : closeRefusal line s = none := by
      rw [closeRefusal, State.notInService_none hl hs, stagingRefusal_none hl hstaged]
      rfl
    obtain ⟨c, hturn⟩ := State.shiftTurned hb .request false
    obtain ⟨b', hnext⟩ := hturn.next hcoherent hserial
    have hexec := exec_closeShift_done h hl hr rfl
    generalize s.turnShift n .request false s.now = t at hexec hturn hnext
    have hhall : t.hall = s.hall := by
      unfold State.hall State.hallAt State.now
      rw [hturn.only.same.clock]
    have hreply : optional (fun _ => field 4 1) (t.line n).slot =
        if (s.line n).slot = none then [0] else 1 :: field 4 1 := by
      have hslot := hturn.slot
      cases ht : (t.line n).slot <;> cases hs : (s.line n).slot <;>
        simp only [ht, hs, Option.isSome_some, Option.isSome_none] at hslot
      · rfl
      · exact absurd hslot Bool.false_ne_true
      · exact absurd hslot.symm Bool.false_ne_true
      · rfl
    refine ⟨_, c, b', hexec, hturn.shift.congr rfl rfl, hturn.alone.congr rfl, hnext.congr rfl,
      hturn.reason, hturn.deferred, hturn.queue, hturn.tallies,
      fun m => (hturn.only.stations m).state, hturn.only.others, hturn.only.same.owe _, ?_⟩
    rw [State.owe_link, hturn.only.link, hhall, hreply]
    rfl

/-! ### DISABLE-LINE -/

section Disable

variable {s : State} {n : LineId} {line : Byte}

theorem exec_disableLine_refused (h : s.Takes .disableLine) (hl : line.toNat = n.val) {r : Refused}
    (hr : disableRefusal line s = some r) : exec (.disableLine line) s =
      .next (s.owe (some ⟨0xFF, [0x41, r.reason.code, r.detail]⟩)) :=
  congrArg Host.Outcome.next (h.refused (above_none (lineByte_le hl)) hr _)

theorem exec_disableLine_done (h : s.Takes .disableLine) (hl : line.toNat = n.val)
    (hr : disableRefusal line s = none) : exec (.disableLine line) s =
      .next ((s.disable n).owe (some ⟨0xC1, line :: field 4 ((s.disable n).line n).serial⟩)) := by
  refine congrArg Host.Outcome.next ((h.done (above_none (lineByte_le hl)) hr _).trans ?_)
  simp only [lineOfByte_eq hl]
  rfl

end Disable

/-- No station stands twice among the members of a line. -/
theorem State.members_nodup (s : State) (n : LineId) : (s.members n).Nodup := by
  unfold State.members
  dsimp only
  have hfound : ((allStations.filterMap fun k => (s.positionIn n k).map fun p => (p, k)).map
      Prod.snd).Nodup := by
    rw [List.map_filterMap]
    refine (List.nodup_finRange 64).filterMap fun a a' k ha ha' => ?_
    simp only [Option.map_map, Option.mem_def, Option.map_eq_some_iff, Function.comp_apply] at ha ha'
    obtain ⟨-, -, rfl⟩ := ha
    obtain ⟨-, -, rfl⟩ := ha'
    rfl
  have hmem : ∀ q ∈ (allStations.filterMap fun k => (s.positionIn n k).map fun p => (p, k)),
      s.positionIn n q.2 = some q.1 := by
    intro q hq
    obtain ⟨k, -, hk⟩ := List.mem_filterMap.mp hq
    obtain ⟨p, hp, rfl⟩ := Option.map_eq_some_iff.mp hk
    exact hp
  generalize (allStations.filterMap fun k => (s.positionIn n k).map fun p => (p, k)) = found at *
  refine List.nodup_flatMap.mpr ⟨fun p _ => ?_, ?_⟩
  · exact hfound.sublist (List.Sublist.map _ List.filter_sublist)
  · refine (List.nodup_finRange 16).imp fun {p p'} hne => List.disjoint_left.mpr fun k hk hk' => ?_
    obtain ⟨q, hq, rfl⟩ := List.mem_map.mp hk
    obtain ⟨q', hq', heq⟩ := List.mem_map.mp hk'
    obtain ⟨hin, hp⟩ := List.mem_filter.mp hq
    obtain ⟨hin', hp'⟩ := List.mem_filter.mp hq'
    have h1 := hmem q hin
    have h2 := hmem q' hin'
    rw [heq, h1] at h2
    exact hne ((eq_of_beq hp).symm.trans ((Option.some.inj h2).trans (eq_of_beq hp')))

/-- What qualifies an input is read off the settings and the lines in service (R28). -/
theorem State.qualified_congr {s t : State} (hg : t.settings = s.settings)
    (hl : t.lines = s.lines) (i : InputId) : t.qualified i = s.qualified i := by
  unfold State.qualified State.roleOf State.inService State.line State.lineDef State.inputDef
  rw [hg, hl]

theorem State.dropWindows_eq (s : State) : s.dropWindows = { s with inputs := s.dropWindows.inputs } := by
  simp only [State.dropWindows]

theorem State.qualified_dropWindows (s : State) (i : InputId) :
    s.dropWindows.qualified i = s.qualified i := by
  refine State.qualified_congr ?_ ?_ i
  · rw [State.dropWindows_eq]
  · rw [State.dropWindows_eq]

/-- What stopping the stall timers of a line leaves of a member (R54). -/
def StationLive.timerStopped (v : StationLive) (stamp count : Nat) : StationLive :=
  { (if v.state = .stalled then v.change .running stamp count none else v) with
    stallExpiry := none }

theorem State.station_stopTimers (s : State) (n : LineId) (k : StationId) :
    (s.stopTimers n).station k = if k ∈ s.members n then
      (s.station k).timerStopped s.hall s.now else s.station k := by
  refine (State.stations_fold (s0 := s) (φ := fun _ v => v.timerStopped s.hall s.now)
    (fun a m ha => ?_) (s.members n) (s.members_nodup n) s (.refl s)).2 k
  have hhall : a.hall = s.hall := by rw [ha]; rfl
  have hnow : a.now = s.now := by rw [ha]; rfl
  dsimp only
  refine ⟨(ha.trans ?_).trans (.modStation _ m _), ?_, fun j hj => ?_⟩
  · split
    · exact .changeStation a m _
    · exact .refl a
  · rw [State.station_modStation_same, StationLive.timerStopped]
    split
    · rw [State.station_changeStation_same, hhall, hnow]
      rfl
    · rfl
  · rw [State.station_modStation_ne _ hj]
    split
    · exact State.station_changeStation_ne a hj _
    · rfl

theorem StationLive.timerStopped_facts {v : StationLive} (h : v.tally = none) (stamp count : Nat) :
    (v.timerStopped stamp count).tally = none ∧
    (v.timerStopped stamp count).stallExpiry = none ∧
    (v.timerStopped stamp count).state = if v.state = .stalled then .running else v.state := by
  obtain ⟨hstate, htally, -⟩ := v.change_rest .running stamp count none
  unfold StationLive.timerStopped
  by_cases hst : v.state = .stalled
  · simp only [if_pos hst]
    exact ⟨htally.trans (by rw [StationLive.tallyAt, h]; rfl), trivial, hstate⟩
  · simp only [if_neg hst]
    exact ⟨h, trivial, trivial⟩

/-- Settles O45: the shift closes and the line is retired. -/
theorem linesLeaveService : Obligations.LinesLeaveService := by
  refine fun s n line h hl => ⟨fun hs => ?service, fun hs hstaged => ?busy, fun b hs hstaged hb => ?left⟩
  case service =>
    have hstate : (s.line n).state = .outOfService := by
      simpa [State.inService, LineLive.inService] using hs
    refine exec_disableLine_refused h hl (r := ⟨.state, 0⟩) ?_
    rw [disableRefusal, lineOfByte_eq hl]
    rw [refuseIf_eq_some (by rw [hs]; rfl), firstRefusal_some, hstate]
    rfl
  case busy =>
    refine exec_disableLine_refused h hl (r := ⟨.busy, line⟩) ?_
    rw [disableRefusal, stagingRefusal_some hl hstaged, lineOfByte_eq hl]
    rw [refuseIf_eq_none (by rw [hs]; rfl), firstRefusal_none, firstRefusal_some]
  case left =>
    have hr : disableRefusal line s = none := by
      rw [disableRefusal, stagingRefusal_none hl hstaged, lineOfByte_eq hl]
      rw [refuseIf_eq_none (by rw [hs]; rfl)]
      rfl
    obtain ⟨c, hclosed⟩ := State.closeShift_closed hb .disable false
    have hexec := exec_disableLine_done h hl hr
    unfold State.disable at hexec
    extract_lets stamp a v at hexec
    have ha : s.ShiftClosed a n .disable false b c := hclosed
    clear_value a
    clear hclosed
    have hvonly : (a.modLine n fun l => l.retired stamp).OnlyStations v :=
      .foldl (fun s k => .modStation s k _) _ _
    have hvstation : ∀ k ∈ s.members n, v.station k = { a.station k with tally := none } :=
      fun k hk => by
        have hin : k ∈ (a.modLine n fun l => l.retired stamp).members n := by
          rw [State.members_modLine, State.members_of_settings ha.only.same.settings]
          exact hk
        exact (State.station_dropTallies _ n k).trans (if_pos hin)
    clear_value v
    have hwonly := hvonly.trans (.stopTimers v n)
    have hwstation := v.station_stopTimers n
    generalize v.stopTimers n = w at hexec hwonly hwstation
    have hwline : ∀ m, w.line m = (a.modLine n fun l => l.retired stamp).line m := fun m => by
      rw [hwonly]; rfl
    have hsame : s.SameButLines w :=
      (ha.only.same.trans (State.OnlyLine.modLine a n _).same).trans hwonly.same
    have hjournal : w.journal = a.journal := by rw [hwonly]; rfl
    have hqueue : w.queue = a.queue := by rw [hwonly]; rfl
    have hlink : w.link = a.link := by rw [hwonly]; rfl
    have hline : w.line n = (a.line n).retired stamp :=
      (hwline n).trans (State.line_modLine_same a n _)
    have hserial : (w.line n).serial = (s.line n).serial := by
      rw [hline, LineLive.retired, ha.rest]
    clear hwonly
    obtain ⟨t, ht⟩ : ∃ t, t = w.dropWindows := ⟨_, rfl⟩
    have hteq : t = { w with inputs := t.inputs } := by rw [ht]; exact w.dropWindows_eq
    have htline : ∀ m, t.line m = w.line m := fun m => by rw [hteq]; rfl
    have htserial : (t.line n).serial = (s.line n).serial := (congrArg _ (htline n)).trans hserial
    rw [← ht, htserial] at hexec
    have hvsettings : v.settings = s.settings := by
      rw [hvonly]; exact ha.only.same.settings
    refine ⟨_, c, hexec, ha.shift.congr ?_ ?_, ha.alone.congr ?_, ?_⟩
    · rw [State.line_owe, htline, hline]; rfl
    · rw [State.owe_journal, hteq]; exact hjournal
    · rw [State.owe_journal, hteq]; exact hjournal
    have hmembers : ∀ m ∈ s.members n, (t.station m).tally = none ∧
        (t.station m).stallExpiry = none ∧ (t.station m).state =
          if (s.station m).state = .stalled then .running else (s.station m).state := by
      intro m hm
      have htm : t.station m = w.station m := by rw [hteq]; rfl
      have hin : m ∈ v.members n := by rw [State.members_of_settings hvsettings]; exact hm
      have htally : (v.station m).tally = none := by rw [hvstation m hm]
      have hstate : (v.station m).state = (s.station m).state := by
        rw [hvstation m hm]; exact (ha.only.stations m).state
      rw [htm, hwstation, if_pos hin, ← hstate]
      exact StationLive.timerStopped_facts htally _ _
    have hwindows : ∀ i, t.qualified i = none → (t.input i).windows = [] := by
      intro i hi
      have hq : w.qualified i = none := by
        rw [← hi, ht, State.qualified_dropWindows]
      rw [ht, State.input_dropWindows, hq]
      rfl
    have hretired : (t.line n) = (a.line n).retired stamp := (htline n).trans hline
    have hkept : ((a.line n).retired stamp).serial = (s.line n).serial := by
      rw [← hline]; exact hserial
    simp only [State.line_owe, hretired]
    refine ⟨rfl, rfl, hkept, rfl, rfl, rfl, rfl, rfl, ha.reason, ha.deferred, ?_,
      hmembers, hwindows, fun m hm => ?_, ?_⟩
    · rw [State.owe_queue, hteq]; exact hqueue.trans ha.queue
    · rw [htline, hwline, State.line_modLine_ne _ hm, ha.only.others m hm]
    · have htlink : t.link = s.link := by rw [hteq]; exact hlink.trans ha.only.link
      rw [State.owe_link, htlink]
      rw [hteq]
      exact ⟨hsame.settings, hsame.points, hsame.clock, hsame.archive, hsame.guardMode,
        hsame.power, rfl⟩

end Sys2Proof.Machine

/-! The turns of all the lines, one after another (R144 to R146): what the turns of the other lines
leave of one line's shift. BOUNDARY-REACHED, SHIFT-LENGTH-LIMIT, ARCHIVE-WRITE-COMPLETE and
SET-CLOCK. -/

namespace Sys2Proof.Machine

/-! ### The same shift, in two states -/

/-- What the close and the opening of a shift of line `n` read is the same in both states. -/
structure State.SameShift (s a : State) (n : LineId) : Prop where
  settings : a.settings = s.settings
  now : a.clock.count = s.clock.count
  hall : a.hall = s.hall
  line : s.line n = { a.line n with
    staging := (s.line n).staging, deferred := (s.line n).deferred }
  state : ∀ k, (a.station k).state = (s.station k).state
  degraded : ∀ k, (a.station k).degraded = (s.station k).degraded

section SameShift

variable {s a t : State} {n : LineId} {b : Bank} {c : ClosedBank}

theorem State.SameShift.slot (h : s.SameShift a n) : (a.line n).slot = (s.line n).slot := by
  rw [h.line]

theorem State.SameShift.bankView (h : s.SameShift a n) (b : Bank) (u : Nat) :
    a.bankView n b u = s.bankView n b u := by
  unfold State.bankView State.rate State.lineDef
  rw [h.settings]

theorem State.ShiftRecord.of_sameShift (h : s.SameShift a n) {r : Stoppage} {j : JournalRecord}
    (hj : a.ShiftRecord n r j) : s.ShiftRecord n r j :=
  { hj with
    number := by rw [hj.number, h.line]
    duration := by rw [hj.duration, h.now]
    contributors := by rw [hj.contributors, h.now] }

theorem State.ClosedReading.of_sameShift (h : s.SameShift a n) {v : BankView}
    (hv : a.ClosedReading n b v) : s.ClosedReading n b v where
  kept := by
    have hkept := hv.kept
    rw [h.slot, h.bankView, h.now] at hkept
    exact hkept
  promoted := by
    have hpromoted := hv.promoted
    unfold State.lineDef at hpromoted ⊢
    rw [h.slot, h.bankView, h.now, h.settings] at hpromoted
    exact hpromoted

theorem State.ClosedShift.of_sameShift (h : s.SameShift a n) (hc : a.ClosedShift t n b c) :
    s.ClosedShift t n b c where
  staged := hc.staged
  line := hc.line
  serial := by rw [hc.serial, h.line]
  opened := by rw [hc.opened, h.line]
  closed := by rw [hc.closed, h.hall]
  reading := hc.reading.of_sameShift h
  record := fun r hr => by
    obtain ⟨j, hj, hrecord⟩ := hc.record r (by rw [h.slot]; exact hr)
    exact ⟨j, hj, hrecord.of_sameShift h⟩
  settled := fun r hr hn hserial => hc.settled r hr hn (by rw [hserial, h.line])

theorem State.OpenedNext.of_sameShift (h : s.SameShift a n) (ho : a.OpenedNext t n b) :
    s.OpenedNext t n b where
  serial := by rw [ho.serial, h.line]
  stamp := by rw [ho.stamp, h.hall]
  plan := by rw [ho.plan, h.line]
  bank := ho.bank
  opened := ⟨by rw [ho.opened.1, h.now], ho.opened.2⟩
  plain := by
    have hplain := ho.plain
    rw [h.now] at hplain
    rw [h.line]
    exact hplain
  continued := fun r hr => by
    obtain ⟨hstate, hnumber, ⟨q, hq, hcontinues⟩, hbooking⟩ :=
      ho.continued r (by rw [h.slot]; exact hr)
    refine ⟨hstate, hnumber, ⟨q, hq, ?_⟩, fun last hlast => by rw [← h.settings]; exact hbooking last hlast⟩
    exact {
      kind := hcontinues.kind
      start := by rw [← h.hall, ← h.now]; exact hcontinues.start
      serial := hcontinues.serial
      cause := hcontinues.cause
      entry := fun k hk => by
        rw [← h.state]
        exact hcontinues.entry k (by unfold State.lineDef; rw [h.settings]; exact hk)
      markers := ⟨hcontinues.markers.1, fun k hk => by
        rw [← h.degraded, ← h.degraded]
        exact hcontinues.markers.2 k (by unfold State.lineDef; rw [h.settings]; exact hk)⟩
      single := hcontinues.single
      contributor := fun last hlast => by rw [← h.settings]; exact hcontinues.contributor last hlast }

/-- A close that changed no journal but its own reads alike, where the tallies are the same. -/
theorem State.ClosedAlone.of_sameShift (h : s.SameShift a n) (hj : a.journal = s.journal)
    (hk : a.stations = s.stations) (hc : a.ClosedAlone t n c) : s.ClosedAlone t n c where
  record := fun r hr => by
    obtain ⟨j, hlast, hrecord⟩ := hc.record r (by rw [h.slot]; exact hr)
    exact ⟨j, hlast, hrecord.of_sameShift h⟩
  unrecorded := fun hnone => by rw [hc.unrecorded (by rw [h.slot]; exact hnone), hj]
  tallies := fun k hkm => by
    have htally := hc.tallies k (by rw [State.members_of_settings h.settings]; exact hkm)
    unfold State.ClosedTally State.slotContributors State.station at *
    rw [h.slot, h.now, hk] at htally
    exact htally

end SameShift

/-! ### The turns of the lines in order -/

theorem JournalTurn.mem_of_line_ne {n : LineId} {j j' : List JournalRecord}
    (h : JournalTurn n j j') {x : JournalRecord} (hx : x ∈ j') (hn : x.line ≠ n) : x ∈ j := by
  obtain ⟨base, g, hbase, rfl, hg⟩ := h
  obtain ⟨y, hy, rfl⟩ := List.mem_map.mp hx
  obtain ⟨hline, hkept⟩ := hg y
  rw [hline] at hn
  rw [hkept hn]
  obtain rfl | ⟨r, hr, rfl⟩ := hbase
  · exact hy
  · rcases List.mem_append.mp hy with hin | hlast
    · split at hin
      · exact hin
      · exact List.mem_of_mem_tail hin
    · obtain rfl := List.mem_singleton.mp hlast
      exact absurd hr hn

/-- A recent record of another line is one place less recent after a turn. -/
theorem State.Recent.turn {s t : State} {n : LineId} (h : JournalTurn n s.journal t.journal)
    {j : JournalRecord} {m : Nat} (hj : s.Recent j m) (hm : m < 191) (hn : j.line ≠ n) :
    t.Recent j (m + 1) := by
  obtain ⟨base, g, hbase, ht, hg⟩ := h
  obtain ⟨before, after, hs, hlen⟩ := hj
  have hfix : g j = j := (hg j).2 hn
  have hrecent : ∃ before after, base = before ++ j :: after ∧ after.length ≤ m + 1 := by
    obtain rfl | ⟨r, -, rfl⟩ := hbase
    · exact ⟨before, after, hs, by omega⟩
    · split
      next => exact ⟨before, after ++ [r], by rw [hs]; simp, by simp; omega⟩
      next hfull =>
        cases before with
        | nil => rw [hs] at hfull; simp at hfull; omega
        | cons x before => exact ⟨before, after ++ [r], by rw [hs]; simp, by simp; omega⟩
  obtain ⟨before', after', rfl, hlen'⟩ := hrecent
  exact ⟨before'.map g, after'.map g, by rw [ht, List.map_append, List.map_cons, hfix],
    by rw [List.length_map]; exact hlen'⟩

theorem State.recent_of_getLast? {s : State} {j : JournalRecord} (h : s.journal.getLast? = some j) :
    s.Recent j 0 := by
  obtain ⟨before, hs⟩ := List.getLast?_eq_some_iff.mp h
  exact ⟨before, [], hs, le_rfl⟩

theorem State.Recent.mem {s : State} {j : JournalRecord} {m : Nat} (h : s.Recent j m) :
    j ∈ s.journal := by
  obtain ⟨before, after, hs, -⟩ := h
  rw [hs]
  exact List.mem_append_right _ List.mem_cons_self

/-- What the turns of other lines leave of line `n`. -/
structure State.OthersTurned (s t : State) (n : LineId) (count : Nat) : Prop where
  same : s.SameButLines t
  link : t.link = s.link
  line : t.line n = s.line n
  stations : ∀ k, (s.station k).SameButTally (t.station k)
  queue : ∀ w ∈ s.queue, w ∈ t.queue
  records : ∀ x ∈ t.journal, x.line = n → x ∈ s.journal
  recent : ∀ j m, s.Recent j m → m + count < 192 → j.line = n → t.Recent j (m + count)

/-- The turns of lines leave a station of line `n` that none of them charges. -/
theorem State.station_othersTurned {f : State → LineId → State}
    (hf : ∀ s n, State.LineTurn s (f s n) n) {n : LineId} {k : StationId} (l : List LineId)
    (hl : l.Nodup) (hn : n ∉ l) (s : State) (hk : k ∈ s.members n)
    (hc : ∀ m ∈ l, ∀ r c, (s.line m).slot = some r → c ∈ r.contributors → c.station ≠ k) :
    (l.foldl f s).station k = s.station k := by
  induction l generalizing s with
  | nil => rfl
  | cons m l ih =>
    obtain ⟨hm, hl⟩ := List.nodup_cons.mp hl
    have hne : m ≠ n := fun h => hn (h ▸ List.mem_cons_self)
    have hturn := hf s m
    have hone : (f s m).station k = s.station k :=
      hturn.untouched k (hc m List.mem_cons_self) fun hin =>
        hne (Option.some.inj ((State.mem_members.mp hin).symm.trans (State.mem_members.mp hk)))
    refine (ih hl (fun h => hn (List.mem_cons_of_mem m h)) (f s m) ?_ fun i hi r c hr => ?_).trans hone
    · rw [State.members_of_settings hturn.only.same.settings]
      exact hk
    · rw [hturn.only.others i fun h => hm (h ▸ hi)] at hr
      exact hc i (List.mem_cons_of_mem m hi) r c hr

theorem State.othersTurned {f : State → LineId → State}
    (hf : ∀ s n, State.LineTurn s (f s n) n) {n : LineId} (l : List LineId) (hn : n ∉ l)
    (s : State) : s.OthersTurned (l.foldl f s) n l.length := by
  induction l generalizing s with
  | nil =>
    exact ⟨.refl s, rfl, rfl, fun _ => .refl _, fun _ => id, fun _ h _ => h, fun _ _ h _ _ => h⟩
  | cons m l ih =>
    have hne : n ≠ m := fun h => hn (h ▸ List.mem_cons_self)
    have hturn := hf s m
    have hrest := ih (fun h => hn (List.mem_cons_of_mem m h)) (f s m)
    exact {
      same := hturn.only.same.trans hrest.same
      link := hrest.link.trans hturn.only.link
      line := hrest.line.trans (hturn.only.others n hne)
      stations := fun k => (hturn.only.stations k).trans (hrest.stations k)
      queue := fun w hw => hrest.queue w (hturn.queue w hw)
      records := fun x hx hxn => hturn.journal.mem_of_line_ne (hrest.records x hx hxn)
        (by rw [hxn]; exact hne)
      recent := fun j i hj hi hjn => by
        rw [List.length_cons] at hi ⊢
        have hstep := hj.turn hturn.journal (by omega) (by rw [hjn]; exact hne)
        have hafter := hrest.recent j (i + 1) hstep (by omega) hjn
        rw [show i + (l.length + 1) = i + 1 + l.length by omega]
        exact hafter }

/-- Line `n`'s turn among all of them: the lines before it, its own, and those after it. -/
theorem State.turn_of_all {f : State → LineId → State} (hf : ∀ s n, State.LineTurn s (f s n) n)
    (s : State) (n : LineId) : ∃ a, s.SameShift a n ∧ s.SameButLines a ∧
      a.line n = s.line n ∧ (∀ k, (s.station k).SameButTally (a.station k)) ∧
      (∀ k, s.ChargedOnlyBy n k → k ∈ s.members n → a.station k = s.station k) ∧
      (∀ w ∈ s.queue, w ∈ a.queue) ∧
      ∃ count, count < 8 ∧ (f a n).OthersTurned (allLines.foldl f s) n count := by
  obtain ⟨before, after, hall⟩ := List.mem_iff_append.mp (mem_allLines n)
  have hnodup : (before ++ n :: after).Nodup := hall ▸ List.nodup_finRange 8
  have hlen : (before ++ n :: after).length = 8 := hall ▸ rfl
  obtain ⟨hbefore, hafter, hdisjoint⟩ := List.nodup_append.mp hnodup
  have hnb : n ∉ before := fun h => hdisjoint n h n List.mem_cons_self rfl
  have hna : n ∉ after := (List.nodup_cons.mp hafter).1
  have hfirst := State.othersTurned hf before hnb s
  have hcharged : ∀ k, s.ChargedOnlyBy n k → k ∈ s.members n →
      (before.foldl f s).station k = s.station k := fun k hcharged hk =>
    State.station_othersTurned hf before hbefore hnb s hk fun m hm r c =>
      hcharged m r c fun h => hnb (h ▸ hm)
  refine ⟨before.foldl f s, ?_, hfirst.same, hfirst.line, hfirst.stations, hcharged, hfirst.queue,
    after.length, by simp at hlen; omega, ?_⟩
  · have hhall : (before.foldl f s).hall = s.hall := by
      unfold State.hall State.hallAt State.now
      rw [hfirst.same.clock]
    exact ⟨hfirst.same.settings, by rw [hfirst.same.clock], hhall, by rw [hfirst.line],
      fun k => (hfirst.stations k).state, fun k => (hfirst.stations k).degraded⟩
  · rw [hall, List.foldl_append, List.foldl_cons]
    exact State.othersTurned hf after hna _

/-- A shift closed in its line's turn is closed after the turns of the others. -/
theorem State.ClosedShift.afterOthers {s b t : State} {n : LineId} {k : Bank} {c : ClosedBank}
    (h : s.ClosedShift b n k c) (ha : ∀ r, (s.line n).slot = some r →
      ∃ j, b.journal.getLast? = some j ∧ s.ShiftRecord n r j) {count : Nat} (hcount : count < 8)
    (ht : b.OthersTurned t n count) : s.ClosedShift t n k c :=
  { h with
    staged := by rw [ht.line]; exact h.staged
    record := fun r hr => by
      obtain ⟨j, hj, hrecord⟩ := ha r hr
      exact ⟨j, (ht.recent j 0 (State.recent_of_getLast? hj) (by omega) hrecord.line).mem, hrecord⟩
    settled := fun r hr hn => h.settled r (ht.records r hr hn) hn }

theorem State.ShiftTurned.lineTurn {s t : State} {n : LineId} {reason : CloseReason}
    {deferred : Bool} {b : Bank} {c : ClosedBank} (h : s.ShiftTurned t n reason deferred b c) :
    s.LineTurn t n where
  only := h.only
  queue := fun w hw => by rw [h.queue]; exact List.mem_append_left _ hw
  journal := h.journal
  untouched := h.untouched

theorem State.stage_books (s : State) (n : LineId) (reason : CloseReason) (deferred : Bool)
    (t : Nat) : (s.stage n reason deferred t).journal = s.journal ∧
      (∀ w ∈ s.queue, w ∈ (s.stage n reason deferred t).queue) ∧
      (s.stage n reason deferred t).stations = s.stations := by
  unfold State.stage
  split
  · exact ⟨rfl, fun _ => id, rfl⟩
  · rw [State.queueJoin_eq]
    exact ⟨rfl, fun w hw => List.mem_append_left _ hw, rfl⟩

theorem State.closeShift_turn (s : State) (n : LineId) (reason : CloseReason) (deferred : Bool) :
    (∀ w ∈ s.queue, w ∈ (s.closeShift n reason deferred s.now).queue) ∧
    JournalTurn n s.journal (s.closeShift n reason deferred s.now).journal ∧
    ∀ k, (∀ r c, (s.line n).slot = some r → c ∈ r.contributors → c.station ≠ k) →
      (s.closeShift n reason deferred s.now).station k = s.station k := by
  have hu := s.slotSettled n
  have hclose : s.closeShift n reason deferred s.now = ((s.settleSlot n s.now).lapseShift n
    ((s.settleSlot n s.now).line n).serial).stage n reason deferred s.now := rfl
  rw [hclose]
  clear hclose
  generalize s.settleSlot n s.now = u at hu ⊢
  obtain ⟨hj, hq, hk⟩ := (u.lapseShift n (u.line n).serial).stage_books n reason deferred s.now
  refine ⟨fun w hw => hq w ?_, by rw [hj]; exact hu.journal _, fun k hc => ?_⟩
  · have hqueue : (u.lapseShift n (u.line n).serial).queue = s.queue := hu.queue.1
    rw [hqueue]
    exact hw
  · rw [← hu.untouched k hc]
    unfold State.station
    rw [hk]
    rfl

theorem State.turnShift_turn (s : State) (n : LineId) (reason : CloseReason) (deferred : Bool) :
    s.LineTurn (s.turnShift n reason deferred s.now) n := by
  have honly : s.OnlyLine (s.turnShift n reason deferred s.now) n := .turnShift s n _ _ _
  obtain ⟨hqueue, hjournal, huntouched⟩ := s.closeShift_turn n reason deferred
  have hcloseonly : s.OnlyLine (s.closeShift n reason deferred s.now) n := .closeShift s n _ _ _
  have hmembers : ∀ {u : State}, u.settings = s.settings → ∀ {k}, k ∉ s.members n →
      k ∉ u.members n := fun hg _ hk => by rw [State.members_of_settings hg]; exact hk
  cases hs : (s.line n).slot with
  | none =>
    rw [State.turnShift_none hs] at honly ⊢
    generalize s.closeShift n reason deferred s.now = a at *
    obtain ⟨hj, hq, -⟩ := a.openShift_books n (serialAfter (s.line n).serial 1) s.now
    refine ⟨honly, by rw [hq]; exact hqueue, by rw [hj]; exact hjournal, fun k hc hk => ?_⟩
    rw [a.openShift_station_ne n _ _ (hmembers hcloseonly.same.settings hk)]
    exact huntouched k hc
  | some r =>
    rw [State.turnShift_some hs] at honly ⊢
    generalize s.closeShift n reason deferred s.now = a at *
    obtain ⟨x, hx⟩ : ∃ x, x = a.modLine n fun l => { l with
      slot := some (a.continuation n r (serialAfter (s.line n).serial 1) s.now) } := ⟨_, rfl⟩
    have hxrest : x = { a with lines := x.lines } := by rw [hx]; rfl
    rw [← hx] at honly ⊢
    clear hx
    obtain ⟨hj, hq, -⟩ := x.openShift_books n (serialAfter (s.line n).serial 1) s.now
    have hxset : x.settings = s.settings := by rw [hxrest]; exact hcloseonly.same.settings
    have hxj : x.journal = a.journal := by rw [hxrest]
    have hxq : x.queue = a.queue := by rw [hxrest]
    have hxk : ∀ k, x.station k = a.station k := fun k => by rw [hxrest]; rfl
    rw [State.testDegraded_eq] at honly ⊢
    refine ⟨honly, fun w hw => ?_, ?_, fun k hc hk => ?_⟩
    · rw [State.modLine_queue, hq, hxq]; exact hqueue w hw
    · rw [State.modLine_journal, hj, hxj]; exact hjournal
    · rw [State.station_modLine, x.openShift_station_ne n _ _ (hmembers hxset hk), hxk]
      exact huntouched k hc

/-! ### SHIFT-LENGTH-LIMIT -/

theorem State.lengthDue_iff {s : State} {n : LineId} {b : Bank} (hb : (s.line n).bank = some b) :
    s.lengthDue n = true ↔
      b.openCount + 267840000 ≤ s.clock.count ∧ (s.line n).staging = none := by
  have hlimit : Config.shiftLimit = 267840000 := rfl
  simp only [State.lengthDue, hb, hlimit, Bool.and_eq_true, decide_eq_true_eq,
    Option.isNone_iff_eq_none]
  rfl

theorem State.lengthDue_none {s : State} {n : LineId} (hb : (s.line n).bank = none) :
    s.lengthDue n = false := by
  simp only [State.lengthDue, hb]

theorem State.takeLimit_turn (s : State) (n : LineId) : s.LineTurn (s.takeLimit n) n := by
  unfold State.takeLimit
  split
  · exact s.turnShift_turn n .length false
  · exact .refl s n

theorem exec_shiftLengthLimit {s : State} (hrun : s.power.running = true) (n : LineId) :
    exec (.shiftLengthLimit n) s = .next (s.takeLimit n) := by
  have hexec : exec (.shiftLengthLimit n) s =
    .next (if s.power.running then s.takeLimit n else s) := rfl
  rw [hexec, if_pos hrun]

theorem State.takeLimit_before {s : State} {n : LineId} {b : Bank} (hb : (s.line n).bank = some b)
    (h : s.clock.count < b.openCount + 267840000) : s.takeLimit n = s := by
  unfold State.takeLimit
  rw [if_neg fun hdue => by have := ((State.lengthDue_iff hb).mp hdue).1; omega]

theorem State.takeLimit_due {s : State} {n : LineId} {b : Bank} (hb : (s.line n).bank = some b)
    (hs : (s.line n).staging = none) (h : b.openCount + 267840000 ≤ s.clock.count) :
    s.takeLimit n = s.turnShift n .length false s.now := by
  unfold State.takeLimit
  rw [if_pos ((State.lengthDue_iff hb).mpr ⟨h, hs⟩)]

/-! ### BOUNDARY-REACHED -/

theorem State.lineBoundary_turn (s : State) (n : LineId) : s.LineTurn (s.lineBoundary n) n := by
  unfold State.lineBoundary
  split
  · exact .refl s n
  · split
    · exact ⟨.modLine s n _, fun _ => id, .refl n _, fun _ _ _ => rfl⟩
    · exact s.turnShift_turn n .boundary false

theorem State.lineBoundary_outOfService {s : State} {n : LineId} (h : s.inService n = false) :
    s.lineBoundary n = s := by
  unfold State.lineBoundary
  rw [h]
  rfl

theorem State.lineBoundary_staged {s : State} {n : LineId} (h : s.inService n = true)
    (hs : (s.line n).staging ≠ none) :
    s.lineBoundary n = s.modLine n fun l => { l with deferred := true } := by
  unfold State.lineBoundary
  rw [h, Bool.not_true, if_neg Bool.false_ne_true, if_pos (Option.isSome_iff_ne_none.mpr hs)]

theorem State.lineBoundary_free {s : State} {n : LineId} (h : s.inService n = true)
    (hs : (s.line n).staging = none) :
    s.lineBoundary n = s.turnShift n .boundary false s.now := by
  unfold State.lineBoundary
  rw [h, Bool.not_true, if_neg Bool.false_ne_true, hs, if_neg (by exact Bool.false_ne_true)]

/-- The clock of a part that has taken the boundary `b`. -/
def State.boundaryClock (s : State) (b : Nat) : Clock :=
  { s.clock with
    lastBoundary := some b
    nextBoundary := if s.clock.isSet then
        firstBoundaryAfter s.settings.schedule (max s.hall b)
      else none }

theorem State.takeBoundary_eq (s : State) (b : Nat) : s.takeBoundary b =
    allLines.foldl State.lineBoundary { s with clock := s.boundaryClock b } := rfl

/-- What a line makes of a boundary, and what the other lines leave of it. -/
structure State.BoundaryTaken (s t : State) (n : LineId) : Prop where
  outOfService : s.inService n = false → t.line n = s.line n
  staged : s.inService n = true → (s.line n).staging ≠ none →
    t.line n = { s.line n with deferred := true }
  closed : ∀ b1, s.inService n = true → (s.line n).staging = none → (s.line n).bank = some b1 →
    (t.line n).openStamp = some s.hall ∧ WriteItem.bank n ∈ t.queue ∧
    ∃ c, s.ClosedShift t n b1 c ∧ c.reason = .boundary ∧ c.deferred = false ∧
      (∀ k ∈ s.members n, s.ChargedOnlyBy n k → s.ClosedTally n c k) ∧
      ((s.line n).coherent = true → (s.line n).serial ≤ 4294967295 →
        ∃ b2, s.OpenedNext t n b2)

theorem State.boundaryTaken (s : State) (n : LineId) :
    s.BoundaryTaken (allLines.foldl State.lineBoundary s) n := by
  obtain ⟨a, hshift, -, hline, -, hcharged, hqueue, count, hcount, hothers⟩ :=
    State.turn_of_all State.lineBoundary_turn s n
  have hservice : a.inService n = s.inService n := by unfold State.inService; rw [hline]
  generalize allLines.foldl State.lineBoundary s = t at *
  refine ⟨fun hs => ?_, fun hs hstaged => ?_, fun b1 hs hstaged hb => ?_⟩
  · rw [hothers.line, State.lineBoundary_outOfService (hservice.trans hs), hline]
  · rw [hothers.line, State.lineBoundary_staged (hservice.trans hs) (by rw [hline]; exact hstaged),
      State.line_modLine_same, hline]
  · rw [State.lineBoundary_free (hservice.trans hs) (by rw [hline]; exact hstaged)] at hothers
    obtain ⟨c, hturn⟩ := State.shiftTurned (s := a) (n := n) (b := b1) (by rw [hline]; exact hb)
      .boundary false
    generalize a.turnShift n .boundary false a.now = u at hothers hturn
    refine ⟨?_, hothers.queue _ ?_, c,
      (hturn.shift.of_sameShift hshift).afterOthers (fun r hr => ?_) hcount hothers, hturn.reason, hturn.deferred,
      fun k hk hc => ?_, fun hcoherent hserial => ?_⟩
    · rw [hothers.line, hturn.stamp, hshift.hall]
    · rw [hturn.queue]
      exact List.mem_append_right _ List.mem_cons_self
    · obtain ⟨j, hj, hrecord⟩ := hturn.alone.record r (by rw [hline]; exact hr)
      exact ⟨j, hj, hrecord.of_sameShift hshift⟩
    · have htally := hturn.alone.tallies k (by
        rw [State.members_of_settings hshift.settings]; exact hk)
      unfold State.ClosedTally State.slotContributors at *
      rw [hcharged k hc hk, hline, hshift.now] at htally
      exact htally
    · obtain ⟨b2, hnext⟩ := hturn.next (by rw [hline]; exact hcoherent)
        (by rw [hline]; exact hserial)
      exact ⟨b2, (hnext.of_sameShift hshift).congr hothers.line⟩

theorem State.takeBoundary_sameShift (s : State) (b : Nat) (n : LineId) :
    s.SameShift { s with clock := s.boundaryClock b } n :=
  ⟨rfl, rfl, rfl, rfl, fun _ => rfl, fun _ => rfl⟩

/-- The line's part in a boundary does not rest on which boundary the clock holds. -/
theorem State.BoundaryTaken.of_clock {s t : State} {n : LineId} {b : Nat}
    (h : State.BoundaryTaken { s with clock := s.boundaryClock b } t n) : s.BoundaryTaken t n where
  outOfService := h.outOfService
  staged := h.staged
  closed := fun b1 hs hstaged hb => by
    obtain ⟨hstamp, hqueue, c, hc, hreason, hdeferred, htallies, hnext⟩ := h.closed b1 hs hstaged hb
    have hshift := s.takeBoundary_sameShift b n
    refine ⟨hstamp, hqueue, c, hc.of_sameShift hshift, hreason, hdeferred, htallies,
      fun hcoherent hserial => ?_⟩
    obtain ⟨b2, hb2⟩ := hnext hcoherent hserial
    exact ⟨b2, hb2.of_sameShift hshift⟩

theorem State.takeBoundary_taken (s : State) (b : Nat) (n : LineId) :
    s.BoundaryTaken (s.takeBoundary b) n := by
  rw [State.takeBoundary_eq]
  exact (State.boundaryTaken _ n).of_clock

/-- What a boundary leaves of the rest of the state. -/
theorem State.takeBoundary_rest (s : State) (b : Nat) :
    State.SameButLines { s with clock := s.boundaryClock b } (s.takeBoundary b) ∧
      (s.takeBoundary b).link = s.link ∧
      ∀ k, (s.station k).SameButTally ((s.takeBoundary b).station k) := by
  rw [State.takeBoundary_eq]
  have hfold : ∀ (l : List LineId) (u : State), u.SameButLines (l.foldl State.lineBoundary u) ∧
      (l.foldl State.lineBoundary u).link = u.link ∧
      ∀ k, (u.station k).SameButTally ((l.foldl State.lineBoundary u).station k) := by
    intro l
    induction l with
    | nil => exact fun u => ⟨.refl u, rfl, fun _ => .refl _⟩
    | cons n l ih =>
      intro u
      have hturn := (u.lineBoundary_turn n).only
      obtain ⟨hsame, hlink, hk⟩ := ih (u.lineBoundary n)
      exact ⟨hturn.same.trans hsame, hlink.trans hturn.link,
        fun k => (hturn.stations k).trans (hk k)⟩
  exact hfold allLines _

theorem exec_boundaryReached {s : State} (hrun : s.power.running = true) {b : Nat}
    (hb : s.clock.nextBoundary = some b) :
    exec .boundaryReached s = .next (if b ≤ s.hall then s.takeBoundary b else s) := by
  have hexec : exec .boundaryReached s = .next (if s.power.running then
      match s.boundaryDue with
      | some b => s.takeBoundary b
      | none => s
    else s) := rfl
  rw [hexec, if_pos hrun]
  by_cases hle : b ≤ s.hall
  · have hdue : s.boundaryDue = some b := by
      simp [State.boundaryDue, hb, hle]
    rw [hdue, if_pos hle]
  · have hdue : s.boundaryDue = none := by
      simp [State.boundaryDue, hb, not_le.mp hle]
    rw [hdue, if_neg hle]

/-- Settles O56: a boundary is handed to every line in turn, and a limit closes one line's shift. -/
theorem boundariesAndLimitsCloseShifts : Obligations.BoundariesAndLimitsCloseShifts := by
  refine fun s hrun => ⟨fun b hb => ⟨fun hbefore => ?early, fun hpast => ?reached⟩,
    fun n b hb hstaged => ⟨fun hbefore => ?within, fun hpast => ?limit⟩⟩
  case early => rw [exec_boundaryReached hrun hb, if_neg (not_le.mpr hbefore)]
  case reached =>
    rw [exec_boundaryReached hrun hb, if_pos hpast]
    have htaken := fun n => s.takeBoundary_taken b n
    obtain ⟨hsame, hlink, hstations⟩ := s.takeBoundary_rest b
    generalize s.takeBoundary b = t at htaken hsame hlink hstations
    exact ⟨t, rfl, hsame.clock, fun n => ⟨(htaken n).outOfService, (htaken n).staged,
      (htaken n).closed⟩, fun k => (hstations k).state, hsame.settings, hsame.points, hsame.inputs,
      hsame.archive, hlink, hsame.power⟩
  case within =>
    rw [exec_shiftLengthLimit hrun, State.takeLimit_before hb hbefore]
  case limit =>
    rw [exec_shiftLengthLimit hrun, State.takeLimit_due hb hstaged hpast]
    obtain ⟨c, hturn⟩ := State.shiftTurned hb .length false
    exact ⟨_, c, rfl, hturn.shift, hturn.alone, hturn.reason, hturn.deferred, hturn.next,
      hturn.stamp, hturn.queue, hturn.only.others, hturn.only.same, hturn.only.link⟩

/-! ### ARCHIVE-WRITE-COMPLETE -/

section Archive

variable {s : State} {n : LineId} {rest : List WriteItem} {c : ClosedBank}

/-- The state after the write of the staged bank of line `n`. -/
def State.written (s : State) (n : LineId) (rest : List WriteItem) (c : ClosedBank) : State :=
  { s with
    archive := Tab.modify s.archive n fun es => (⟨c, crc16 c.contents⟩ :: es).take 8
    queue := rest
    settingsCopy := if rest.head? = some .settings then some s.settings else none
    lines := Tab.set s.lines n { s.line n with staging := none } }

theorem State.bankWritten_eq (hq : s.queue = .bank n :: rest) (hc : (s.line n).staging = some c) :
    s.bankWritten n = s.written n rest c := by
  unfold State.bankWritten State.queuePop
  simp only [hc]
  rw [State.serveHead_eq]
  have htail : s.queue.drop 1 = rest := by rw [hq]; rfl
  dsimp only
  rw [State.modLine_queue, htail]
  rfl

theorem exec_archiveWriteComplete (hmain : s.power.main = true) (hreset : s.power.reset = false)
    (hq : s.queue = .bank n :: rest) (hc : (s.line n).staging = some c) :
    exec .archiveWriteComplete s = .next ((s.written n rest c).afterWrite n) := by
  have hserves : s.serves = true := by simp [State.serves, hmain, hreset]
  rw [← State.bankWritten_eq hq hc]
  simp only [exec, execArchiveWriteComplete, hserves, hq, if_true]

end Archive

theorem State.line_written (s : State) (n : LineId) (rest : List WriteItem) (c : ClosedBank) :
    (s.written n rest c).line n = { s.line n with staging := none } := Tab.get_set_same _ n _

theorem LineLive.coherent_undeferred {l : LineLive} (h : l.coherent = true) :
    LineLive.coherent { l with staging := none, deferred := false } = true := by
  rw [LineLive.coherent_iff] at h ⊢
  by_cases hst : l.shape.state = .outOfService
  · obtain ⟨hslot, hplan, hbank, -⟩ := h.outOfService hst
    have hstate : l.state = .outOfService := hst
    unfold LineShape.coherent
    simp only [LineLive.shape, hstate]
    exact ⟨hslot, hplan, hbank, trivial⟩
  · exact LineShape.coherent_deferred h hst false

/-- Settles O57: the entry is stored, and a deferred boundary closes the shift that runs. -/
theorem archiveWritesComplete : Obligations.ArchiveWritesComplete := by
  intro s n rest c hmain hreset hq hc
  have hexec := exec_archiveWriteComplete hmain hreset hq hc
  have hline := s.line_written n rest c
  have hsame : (s.written n rest c).settings = s.settings ∧ (s.written n rest c).points = s.points ∧
      (s.written n rest c).inputs = s.inputs ∧ (s.written n rest c).clock = s.clock ∧
      (s.written n rest c).image = s.image ∧ (s.written n rest c).link = s.link ∧
      (s.written n rest c).power = s.power := ⟨rfl, rfl, rfl, rfl, rfl, rfl, rfl⟩
  have harchive : Tab.get (s.written n rest c).archive n =
      (⟨c, crc16 c.contents⟩ :: Tab.get s.archive n).take 8 := Tab.get_modify_same _ n _
  have hothers : ∀ m, m ≠ n → Tab.get (s.written n rest c).archive m = Tab.get s.archive m :=
    fun m hm => Tab.get_modify_ne _ hm _
  have hwritten : s.written n rest c = { s with
      archive := (s.written n rest c).archive
      queue := rest
      settingsCopy := if rest.head? = some .settings then some s.settings else none
      lines := Tab.set s.lines n { s.line n with staging := none } } := rfl
  generalize s.written n rest c = w at *
  obtain ⟨hsettings, hpoints, hinputs, hclock, himage, hlink, hpower⟩ := hsame
  by_cases hplain : (s.line n).deferred = false ∨ s.power.running = false
  · have hafter : w.afterWrite n = w := by
      unfold State.afterWrite State.takeDeferred
      rw [hpower, hline]
      obtain hd | hr := hplain
      · rw [hd, if_neg Bool.false_ne_true, ite_self]
      · rw [hr, if_neg Bool.false_ne_true]
    rw [hafter] at hexec
    refine ⟨w, hexec, harchive, hothers, fun _ => hwritten, fun b hd hr => ?_, hsettings, hpoints,
      hinputs, hclock, himage, hlink, hpower⟩
    rw [hd, hr] at hplain
    simp at hplain
  · rw [not_or] at hplain
    have hd : (s.line n).deferred = true := by simpa using hplain.1
    have hr : s.power.running = true := by simpa using hplain.2
    have hafter : w.afterWrite n =
        (w.modLine n fun l => { l with deferred := false }).turnShift n .boundary true
          (w.modLine n fun l => { l with deferred := false }).now := by
      unfold State.afterWrite State.takeDeferred
      rw [hpower, hline, hr, if_pos rfl, if_pos hd]
      rfl
    obtain ⟨a, ha⟩ : ∃ a, a = w.modLine n fun l => { l with deferred := false } := ⟨_, rfl⟩
    rw [hafter, ← ha] at hexec
    have haline : a.line n = { s.line n with staging := none, deferred := false } := by
      rw [ha, State.line_modLine_same, hline]
    have hastations : a.stations = s.stations := by rw [ha, hwritten]; rfl
    have hajournal : a.journal = s.journal := by rw [ha, hwritten]; rfl
    have haqueue : a.queue = rest := by rw [ha, hwritten]; rfl
    have hasame : w.SameButLines a := by rw [ha]; exact (State.OnlyLine.modLine w n _).same
    have halink : a.link = w.link := by rw [ha]; rfl
    have hstation : ∀ k, a.station k = s.station k := fun k => by
      unfold State.station; rw [hastations]
    have hshift : s.SameShift a n := by
      have haclock : a.clock = s.clock := hasame.clock.trans hclock
      refine ⟨hasame.settings.trans hsettings, by rw [haclock], ?_, by rw [haline],
        fun k => by rw [hstation], fun k => by rw [hstation]⟩
      unfold State.hall State.hallAt State.now
      rw [haclock]
    clear ha hafter
    have honly : a.OnlyLine (a.turnShift n .boundary true a.now) n := .turnShift a n _ _ _
    have hturn := fun (b : Bank) (hb : (s.line n).bank = some b) =>
      State.shiftTurned (s := a) (n := n) (b := b) (by rw [haline]; exact hb) .boundary true
    generalize a.turnShift n .boundary true a.now = t at hexec honly hturn
    refine ⟨t, hexec, ?_, fun m hm => ?_, fun h => ?_, fun b _ _ hb => ?_,
      honly.same.settings.trans (hasame.settings.trans hsettings),
      honly.same.points.trans (hasame.points.trans hpoints),
      honly.same.inputs.trans (hasame.inputs.trans hinputs),
      honly.same.clock.trans (hasame.clock.trans hclock),
      honly.same.image.trans (hasame.image.trans himage), honly.link.trans (halink.trans hlink),
      honly.same.power.trans (hasame.power.trans hpower)⟩
    · rw [honly.same.archive, hasame.archive]; exact harchive
    · rw [honly.same.archive, hasame.archive]; exact hothers m hm
    · rw [hd, hr] at h
      simp at h
    · obtain ⟨c', hc'⟩ := hturn b hb
      refine ⟨by rw [hc'.queue, haqueue], by rw [hc'.kept, haline],
        ⟨c', hc'.shift.of_sameShift hshift, hc'.alone.of_sameShift hshift hajournal hastations,
          hc'.reason, hc'.deferred⟩, fun hcoherent hserial => ?_⟩
      obtain ⟨b', hb'⟩ := hc'.next (by rw [haline]; exact LineLive.coherent_undeferred hcoherent)
        (by rw [haline]; exact hserial)
      exact ⟨b', hb'.of_sameShift hshift⟩

end Sys2Proof.Machine

/-! SET-CLOCK (R141, R144): the hall clock, the next boundary formed afresh, and the one boundary that
a set clock takes when it is carried past it. -/

namespace Sys2Proof.Machine

/-- The state whose hall clock has been set, before a boundary is formed or taken. -/
def State.hallSet (s : State) (hall : Nat) : State :=
  { s with clock := { s.clock with offset := s.offsetFor hall, isSet := true } }

/-- The offset is the one with which the hall clock reads the time given (R141). -/
theorem State.hall_hallSet (s : State) (h : BitVec 48) : (s.hallSet h.toNat).hall = h.toNat := by
  have hlt := h.isLt
  have hmod : Config.clockModulus = 281474976710656 := rfl
  have hhall : (s.hallSet h.toNat).hall = (s.now + (h.toNat +
      (Config.clockModulus - s.now % Config.clockModulus)) % Config.clockModulus) %
      Config.clockModulus := rfl
  rw [hhall, hmod]
  omega

theorem State.setHall_of_no_jump {s : State} {hall : Nat} (h : s.jumpBoundary hall = none) :
    s.setHall hall = (s.hallSet hall).formBoundary := by
  unfold State.setHall
  rw [h]
  rfl

theorem State.setHall_of_jump {s : State} {hall v : Nat} (h : s.jumpBoundary hall = some v) :
    s.setHall hall = (s.hallSet hall).takeBoundary v := by
  unfold State.setHall
  rw [h]
  rfl

theorem State.jumpBoundary_none {s : State} {hall : Nat}
    (h : s.clock.isSet = false ∨ ∀ b, s.clock.nextBoundary = some b → hall < b) :
    s.jumpBoundary hall = none := by
  unfold State.jumpBoundary
  refine if_neg fun hjump => ?_
  obtain ⟨hset, hany⟩ := Bool.and_eq_true_iff.mp hjump
  obtain hunset | hbefore := h
  · rw [hunset] at hset
    exact Bool.false_ne_true hset
  · cases hb : s.clock.nextBoundary with
    | none => rw [hb] at hany; exact Bool.false_ne_true hany
    | some b =>
      rw [hb] at hany
      exact absurd (hbefore b hb) (not_lt.mpr (of_decide_eq_true hany))

theorem State.jumpBoundary_some {s : State} {hall b : Nat} (hset : s.clock.isSet = true)
    (hb : s.clock.nextBoundary = some b) (hle : b ≤ hall) :
    s.jumpBoundary hall = lastBoundaryBy s.settings.schedule hall := by
  unfold State.jumpBoundary
  rw [hset, hb]
  exact if_pos (decide_eq_true hle)

/-- The clock after SET-CLOCK. -/
theorem State.setHall_clock (s : State) (h : BitVec 48) :
    (s.setHall h.toNat).clock = { s.clock with
      offset := s.offsetFor h.toNat
      isSet := true
      lastBoundary := (s.setHall h.toNat).clock.lastBoundary
      nextBoundary := firstBoundaryAfter s.settings.schedule
        (max h.toNat ((s.setHall h.toNat).clock.lastBoundary.getD 0)) } := by
  have hhall := s.hall_hallSet h
  cases hjump : s.jumpBoundary h.toNat with
  | none =>
    rw [State.setHall_of_no_jump hjump, State.formBoundary_clock]
    unfold State.nextBoundary
    rw [hhall]
    rfl
  | some v =>
    rw [State.setHall_of_jump hjump, ((s.hallSet h.toNat).takeBoundary_rest v).1.clock]
    unfold State.boundaryClock
    rw [hhall]
    rfl

/-- What SET-CLOCK leaves of the rest of the state. -/
theorem State.setHall_rest (s : State) (hall : Nat) :
    State.SameButLines { s with clock := (s.setHall hall).clock } (s.setHall hall) ∧
      (s.setHall hall).link = s.link := by
  cases hjump : s.jumpBoundary hall with
  | none =>
    rw [State.setHall_of_no_jump hjump]
    have hformed : (s.hallSet hall).formBoundary =
      { s with clock := (s.hallSet hall).formBoundary.clock } := rfl
    generalize (s.hallSet hall).formBoundary = u at hformed ⊢
    rw [hformed]
    exact ⟨.refl _, rfl⟩
  | some v =>
    rw [State.setHall_of_jump hjump]
    obtain ⟨hsame, hlink, -⟩ := (s.hallSet hall).takeBoundary_rest v
    generalize (s.hallSet hall).takeBoundary v = u at hsame hlink ⊢
    exact ⟨⟨hsame.settings, hsame.points, hsame.inputs, hsame.installed, hsame.awaitsFrame, rfl,
      hsame.archive, hsame.image, hsame.imageStatus, hsame.guardMode, hsame.power, hsame.pins,
      hsame.pending⟩, hlink⟩

theorem exec_setClock_broadcast {s : State} (h : s.Takes .setClock) (hall : BitVec 48) :
    exec (.setClock true hall) s = .next (s.setHall hall.toNat) := by
  have hexec : exec (.setClock true hall) s =
    .next (if s.receives then s.setHall hall.toNat else s) := rfl
  rw [hexec, if_pos h.receives]

theorem exec_setClock_addressed {s : State} (h : s.Takes .setClock) (hall : BitVec 48) :
    exec (.setClock false hall) s = .next ((s.setHall hall.toNat).owe
      (some ⟨0x90, (s.setHall hall.toNat).clockBytes⟩)) :=
  congrArg Host.Outcome.next (h.done (refusal := accepted) rfl rfl _)

/-- Settles O34: what the clock holds after it is set, and what a boundary jumped over does. -/
theorem clockIsSet : Obligations.ClockIsSet := by
  intro s h htakes
  have hclock := s.setHall_clock h
  obtain ⟨hsame, hlink⟩ := s.setHall_rest h.toNat
  have hsethall : (s.setHall h.toNat).hall = (s.hallSet h.toNat).hall := by
    unfold State.hall State.hallAt State.now
    rw [hclock]
    rfl
  have hhall : (s.setHall h.toNat).hall = h.toNat := hsethall.trans (s.hall_hallSet h)
  refine ⟨s.setHall h.toNat, exec_setClock_broadcast htakes h, ?addressed, hhall, by rw [hclock],
    by rw [hclock], by rw [hclock], by rw [hclock], by rw [hclock], fun hno => ?still,
    fun b v hset hb hle hv => ?jumped, hsame.settings, hsame.points, hsame.inputs, hsame.archive,
    hsame.image, hsame.guardMode, hlink, hsame.power⟩
  case addressed =>
    have hbytes : (s.setHall h.toNat).clockBytes = stamp h.toNat ++ stamp s.clock.count ++ [1] := by
      unfold State.clockBytes
      rw [hhall, State.now, hclock]
      rfl
    rw [exec_setClock_addressed htakes, hbytes]
  case still =>
    rw [State.setHall_of_no_jump (State.jumpBoundary_none hno)]
    exact ⟨rfl, rfl⟩
  case jumped =>
    have hjump : s.jumpBoundary h.toNat = some v :=
      (State.jumpBoundary_some hset hb hle).trans hv
    rw [State.setHall_of_jump hjump]
    have hset : (s.hallSet h.toNat).hall = h.toNat := s.hall_hallSet h
    refine ⟨by rw [((s.hallSet h.toNat).takeBoundary_rest v).1.clock]; rfl, fun n => ?_⟩
    have htaken := (s.hallSet h.toNat).takeBoundary_taken v n
    refine ⟨htaken.outOfService, htaken.staged, fun hs hstaged hbank => ?_⟩
    obtain ⟨b1, hb1⟩ := Option.ne_none_iff_exists'.mp hbank
    obtain ⟨-, -, c, hc, hreason, -⟩ := htaken.closed b1 hs hstaged hb1
    exact ⟨c, hc.staged, hc.serial, hreason, hc.closed.trans hset⟩

end Sys2Proof.Machine

/-! Failures of power and resets (R166, R167): shifts at their limit close first (R146), then the segments
end and booking passes to X (R119, R131). -/

namespace Sys2Proof.Machine

/-! ### The limits that have come at the failure instant -/

theorem State.takeLimit_of_none_due {s : State} {n : LineId}
    (h : ∀ b, (s.line n).bank = some b → s.clock.count < b.openCount + 267840000) :
    s.takeLimit n = s := by
  cases hb : (s.line n).bank with
  | none =>
    unfold State.takeLimit
    rw [State.lengthDue_none hb, if_neg Bool.false_ne_true]
  | some b => exact State.takeLimit_before hb (h b hb)

theorem State.takeLimits_of_none_due {s : State}
    (h : ∀ n b, (s.line n).bank = some b → s.clock.count < b.openCount + 267840000) :
    s.takeLimits = s := by
  unfold State.takeLimits
  induction allLines with
  | nil => rfl
  | cons n l ih => rw [List.foldl_cons, State.takeLimit_of_none_due (h n), ih]

/-- A line whose limit has not come is left as it is. -/
theorem State.line_takeLimits_before {s : State} {n : LineId} {b : Bank}
    (hb : (s.line n).bank = some b) (h : s.clock.count < b.openCount + 267840000) :
    s.takeLimits.line n = s.line n := by
  obtain ⟨a, hshift, -, hline, -, -, -, count, -, hothers⟩ :=
    State.turn_of_all State.takeLimit_turn s n
  have hsame : a.takeLimit n = a :=
    State.takeLimit_before (by rw [hline]; exact hb) (by rw [hshift.now]; exact h)
  rw [hsame] at hothers
  exact hothers.line.trans hline

/-- A line whose limit has come closes its shift there. -/
theorem State.line_takeLimits_due {s : State} {n : LineId} {b : Bank}
    (hb : (s.line n).bank = some b) (hs : (s.line n).staging = none)
    (h : b.openCount + 267840000 ≤ s.clock.count) :
    WriteItem.bank n ∈ s.takeLimits.queue ∧ (s.takeLimits.line n).openStamp = some s.hall ∧
      ∃ c, (s.takeLimits.line n).staging = some c ∧ c.serial = (s.line n).serial ∧
        c.reason = .length ∧ c.closeStamp = s.hall := by
  obtain ⟨a, hshift, -, hline, -, -, -, count, -, hothers⟩ :=
    State.turn_of_all State.takeLimit_turn s n
  have hab : (a.line n).bank = some b := by rw [hline]; exact hb
  rw [State.takeLimit_due hab (by rw [hline]; exact hs) (by rw [hshift.now]; exact h)] at hothers
  obtain ⟨c, hturn⟩ := State.shiftTurned hab .length false
  generalize a.turnShift n .length false a.now = v at hothers hturn
  have hlimits : s.takeLimits = allLines.foldl State.takeLimit s := rfl
  rw [hlimits]
  refine ⟨hothers.queue _ ?_, ?_, c, ?_, ?_, hturn.reason, ?_⟩
  · rw [hturn.queue]; exact List.mem_append_right _ List.mem_cons_self
  · rw [hothers.line, hturn.stamp, hshift.hall]
  · rw [hothers.line, hturn.shift.staged]
  · rw [hturn.shift.serial, hline]
  · rw [hturn.shift.closed, hshift.hall]

/-! ### The failure itself -/

theorem State.fail_eq (s : State) : s.fail = { s with
    lines := s.fail.lines
    stations := s.fail.stations
    link := { s.link with receiver := .hunt, serving := .ready, reply := none }
    power := { s.power with running := false, failure := some s.clock.count } } := by
  simp only [State.fail, Link.idle, State.now]

/-- The bank of a line when the part fails: it books X from there. -/
theorem LineLive.atFailure_bank {l : LineLive} {b : Bank} (hb : l.bank = some b) (t rate : Nat) :
    ∃ b', (l.atFailure t rate).bank = some b' ∧ b.Enters b' rate t .x none b.counts.stoppage := by
  refine ⟨b.enter .resuming t rate .x, ?_, Bank.Enters.enter b .resuming t rate .x⟩
  rw [LineLive.atFailure, hb]
  rfl

theorem exec_powerFail_running {s : State} (hmain : s.power.main = true)
    (hrun : s.power.running = true) : exec .powerFail s = .next { s.takeLimits.fail with
      power := { s.takeLimits.fail.power with main := false, powerLost := true } } := by
  have hfail : s.failOnce = s.takeLimits.fail := by unfold State.failOnce; rw [if_pos hrun]
  have hexec : exec .powerFail s = .next (if s.power.main then
    { s.failOnce with power := { s.failOnce.power with main := false, powerLost := true } }
    else s) := rfl
  rw [hexec, if_pos hmain, hfail]

theorem exec_resetAssert_running {s : State} (hreset : s.power.reset = false)
    (hrun : s.power.running = true) : exec .resetAssert s = .next { s.takeLimits.fail with
      power := { s.takeLimits.fail.power with reset := true } } := by
  have hfail : s.failOnce = s.takeLimits.fail := by unfold State.failOnce; rw [if_pos hrun]
  have hexec : exec .resetAssert s = .next (if s.power.reset then s else
    { s.failOnce with power := { s.failOnce.power with reset := true } }) := rfl
  rw [hexec, hreset, if_neg Bool.false_ne_true, hfail]

theorem exec_powerFail_stopped {s : State} (hrun : s.power.running = false)
    (hmain : s.power.main = true) : exec .powerFail s = .next { s with
      power := { s.power with main := false, powerLost := true } } := by
  have hfail : s.failOnce = s := by
    unfold State.failOnce; rw [hrun, if_neg Bool.false_ne_true]
  have hexec : exec .powerFail s = .next (if s.power.main then
    { s.failOnce with power := { s.failOnce.power with main := false, powerLost := true } }
    else s) := rfl
  rw [hexec, if_pos hmain, hfail]

theorem exec_resetAssert_stopped {s : State} (hrun : s.power.running = false)
    (hreset : s.power.reset = false) : exec .resetAssert s = .next { s with
      power := { s.power with reset := true } } := by
  have hfail : s.failOnce = s := by
    unfold State.failOnce; rw [hrun, if_neg Bool.false_ne_true]
  have hexec : exec .resetAssert s = .next (if s.power.reset then s else
    { s.failOnce with power := { s.failOnce.power with reset := true } }) := rfl
  rw [hexec, hreset, if_neg Bool.false_ne_true, hfail]

/-- A part that is supplied and waits for its start begins its write again (R153, R171). -/
theorem State.restartWrite_eq {s : State} (hmain : s.power.main = true)
    (hreset : s.power.reset = false) (hrun : s.power.running = false) :
    s.restartWrite = { s with
      settingsCopy := if s.queue.head? = some .settings then some s.settings else none } := by
  have hwaits : (s.serves && !s.power.running) = true := by
    simp [State.serves, hmain, hreset, hrun]
  rw [State.restartWrite, if_pos hwaits, State.serveHead_eq]

/-- Settles O58: the limits first, then the failure, once. -/
theorem failuresStopTheLines : Obligations.FailuresStopTheLines := by
  refine fun s => ⟨fun u hmain hreset hrun hu => ?running, fun hrun => ⟨fun hmain => ?fail,
    fun hreset => ?assert, fun hmain hreset => ?returned, fun hmain hreset => ?released⟩⟩
  case fail => exact exec_powerFail_stopped hrun hmain
  case assert => exact exec_resetAssert_stopped hrun hreset
  case returned =>
    have hexec : exec .powerReturn s = .next (if s.power.main then s
      else State.restartWrite { s with power := { s.power with main := true } }) := rfl
    rw [hexec, hmain, if_neg Bool.false_ne_true]
    exact congrArg Host.Outcome.next (State.restartWrite_eq
      (s := { s with power := { s.power with main := true } }) rfl hreset hrun)
  case released =>
    have hexec : exec .resetRelease s = .next (if s.power.reset then
      State.restartWrite { s with power := { s.power with reset := false } } else s) := rfl
    rw [hexec, if_pos hreset]
    exact congrArg Host.Outcome.next (State.restartWrite_eq
      (s := { s with power := { s.power with reset := false } }) hmain rfl hrun)
  case running =>
    have hlimits : u = s.takeLimits := hu
    have hsame : s.SameButLines u := hlimits ▸ s.takeLimits_same
    have hlink : u.link = s.link := hlimits ▸ s.takeLimits_link
    have hbefore : (∀ n b, (s.line n).bank = some b →
        s.clock.count < b.openCount + 267840000) → u = s :=
      fun h => hlimits ▸ State.takeLimits_of_none_due h
    have hkept : ∀ n b, (s.line n).bank = some b →
        s.clock.count < b.openCount + 267840000 → u.line n = s.line n :=
      fun n b hb h => hlimits ▸ State.line_takeLimits_before hb h
    have hdue : ∀ n b, (s.line n).bank = some b → (s.line n).staging = none →
        b.openCount + 267840000 ≤ s.clock.count → WriteItem.bank n ∈ u.queue ∧
        (u.line n).openStamp = some s.hall ∧ ∃ c, (u.line n).staging = some c ∧
          c.serial = (s.line n).serial ∧ c.reason = .length ∧ c.closeStamp = s.hall :=
      fun n b hb hs h => hlimits ▸ State.line_takeLimits_due hb hs h
    have hstate : ∀ k, (u.station k).state = (s.station k).state := fun k => by
      have hfold : ∀ (l : List LineId) (v : State), ((l.foldl State.takeLimit v).station k).state =
          (v.station k).state := by
        intro l
        induction l with
        | nil => exact fun _ => rfl
        | cons n l ih =>
          exact fun v => (ih _).trans ((v.takeLimit_turn n).only.stations k).state
      rw [hu]
      exact hfold allLines s
    have hfailed := exec_powerFail_running hmain hrun
    have hasserted := exec_resetAssert_running hreset hrun
    rw [← hlimits] at hfailed hasserted
    clear hlimits hu
    have hfail := u.fail_eq
    have hline := u.line_fail
    have hstation := u.station_fail
    have hnow : u.clock.count = s.clock.count := by rw [hsame.clock]
    refine ⟨hsame, hlink, exec_shiftLengthLimit hrun, hbefore, hkept, hdue, _, hfailed, ?_⟩
    generalize u.fail = w at *
    have hpower : w.power = { s.power with running := false, failure := some s.clock.count } := by
      rw [hfail, hsame.power, hnow]
    refine ⟨?_, ?_, ?_, ?_, ?_, fun n => ⟨?_, ?_, fun b hb => ?_, fun p hp => ?_⟩,
      fun k => ⟨?_, ?_⟩, ?_⟩
    · rw [hasserted, hpower]
    · rw [hpower]
    · have hdark : w.power.running = false := by rw [hpower]
      unfold State.attn
      rw [hdark]
      rfl
    · have hready : w.link.serving = .ready := by rw [hfail]
      unfold State.dir
      rw [hready]
      rfl
    · rw [hfail, hlink]
    · exact (congrArg LineLive.state (hline n)).trans rfl
    · exact (congrArg LineLive.slot (hline n)).trans rfl
    · obtain ⟨b', hb', henters⟩ := LineLive.atFailure_bank hb u.now (u.rate n)
      have hrate : u.rate n = (s.lineDef n).rate.getD 0 := by
        unfold State.rate State.lineDef; rw [hsame.settings]
      have hcount : u.now = s.clock.count := hnow
      rw [hrate, hcount] at henters
      refine ⟨b', (congrArg LineLive.bank (hline n)).trans hb', henters.booking, henters.runStart,
        henters.segStart, henters.booked, henters.runCredited, henters.times, henters.plainCounts⟩
    · refine (congrArg LineLive.plan (hline n)).trans ?_
      rw [LineLive.atFailure, hp]
      have hcount : u.now = s.clock.count := hnow
      rw [hcount]
      rfl
    · exact (congrArg StationLive.state (hstation k)).trans (hstate k)
    · refine (congrArg StationLive.tally (hstation k)).trans ?_
      have hcount : u.now = s.clock.count := hnow
      rw [hcount]
      rfl
    · rw [hfail]

end Sys2Proof.Machine

/-! ENABLE-LINE (R70, R71): its refusals, and a line that enters service. -/

namespace Sys2Proof.Machine

/-! ### What an entry into service prepares -/

/-- The state in which a line that enters service is evaluated: its shift is open, the timers of its
members run, and the queues of its REJECT inputs are empty. -/
def State.readied (s : State) (n : LineId) : State :=
  ((s.openShift n (serialAfter (s.line n).serial 1) s.now).startTimers n).emptyQueues n

theorem State.enable_eq (s : State) (n : LineId) :
    s.enable n = (s.readied n).modLine n ((s.readied n).evaluated n) :=
  State.evaluate_eq (s.readied n) n

theorem State.stallTime_of_settings {s t : State} (h : t.settings = s.settings) (k : StationId) :
    t.stallTime k = s.stallTime k := by
  unfold State.stallTime State.paceSource State.stationDef State.lineDef
  rw [h]

/-- A station whose stall timer starts, if it runs (R54). -/
def StationLive.timed (v : StationLive) (timer : Option Nat) : StationLive :=
  if v.state = .running then { v with stallExpiry := timer } else v

theorem State.startTimers_spec (s : State) (n : LineId) : s.OnlyStations (s.startTimers n) ∧
    ∀ k, (s.startTimers n).station k = if k ∈ s.members n then
      (s.station k).timed ((s.stallTime k).map fun e => s.now + e) else s.station k := by
  refine State.stations_fold (s0 := s)
    (φ := fun k v => v.timed ((s.stallTime k).map fun e => s.now + e)) (fun a k ha => ?_)
    (s.members n) (s.members_nodup n) s (.refl s)
  have hstall : a.stallTime k = s.stallTime k := by
    exact State.stallTime_of_settings ha.same.settings k
  have hnow : a.now = s.now := by
    unfold State.now
    rw [ha.same.clock]
  dsimp only
  rw [hstall, hnow]
  by_cases hrun : (a.station k).state = .running
  · rw [if_pos hrun, StationLive.timed, if_pos hrun]
    exact ⟨ha.trans (.modStation a k _), State.station_modStation_same a k _,
      fun m hm => State.station_modStation_ne a hm _⟩
  · rw [if_neg hrun, StationLive.timed, if_neg hrun]
    exact ⟨ha, rfl, fun _ _ => rfl⟩

/-- What an entry into service prepares, and what it leaves. -/
structure State.Readied (s w : State) (n : LineId) : Prop where
  line : ∃ noisy degraded, w.line n = (s.line n).opened (serialAfter (s.line n).serial 1) s.hall
    s.now noisy degraded
  others : ∀ m, m ≠ n → w.line m = s.line m
  member : ∀ k ∈ s.members n, w.station k =
    { s.station k with tally := some StationTally.zero, since := s.now }.timed
      ((s.stallTime k).map fun e => s.now + e)
  untouched : ∀ k, k ∉ s.members n → w.station k = s.station k
  input : ∀ i, w.input i =
    if i ∈ (s.lineDef n).rejects then { s.input i with windows := [] } else s.input i
  same : State.SameButLines { s with inputs := w.inputs } w
  books : w.journal = s.journal ∧ w.queue = s.queue ∧ w.alerts = s.alerts
  link : w.link = s.link

theorem State.readied_spec (s : State) (n : LineId) : s.Readied (s.readied n) n := by
  have hline := s.line_openShift n (serialAfter (s.line n).serial 1) s.now
  have honly : s.OnlyLine (s.openShift n (serialAfter (s.line n).serial 1) s.now) n :=
    .openShift s n _ _
  have hbooks := s.openShift_books n (serialAfter (s.line n).serial 1) s.now
  have hmember : ∀ k ∈ s.members n,
      (s.openShift n (serialAfter (s.line n).serial 1) s.now).station k =
        { s.station k with tally := some StationTally.zero, since := s.now } := fun k hk => by
    rw [State.openShift_eq, State.station_openTallies,
      if_pos (by rw [State.members_modLine]; exact hk)]
    rfl
  have huntouched : ∀ k, k ∉ s.members n →
      (s.openShift n (serialAfter (s.line n).serial 1) s.now).station k = s.station k :=
    fun k hk => s.openShift_station_ne n _ _ hk
  unfold State.readied
  generalize s.openShift n (serialAfter (s.line n).serial 1) s.now = u at *
  have hmembers : u.members n = s.members n := State.members_of_settings honly.same.settings n
  have hstall : ∀ k, u.stallTime k = s.stallTime k := 
    State.stallTime_of_settings honly.same.settings
  have hnow : u.now = s.now := by
    unfold State.now
    rw [honly.same.clock]
  obtain ⟨hstations, htimed⟩ := u.startTimers_spec n
  simp only [hmembers, hstall, hnow] at htimed
  generalize u.startTimers n = v at *
  have hinputs := v.input_emptyQueues n
  have hw := v.emptyQueues_eq n
  generalize v.emptyQueues n = w at hinputs hw ⊢
  have hdef : v.lineDef n = s.lineDef n := by
    unfold State.lineDef
    rw [hstations.same.settings, honly.same.settings]
  have hinput : ∀ i, v.input i = s.input i := fun i => by
    unfold State.input
    rw [hstations.same.inputs, honly.same.inputs]
  have hlines : ∀ m, w.line m = u.line m := fun m => by
    rw [hw]
    unfold State.line
    rw [← hstations.lines]
  have hstation : ∀ k, w.station k = v.station k := fun k => by
    rw [hw]
    rfl
  simp only [hdef, hinput] at hinputs
  have hsame := honly.same.trans hstations.same
  have hvbooks : v.journal = u.journal ∧ v.queue = u.queue ∧ v.alerts = u.alerts ∧
      v.link = u.link := by
    rw [hstations]
    exact ⟨rfl, rfl, rfl, rfl⟩
  have hwbooks : w.journal = v.journal ∧ w.queue = v.queue ∧ w.alerts = v.alerts ∧
      w.link = v.link := by
    rw [hw]
    exact ⟨rfl, rfl, rfl, rfl⟩
  have hwsame : State.SameButLines { v with inputs := w.inputs } w := by
    conv => arg 2; rw [hw]
    exact .refl _
  refine ⟨⟨_, _, (hlines n).trans hline⟩, fun m hm => (hlines m).trans (honly.others m hm),
    fun k hk => ?member, fun k hk => ?untouched, hinputs, ?same, ?books, ?link⟩
  case member =>
    rw [hstation, htimed, if_pos hk, hmember k hk]
  case untouched => rw [hstation, htimed, if_neg hk, huntouched k hk]
  case same =>
    exact ⟨hwsame.settings.trans hsame.settings, hwsame.points.trans hsame.points, rfl,
      hwsame.installed.trans hsame.installed, hwsame.awaitsFrame.trans hsame.awaitsFrame,
      hwsame.clock.trans hsame.clock, hwsame.archive.trans hsame.archive,
      hwsame.image.trans hsame.image, hwsame.imageStatus.trans hsame.imageStatus,
      hwsame.guardMode.trans hsame.guardMode, hwsame.power.trans hsame.power,
      hwsame.pins.trans hsame.pins, hwsame.pending.trans hsame.pending⟩
  case books =>
    exact ⟨hwbooks.1.trans (hvbooks.1.trans hbooks.1),
      hwbooks.2.1.trans (hvbooks.2.1.trans hbooks.2.1),
      hwbooks.2.2.1.trans (hvbooks.2.2.1.trans hbooks.2.2)⟩
  case link => exact hwbooks.2.2.2.trans (hvbooks.2.2.2.trans honly.link)

/-! ### The line that is evaluated -/

namespace State.Readied

variable {s w : State} {n : LineId} (h : s.Readied w n)

include h

/-- The stations keep everything but their tallies and their stall timers. -/
theorem station (k : StationId) : ∃ tally since timer, w.station k =
    { s.station k with tally := tally, since := since, stallExpiry := timer } := by
  by_cases hk : k ∈ s.members n
  · rw [h.member k hk, StationLive.timed]
    split
    · exact ⟨_, _, _, rfl⟩
    · exact ⟨_, _, _, rfl⟩
  · exact ⟨_, _, _, h.untouched k hk⟩

theorem state (k : StationId) : (w.station k).state = (s.station k).state := by
  obtain ⟨_, _, _, hk⟩ := h.station k
  rw [hk]

theorem walk : w.walk n = s.walk n :=
  State.walk_of_judged (s := s) h.same.settings (by rw [h.same.clock]) h.state
    (fun k => by obtain ⟨_, _, _, hk⟩ := h.station k; exact (congrArg StationLive.reported hk).trans rfl)
    (fun k => by obtain ⟨_, _, _, hk⟩ := h.station k; exact (congrArg StationLive.memory hk).trans rfl) n

theorem now : w.now = s.now := by
  unfold State.now
  rw [h.same.clock]

theorem hall : w.hall = s.hall := by
  unfold State.hall State.hallAt State.now
  rw [h.same.clock]

theorem lineDef (m : LineId) : w.lineDef m = s.lineDef m := by
  unfold State.lineDef
  rw [h.same.settings]

theorem constraintState {k : StationId} (hk : (s.lineDef n).constraint = some k) :
    w.constraintState n = (s.station k).state := by
  unfold State.constraintState
  rw [h.lineDef, hk]
  exact h.state k

/-- The member's tally starts afresh, and its timer starts if it runs. -/
theorem tally {k : StationId} (hk : k ∈ s.members n) :
    (w.station k).tally = some StationTally.zero ∧ (w.station k).since = s.now := by
  rw [h.member k hk, StationLive.timed]
  split <;> exact ⟨rfl, rfl⟩

theorem stallExpiry_running {k : StationId} {d : StationDef} (hk : k ∈ s.members n)
    (hd : s.stationDef k = some d) (hrun : (s.station k).state = .running) :
    (w.station k).stallExpiry = if d.stall = 0 ∨ s.paceSource k = none then none
      else some (s.now + d.stall * 100) := by
  have hstall : s.stallTime k = if d.stall = 0 ∨ s.paceSource k = none then none
      else some (d.stall * 100) := by
    unfold State.stallTime
    rw [hd]
    cases hp : s.paceSource k with
    | none => simp
    | some i => by_cases hz : d.stall = 0 <;> simp [hz]
  rw [h.member k hk, StationLive.timed, if_pos hrun, hstall]
  split <;> rfl

theorem stallExpiry_stopped {k : StationId} (hrun : (s.station k).state ≠ .running) :
    (w.station k).stallExpiry = (s.station k).stallExpiry := by
  by_cases hk : k ∈ s.members n
  · rw [h.member k hk, StationLive.timed, if_neg hrun]
  · rw [h.untouched k hk]

end State.Readied

/-- The bank that a line out of service opens its shift with books nothing yet. -/
theorem LineLive.opened_bank {l : LineLive} (hst : l.state = .outOfService)
    (serial stamp t : Nat) (noisy degraded : Bool) :
    ∃ b, (l.opened serial stamp t noisy degraded).bank = some b ∧ b.openCount = t ∧
      b.booked = 0 ∧ b.segStart = t ∧ b.runStart = none ∧ b.counts = Counts.zero := by
  obtain ⟨hopen, hbooked, hcounts⟩ := l.newBank_opened t noisy degraded
  refine ⟨_, rfl, hopen, hbooked, rfl, ?_, hcounts⟩
  rw [LineLive.newBank, hst]
  rfl

/-! ### The line in service -/

namespace State.Readied

variable {s w : State} {n : LineId} (h : s.Readied w n) (hs : s.inService n = false)

include h hs

/-- The bank of the line that is evaluated: nothing is booked or counted. -/
theorem evaluated_bank : ∃ b, (w.evaluated n (w.line n)).bank = some b ∧
    b.openCount = s.now ∧ b.booked = 0 ∧
    b.booking = s.bookingAfter n (w.evaluated n (w.line n)).state ∧
    b.runStart = (if (w.evaluated n (w.line n)).state = .running then some s.now else none) ∧
    (b.counts.t = 0 ∧ b.counts.j = 0 ∧ b.counts.c = 0 ∧ b.counts.stray = 0 ∧ b.counts.ideal = 0 ∧
      b.counts.remainder = 0) := by
  obtain ⟨noisy, degraded, hline⟩ := h.line
  have hout : (s.line n).state = .outOfService := by simpa [State.inService, LineLive.inService] using hs
  obtain ⟨b, hb, hopen, hbooked, hseg, hrun, hcounts⟩ :=
    LineLive.opened_bank hout (serialAfter (s.line n).serial 1) s.hall s.now noisy degraded
  obtain ⟨b', hb', henters⟩ := w.evaluated_bank (n := n) (hline ▸ hb)
  have hbooking : w.bookingAfter n (w.evaluated n (w.line n)).state =
      s.bookingAfter n (w.evaluated n (w.line n)).state := by
    unfold State.bookingAfter
    rw [h.walk, h.same.settings]
  have hzero := henters.counts
  rw [Bank.counts_credit_none hrun, hcounts] at hzero
  refine ⟨b', hb', henters.openCount.trans hopen, ?_, henters.booking.trans hbooking, ?_, ?_⟩
  · rw [henters.booked, hbooked, hseg, h.now, Nat.sub_self]
  · rw [henters.runStart, h.now]
  · rw [hzero]
    exact ⟨rfl, rfl, rfl, rfl, rfl, rfl⟩

omit hs in
theorem evaluated_serial (hserial : (s.line n).serial ≤ 4294967295) :
    (w.evaluated n (w.line n)).serial = (if (s.line n).serial = 4294967295 then 1
      else (s.line n).serial + 1) ∧
    (w.evaluated n (w.line n)).openStamp = some s.hall ∧
    (w.evaluated n (w.line n)).stamp = s.hall := by
  obtain ⟨noisy, degraded, hline⟩ := h.line
  rw [State.evaluated_rest, h.hall, hline, ← serialAfter_one hserial]
  exact ⟨rfl, rfl, rfl⟩

/-- The state that the constraint gives, and the candidate that opens with what the walk finds. -/
theorem evaluated_state (hcoherent : (s.line n).coherent = true) {k : StationId}
    (hk : (s.lineDef n).constraint = some k) :
    ((s.station k).state = .running → (w.evaluated n (w.line n)).state = .running ∧
      (w.evaluated n (w.line n)).slot = none) ∧
    ((s.station k).state = .unmonitored → (w.evaluated n (w.line n)).state = .resuming ∧
      (w.evaluated n (w.line n)).slot = none) ∧
    ((s.station k).state ≠ .running → (s.station k).state ≠ .unmonitored →
      (w.evaluated n (w.line n)).state =
        (if (s.lineDef n).threshold = 0 then .down else .pendingStop) ∧
      ∃ r, (w.evaluated n (w.line n)).slot = some r ∧ r.startCount = s.now ∧
        r.entryState = (s.station k).state ∧ r.contributors = [⟨(s.walk n).1, (s.walk n).2,
          contributorCategory s.settings (s.walk n).2, 0⟩]) := by
  obtain ⟨noisy, degraded, hline⟩ := h.line
  have hout : (s.line n).state = .outOfService := by simpa [State.inService, LineLive.inService] using hs
  have hslot : (w.line n).slot = none := by
    obtain ⟨hfree, -⟩ := ((s.line n).coherent_iff.mp hcoherent).outOfService hout
    rw [hline]
    exact Option.map_eq_none_iff.mp hfree
  have hstate := h.constraintState hk
  refine ⟨fun hr => ?_, fun hu => ?_, fun hr hu => ?_⟩
  · rw [State.evaluated_running (hstate.trans hr)]
    exact ⟨rfl, hslot⟩
  · rw [State.evaluated_unmonitored (hstate.trans hu)]
    exact ⟨rfl, hslot⟩
  · rw [State.evaluated_stopped (by rw [hstate]; exact hr) (by rw [hstate]; exact hu),
      State.stopLine_state, State.stopLine_slot, h.lineDef]
    refine ⟨rfl, _, rfl, h.now, hstate, ?_⟩
    have hcontributors : (w.candidate n).contributors = [⟨(w.walk n).1, (w.walk n).2,
      contributorCategory w.settings (w.walk n).2, 0⟩] := rfl
    rw [h.walk, h.same.settings] at hcontributors
    exact hcontributors

omit hs in
/-- Beside the line's own record, nothing changes after the entry is prepared. -/
theorem kept_modLine (f : LineLive → LineLive) :
    (∀ m, (w.modLine n f).station m = w.station m) ∧
    (∀ i, (w.modLine n f).input i = w.input i) ∧
    State.SameButLines { s with inputs := (w.modLine n f).inputs } (w.modLine n f) ∧
    ((w.modLine n f).journal = s.journal ∧ (w.modLine n f).queue = s.queue ∧
      (w.modLine n f).alerts = s.alerts) ∧ (w.modLine n f).link = s.link := by
  have hinputs : (w.modLine n f).inputs = w.inputs := rfl
  have hsame := h.same.trans (State.OnlyLine.modLine w n f).same
  rw [hinputs]
  exact ⟨fun _ => rfl, fun _ => rfl, hsame, h.books, h.link⟩

end State.Readied

/-! ### The refusals -/

section Enable

variable {s : State} {n : LineId} {line : Byte}

theorem exec_enableLine_refused (h : s.Takes .enableLine) (hl : line.toNat = n.val) {r : Refused}
    (hr : enableRefusal line s = some r) : exec (.enableLine line) s =
      .next (s.owe (some ⟨0xFF, [0x40, r.reason.code, r.detail]⟩)) :=
  congrArg Host.Outcome.next (h.refused (above_none (lineByte_le hl)) hr _)

theorem exec_enableLine_done (h : s.Takes .enableLine) (hl : line.toNat = n.val)
    (hr : enableRefusal line s = none) {t : State} (ht : t = s.enable n) :
    exec (.enableLine line) s = .next (t.owe (some ⟨0xC0, line :: (field 4 (t.line n).serial ++
      stamp ((t.line n).openStamp.getD 0) ++ [(t.line n).state.code])⟩)) := by
  subst ht
  refine congrArg Host.Outcome.next ((h.done (above_none (lineByte_le hl)) hr _).trans ?_)
  simp only [lineOfByte_eq hl]
  rfl

/-- The inputs that line `n` counts with, in the order of their numbers. -/
theorem State.lineInput_iff (s : State) (i : InputId) (n : LineId) :
    (s.roleLine i == some n) = true ↔ s.HasRoleOf i n := by
  unfold State.roleLine State.HasRoleOf
  cases s.roleOf i <;> simp

/-- The first input of the line that no slot of the table samples. -/
def State.unslotted (s : State) (n : LineId) : Option InputId :=
  (s.lineInputs n).find? fun i => slotCount s.settings.slots i = 0

theorem State.unslotted_eq (s : State) (n : LineId) : s.unslotted n = Fin.find? fun i =>
    (s.roleLine i == some n) && decide (slotCount s.settings.slots i = 0) := by
  rw [State.unslotted, State.lineInputs, List.find?_filter, Fin.find?_eq_find?_finRange]
  simp only [Bool.decide_and, Bool.decide_eq_true]
  rfl

theorem State.unslotted_some {i : InputId} (hrole : s.HasRoleOf i n)
    (hslots : slotCount s.settings.slots i = 0)
    (hfirst : ∀ j, j < i → s.HasRoleOf j n → slotCount s.settings.slots j ≠ 0) :
    s.unslotted n = some i := by
  rw [State.unslotted_eq, Fin.find?_eq_some_iff]
  refine ⟨by rw [(s.lineInput_iff i n).mpr hrole, decide_eq_true hslots]; rfl, fun j hj => ?_⟩
  by_cases hr : s.HasRoleOf j n
  · rw [decide_eq_false (hfirst j hj hr), Bool.and_false]
  · rw [Bool.eq_false_iff.mpr fun heq => hr ((s.lineInput_iff j n).mp heq), Bool.false_and]

theorem State.unslotted_none (hall : ∀ i, s.HasRoleOf i n → slotCount s.settings.slots i ≠ 0) :
    s.unslotted n = none := by
  rw [State.unslotted_eq, Fin.find?_eq_none_iff]
  intro j
  by_cases hr : s.HasRoleOf j n
  · rw [decide_eq_false (hall j hr), Bool.and_false]
  · rw [Bool.eq_false_iff.mpr fun heq => hr ((s.lineInput_iff j n).mp heq), Bool.false_and]

theorem enableRefusal_eq (hl : line.toNat = n.val) : enableRefusal line s = firstRefusal
    [refuseIf (s.inService n) .state (s.line n).state.code, refuseIf (!s.clock.isSet) .noClock 0,
     refuseIf (s.members n).isEmpty .incomplete 1, refuseIf (!s.constraintReady n) .incomplete 2,
     refuseIf (s.lineDef n).rate.isNone .incomplete 3,
     (s.unslotted n).map fun i => ⟨.incomplete, 0x10 + idByte i⟩] := by
  unfold enableRefusal
  simp only [lineOfByte_eq hl]
  rfl

theorem State.constraintReady_of {k : StationId} {d : StationDef} {p : Fin 16}
    (hk : (s.lineDef n).constraint = some k) (hd : s.stationDef k = some d)
    (hp : d.place = some ⟨n, p⟩) (hrun : d.run ≠ none) : s.constraintReady n = true := by
  have hposition : s.positionIn n k = some p := by
    unfold State.positionIn
    simp only [hd, hp, if_true]
  have hruns : ((s.stationDef k).bind StationDef.run).isSome = true := by
    rw [hd]
    exact Option.isSome_iff_ne_none.mpr hrun
  unfold State.constraintReady
  simp only [hk, hposition, hruns]
  rfl

theorem State.constraintReady_false (h : (s.lineDef n).constraint = none ∨
    (∃ k, (s.lineDef n).constraint = some k ∧
      ∀ d, s.stationDef k = some d → (∀ p, d.place ≠ some ⟨n, p⟩) ∨ d.run = none)) :
    s.constraintReady n = false := by
  unfold State.constraintReady
  rcases h with hnone | ⟨k, hk, hbad⟩
  · rw [hnone]
  simp only [hk]
  cases hd : s.stationDef k with
  | none => simp [State.positionIn, hd]
  | some d =>
    rcases hbad d hd with hplace | hrun
    · have hposition : s.positionIn n k = none := by
        unfold State.positionIn
        cases hp : d.place with
        | none => simp only [hd, hp]
        | some q =>
          have hline : q.line ≠ n := fun heq => hplace q.position (by rw [hp, ← heq])
          simp only [hd, hp, if_neg hline]
      simp [hposition]
    · simp [hrun]

theorem State.member_of_place {k : StationId} {d : StationDef} {p : Fin 16}
    (hd : s.stationDef k = some d) (hp : d.place = some ⟨n, p⟩) : k ∈ s.members n := by
  rw [State.mem_members]
  unfold State.lineOf
  simp only [hd, hp]
  rfl

end Enable

/-- Settles O44: the refusals in their order, and the line that is evaluated with its shift open. -/
theorem linesEnterService : Obligations.LinesEnterService := by
  refine fun s n line h hl => ⟨fun hs => ?service, fun hs hc => ?clock, fun hs hc hm => ?empty,
    fun hs hc hm hcon => ?constraint, fun k d p hs hc hk hd hp hrun => ⟨fun hrate => ?rate,
    fun i hrate hrole hslots hfirst => ?unslotted, fun hrate hall hcoherent hserial => ?entered⟩⟩
  case service =>
    exact exec_enableLine_refused h hl (r := ⟨.state, (s.line n).state.code⟩) (by
      rw [enableRefusal_eq hl, hs]
      rfl)
  case clock =>
    exact exec_enableLine_refused h hl (r := ⟨.noClock, 0⟩) (by
      rw [enableRefusal_eq hl, hs, hc]
      rfl)
  case empty =>
    exact exec_enableLine_refused h hl (r := ⟨.incomplete, 1⟩) (by
      rw [enableRefusal_eq hl, hs, hc, hm]
      rfl)
  case constraint =>
    exact exec_enableLine_refused h hl (r := ⟨.incomplete, 2⟩) (by
      rw [enableRefusal_eq hl, hs, hc, State.constraintReady_false hcon,
        List.isEmpty_eq_false_iff.mpr hm]
      rfl)
  all_goals
    have hm : (s.members n).isEmpty = false :=
      List.isEmpty_eq_false_iff.mpr (List.ne_nil_of_mem (State.member_of_place hd hp))
    have hready := State.constraintReady_of hk hd hp hrun
  case rate =>
    exact exec_enableLine_refused h hl (r := ⟨.incomplete, 3⟩) (by
      rw [enableRefusal_eq hl, hs, hc, hm, hready, hrate]
      rfl)
  all_goals
    have hsome : (s.lineDef n).rate.isNone = false :=
      Option.isNone_eq_false_iff.mpr (Option.isSome_iff_ne_none.mpr hrate)
  case unslotted =>
    exact exec_enableLine_refused h hl (r := ⟨.incomplete, 0x10 + idByte i⟩) (by
      rw [enableRefusal_eq hl, hs, hc, hm, hready, hsome, State.unslotted_some hrole hslots hfirst]
      rfl)
  case entered =>
    have hr : enableRefusal line s = none := by
      rw [enableRefusal_eq hl, hs, hc, hm, hready, hsome, State.unslotted_none hall]
      rfl
    have hexec := exec_enableLine_done h hl hr (s.enable_eq n).symm
    have hw := s.readied_spec n
    generalize s.readied n = w at hexec hw
    obtain ⟨hnewSerial, hopenStamp, hstamp⟩ := hw.evaluated_serial hserial
    obtain ⟨hrunning, hunmonitored, hstopped⟩ := hw.evaluated_state hs hcoherent hk
    obtain ⟨b, hbank, hopen, hbooked, hbooking, hrunStart, ht, hj, hcarry, hstray, hideal,
      hremainder⟩ := hw.evaluated_bank hs
    have hline : (w.modLine n (w.evaluated n)).line n = w.evaluated n (w.line n) :=
      State.line_modLine_same w n _
    have hothers : ∀ m, m ≠ n → (w.modLine n (w.evaluated n)).line m = s.line m := fun m hm =>
      (State.line_modLine_ne w hm _).trans (hw.others m hm)
    obtain ⟨hstation, hinput, hsame, ⟨hjournal, hqueue, halerts⟩, hlink⟩ :=
      hw.kept_modLine (w.evaluated n)
    rw [hline, hopenStamp, Option.getD_some] at hexec
    generalize w.evaluated n (w.line n) = l at *
    generalize w.modLine n (w.evaluated n) = t at *
    subst hline
    refine ⟨_, b, hexec, hnewSerial, hopenStamp, hstamp, hrunning, hunmonitored, hstopped,
      fun hst => ?_, fun hst => ?_, fun hst => ?_, fun hst => ?_, hbank, hopen, hbooked, ht, hj,
      hcarry, hstray, hideal, hremainder, fun m hmem => ?_, fun m => ?_,
      fun m d hmem hdef hruns => ?_, fun m hruns => ?_, fun m hmem => ?_, fun i hi => ?_,
      fun i hi => ?_, hothers, hsame.owe _, hjournal, hqueue, halerts, ?_⟩
    · have hst' : (t.line n).state = .running := hst
      rw [hbooking, hrunStart, hst']
      exact ⟨rfl, rfl⟩
    · have hst' : (t.line n).state = .resuming := hst
      rw [hbooking, hrunStart, hst']
      exact ⟨rfl, rfl⟩
    · have hst' : (t.line n).state = .pendingStop := hst
      rw [hbooking, hrunStart, hst']
      exact ⟨rfl, rfl⟩
    · have hst' : (t.line n).state = .down := hst
      rw [hbooking, hrunStart, hst']
      exact ⟨rfl, rfl⟩
    · exact (hstation m).symm ▸ hw.tally hmem
    · exact (congrArg StationLive.state (hstation m)).trans (hw.state m)
    · exact (congrArg StationLive.stallExpiry (hstation m)).trans
        (hw.stallExpiry_running hmem hdef hruns)
    · exact (congrArg StationLive.stallExpiry (hstation m)).trans (hw.stallExpiry_stopped hruns)
    · exact (hstation m).trans (hw.untouched m hmem)
    · exact (hinput i).trans ((hw.input i).trans (if_pos hi))
    · exact (hinput i).trans ((hw.input i).trans (if_neg hi))
    · rw [State.owe_link, hlink]
      rfl

end Sys2Proof.Machine

/-! DEFINE-LINE (R68): its refusals, and the definition that is replaced. -/

namespace Sys2Proof.Machine

/-- A body of a wrong length is answered MALFORMED, whatever else the request carries (R162). -/
theorem State.Takes.malformed {s : State} {kind : RequestKind} (h : s.Takes kind)
    {length : Option Refused} {r : Refused} (hr : length = some r) (range : Option Refused)
    (owner : State → State × Answer) : s.serve kind length range owner =
      s.owe (some ⟨0xFF, [kind.code, r.reason.code, r.detail]⟩) :=
  State.serve_refused h.receives (by rw [h.commonRefusal, hr]; rfl) owner

theorem count_add_count_le {α : Type} [DecidableEq α] {i j : α} (h : i ≠ j) (l : List α) :
    l.count i + l.count j ≤ l.length := by
  induction l with
  | nil => exact Nat.le_refl 0
  | cons a l ih =>
    rw [List.count_cons, List.count_cons, List.length_cons]
    by_cases ha : a = i
    · subst ha
      rw [beq_self_eq_true, beq_false_of_ne h]
      simp only [if_true, Bool.false_eq_true, if_false]
      omega
    · rw [beq_false_of_ne ha]
      simp only [Bool.false_eq_true, if_false]
      split <;> omega

/-- Of at most three inputs, only one can be named twice. -/
theorem find_repeated {inputs : List InputId} {i : InputId} (hlen : inputs.length ≤ 3)
    (hi : 2 ≤ inputs.count i) : (inputs.find? fun j => 2 ≤ inputs.count j) = some i := by
  cases hfind : inputs.find? fun j => 2 ≤ inputs.count j with
  | none =>
    have hmem : i ∈ inputs := List.count_pos_iff.mp (by omega)
    exact absurd hi (by simpa using List.find?_eq_none.mp hfind i hmem)
  | some j =>
    have hj : 2 ≤ inputs.count j := by simpa using List.find?_some hfind
    by_contra hne
    have := count_add_count_le (fun heq : i = j => hne (by rw [heq])) inputs
    omega

theorem find_repeated_none {inputs : List InputId} (h : inputs.Nodup) :
    (inputs.find? fun j => 2 ≤ inputs.count j) = none :=
  List.find?_eq_none.mpr fun j _ => by
    have := List.nodup_iff_count_le_one.mp h j
    simp only [decide_eq_true_eq]
    omega

theorem State.roleElsewhere_false {s : State} {n : LineId} {i : InputId}
    (h : s.roleOf i = .none ∨ s.roleOf i = .output n ∨ s.roleOf i = .reject n) :
    s.roleElsewhere n i = false := by
  unfold State.roleElsewhere
  rcases h with h | h | h <;> simp [h]

theorem State.roleElsewhere_true {s : State} {n : LineId} {i : InputId} (hnone : s.roleOf i ≠ .none)
    (hout : s.roleOf i ≠ .output n) (hrej : s.roleOf i ≠ .reject n) :
    s.roleElsewhere n i = true := by
  unfold State.roleElsewhere
  cases hr : s.roleOf i with
  | none => exact absurd hr hnone
  | output m => exact bne_iff_ne.mpr fun heq => hout (by rw [hr, heq])
  | reject m => exact bne_iff_ne.mpr fun heq => hrej (by rw [hr, heq])
  | pace k => rfl

section Define

variable {s : State} {n : LineId} {line constraint : Byte} {output : Carried Byte}
  {rejects : List Byte}

theorem lineRange_none (hl : line.toNat ≤ 7) (hc : constraint = 0xFF ∨ constraint.toNat ≤ 63)
    (ho : output.presence = 0 ∨ output.value.toNat ≤ 15) (hr : ∀ b ∈ rejects, b.toNat ≤ 15) :
    lineRange line constraint output rejects = none := by
  rw [lineRange, firstRefusal_eq_none_iff]
  intro c hmem
  rcases List.mem_append.mp hmem with hmem | hmem
  · simp only [List.mem_cons, List.not_mem_nil, or_false] at hmem
    rcases hmem with rfl | rfl | rfl
    · exact above_none hl
    · exact aboveOrNone_none hc
    · exact carriedAbove_none ho
  · obtain ⟨b, hb, rfl⟩ := List.mem_map.mp hmem
    exact above_none (hr b hb)

theorem rejectsLength_none (h : rejects.length ≤ 2) : rejectsLength output rejects = none :=
  refuseIf_eq_none (decide_eq_false (by omega)) _ _

theorem exec_defineLine_refused (h : s.Takes .defineLine) (hlen : rejects.length ≤ 2)
    (hrange : lineRange line constraint output rejects = none) {r : Refused}
    (hr : lineRefusal line output rejects s = some r) :
    exec (.defineLine line constraint output rejects) s =
      .next (s.owe (some ⟨0xFF, [0x21, r.reason.code, r.detail]⟩)) := by
  change Host.Outcome.next (s.serve _ _ _ _) = _
  rw [rejectsLength_none hlen]
  exact congrArg Host.Outcome.next (h.refused hrange hr _)

theorem exec_defineLine_done (h : s.Takes .defineLine) (hl : line.toNat = n.val)
    (hlen : rejects.length ≤ 2) (hrange : lineRange line constraint output rejects = none)
    (hr : lineRefusal line output rejects s = none) {t : State}
    (ht : t = s.defineLine n (if constraint = 0xFF then none else some (stationOfByte constraint))
      (carriedInput output) (rejects.map inputOfByte)) :
    exec (.defineLine line constraint output rejects) s =
      .next (t.owe (some ⟨0xA1, t.lineDefBytes n⟩)) := by
  subst ht
  change Host.Outcome.next (s.serve _ _ _ _) = _
  rw [rejectsLength_none hlen]
  refine congrArg Host.Outcome.next ((h.done hrange hr _).trans ?_)
  simp only [lineOfByte_eq hl]
  rfl

theorem lineInputsCarried_eq :
    lineInputsCarried output rejects =
      (if output.presence = 0 then [] else [inputOfByte output.value]) ++
        rejects.map inputOfByte := by
  unfold lineInputsCarried carriedInput
  split <;> rfl

theorem lineRefusal_eq (hl : line.toNat = n.val) (hp : output.presence.toNat ≤ 1) :
    lineRefusal line output rejects s = firstRefusal [refuseIf (s.inService n) .inService line,
      ((lineInputsCarried output rejects).find? fun i =>
        2 ≤ (lineInputsCarried output rejects).count i).map fun i => ⟨.inUse, idByte i⟩,
      ((lineInputsCarried output rejects).find? (s.roleElsewhere n)).map fun i =>
        ⟨.inUse, idByte i⟩] := by
  have hbyte : idByte n = line := by
    rw [← lineOfByte_eq hl]
    exact idByte_lineOfByte (lineByte_le hl)
  unfold lineRefusal State.lineBusyService
  simp only [lineOfByte_eq hl, presenceBad_none hp, firstRefusal_none, hbyte]

/-- The definition that is replied is the one carried. -/
theorem lineDefBytes_defineLine (hl : line.toNat = n.val)
    (hc : constraint = 0xFF ∨ constraint.toNat ≤ 63) (hp : output.presence.toNat ≤ 1)
    (ho : output.presence = 1 → output.value.toNat ≤ 15) (hr : ∀ b ∈ rejects, b.toNat ≤ 15) :
    (s.defineLine n (if constraint = 0xFF then none else some (stationOfByte constraint))
      (carriedInput output) (rejects.map inputOfByte)).lineDefBytes n =
    [line, constraint] ++ (if output.presence = 0 then [0] else [1, output.value]) ++
      BitVec.ofNat 8 rejects.length :: rejects := by
  have hdef : ∀ c o (r : List InputId), (s.defineLine n c o r).lineDefBytes n =
      [idByte n, idOrNone c] ++ optional (fun i => [idByte i]) o ++
        BitVec.ofNat 8 r.length :: r.map idByte := fun c o r => by
    have hget : (s.defineLine n c o r).lineDef n =
        { s.lineDef n with constraint := c, output := o, rejects := r } :=
      Tab.get_modify_same _ _ _
    unfold State.lineDefBytes
    rw [hget]
  have hline : idByte n = line := by
    rw [← lineOfByte_eq hl]
    exact idByte_lineOfByte (lineByte_le hl)
  have hconstraint : idOrNone (if constraint = 0xFF then none
      else some (stationOfByte constraint)) = constraint := by
    by_cases hff : constraint = 0xFF
    · rw [if_pos hff, hff]
      rfl
    · rw [if_neg hff]
      exact idByte_stationOfByte (hc.resolve_left hff)
  have houtput : optional (fun i => [idByte i]) (carriedInput output) =
      if output.presence = 0 then [0] else [1, output.value] := by
    unfold carriedInput
    by_cases hz : output.presence = 0
    · rw [if_pos hz, if_pos hz]
      rfl
    · rw [if_neg hz, if_neg hz, optional,
        idByte_inputOfByte (ho ((presence_zero_or_one hp).resolve_left hz))]
  have hrejects : (rejects.map inputOfByte).map idByte = rejects := by
    rw [List.map_map]
    exact (List.map_congr_left fun b hb => idByte_inputOfByte (hr b hb)).trans (List.map_id _)
  rw [hdef, hline, hconstraint, houtput, hrejects, List.length_map]

end Define

/-- Settles O43: the refusals in their order, and the definition that is replaced. -/
theorem linesAreDefined : Obligations.LinesAreDefined := by
  refine ⟨fun s line constraint output rejects h => ⟨fun hlen => ?length,
    fun hlen hl hc hp ho hr => ?presence⟩,
    fun s n line constraint output rejects inputs h hl hc hp ho hlen hr hinputs => ?_⟩
  case length =>
    have hmalformed : rejectsLength output rejects = some ⟨.malformed,
        BitVec.ofNat 8 (3 + carriedSize output + rejects.length)⟩ :=
      refuseIf_eq_some (decide_eq_true hlen) _ _
    have hsize : 2 + (if output.presence = 0 then 1 else 2) + 1 + rejects.length =
        3 + carriedSize output + rejects.length := by
      unfold carriedSize
      omega
    rw [hsize]
    exact congrArg Host.Outcome.next (h.malformed hmalformed _ _)
  case presence =>
    exact exec_defineLine_refused h hlen (lineRange_none hl hc (.inr ho) hr)
      (r := ⟨.malformed, 2⟩) (by
        unfold lineRefusal
        rw [presenceBad_some hp]
        rfl)
  have hrange := lineRange_none (lineByte_le hl) hc (output := output) (rejects := rejects)
    ((presence_zero_or_one hp).imp_right ho) hr
  have hcarried : lineInputsCarried output rejects = inputs :=
    lineInputsCarried_eq.trans hinputs.symm
  have hthree : inputs.length ≤ 3 := by
    rw [hinputs, List.length_append, List.length_map]
    split
    · rw [List.length_nil]; omega
    · rw [List.length_singleton]; omega
  refine ⟨fun hs => ?service, fun i hs hi => ?twice, fun i before after hs hnodup hsplit hnone hout
    hrej hbefore => ?elsewhere, fun hs hnodup hroles => ?done⟩
  case service =>
    exact exec_defineLine_refused h hlen hrange (r := ⟨.inService, line⟩) (by
      rw [lineRefusal_eq hl hp, hs]
      rfl)
  case twice =>
    exact exec_defineLine_refused h hlen hrange (r := ⟨.inUse, idByte i⟩) (by
      rw [lineRefusal_eq hl hp, hs, hcarried, find_repeated hthree hi]
      rfl)
  case elsewhere =>
    have hfind : inputs.find? (s.roleElsewhere n) = some i := by
      rw [hsplit]
      exact List.find?_eq_some_iff_append.mpr ⟨State.roleElsewhere_true hnone hout hrej, before,
        after, rfl, fun j hj => by rw [State.roleElsewhere_false (hbefore j hj)]; rfl⟩
    exact exec_defineLine_refused h hlen hrange (r := ⟨.inUse, idByte i⟩) (by
      rw [lineRefusal_eq hl hp, hs, hcarried, find_repeated_none hnodup, hfind]
      rfl)
  case done =>
    have hfind : inputs.find? (s.roleElsewhere n) = none := List.find?_eq_none.mpr fun j hj => by
      rw [State.roleElsewhere_false (hroles j hj)]
      exact Bool.false_ne_true
    have hnone : lineRefusal line output rejects s = none := by
      rw [lineRefusal_eq hl hp, hs, hcarried, find_repeated_none hnodup, hfind]
      rfl
    rw [exec_defineLine_done h hl hlen hrange hnone rfl, lineDefBytes_defineLine hl hc hp ho hr]
    rfl

end Sys2Proof.Machine

/-! The key of a record (R104, R110): holding, releasing and lapsing (R100, R110, R111), and CLASSIFY
(R104 to R108). -/

namespace Sys2Proof.Machine

/-! ### The checks of a key -/

section Key

variable {s : State} {key : Key} {n : LineId}

theorem State.keyRefusal_candidate (h : s.candidateHasKey key = true) :
    s.keyRefusal key = some ⟨.notJournaled, 0⟩ := by
  rw [State.keyRefusal, h]
  rfl

theorem State.keyRefusal_notFound (hc : s.candidateHasKey key = false) (hr : s.record? key = none)
    (ho : s.openHasKey key = false) : s.keyRefusal key = some ⟨.notFound, 0⟩ := by
  rw [State.keyRefusal, hc, hr, ho]
  rfl

theorem State.keyRefusal_none (hc : s.candidateHasKey key = false)
    (h : s.record? key ≠ none ∨ s.openHasKey key = true) : s.keyRefusal key = none := by
  rw [State.keyRefusal, hc]
  rcases h with hr | ho
  · cases hrec : s.record? key with
    | none => exact absurd hrec hr
    | some r => rfl
  · rw [ho]
    cases s.record? key <;> rfl

end Key

/-! ### HOLD-RECORD and RELEASE-RECORD -/

section Hold

variable {s : State} {key : Key} {n : LineId}

theorem exec_holdRecord_refused (h : s.Takes .holdRecord) (hl : key.line.toNat = n.val) {r : Refused}
    (hr : holdRefusal key RecordState.holdable s = some r) : exec (.holdRecord key) s =
      .next (s.owe (some ⟨0xFF, [0x48, r.reason.code, r.detail]⟩)) :=
  congrArg Host.Outcome.next (h.refused (above_none (lineByte_le hl)) hr _)

theorem exec_releaseRecord_refused (h : s.Takes .releaseRecord) (hl : key.line.toNat = n.val)
    {r : Refused} (hr : holdRefusal key RecordState.releasable s = some r) :
    exec (.releaseRecord key) s =
      .next (s.owe (some ⟨0xFF, [0x49, r.reason.code, r.detail]⟩)) :=
  congrArg Host.Outcome.next (h.refused (above_none (lineByte_le hl)) hr _)

theorem holdRefusal_key {fits : RecordState → Bool} {r : Refused} (h : s.keyRefusal key = some r) :
    holdRefusal key fits s = some r := by
  rw [holdRefusal, h, firstRefusal_some]

theorem holdRefusal_open {fits : RecordState → Bool} (hc : s.candidateHasKey key = false)
    (hr : s.record? key = none) (ho : s.openHasKey key = true) :
    holdRefusal key fits s = some ⟨.state, 0x10⟩ := by
  rw [holdRefusal, State.keyRefusal_none hc (.inr ho), State.recordStateRefusal, hr]
  rfl

theorem holdRefusal_record {fits : RecordState → Bool} {r : JournalRecord}
    (hc : s.candidateHasKey key = false) (hr : s.record? key = some r) :
    holdRefusal key fits s = refuseIf (!fits r.state) .state r.state.code := by
  have hne : s.record? key ≠ none := by rw [hr]; exact Option.some_ne_none r
  have hstate : s.recordStateRefusal key fits = refuseIf (!fits r.state) .state r.state.code := by
    rw [State.recordStateRefusal, hr]
  rw [holdRefusal, State.keyRefusal_none hc (.inl hne), firstRefusal_none, hstate]
  cases refuseIf (!fits r.state) .state r.state.code <;> rfl

/-- A record whose state alone is rewritten keeps its place and its key. -/
theorem State.record?_restate {r : JournalRecord} (hr : s.record? key = some r)
    (f : RecordState → RecordState) :
    (s.modRecord key fun r => { r with state := f r.state }).record? key =
      some { r with state := f r.state } := by
  have h := State.record?_modRecord s key (fun r => { r with state := f r.state }) fun _ => rfl
  rw [h, hr]
  rfl

theorem State.SameButRecord.owe {t : State} (h : s.SameButRecord t key) (r : Option Reply) :
    s.SameButRecord (t.owe r) key :=
  ⟨(congrArg (fun u => u.owe r) h.rest).trans rfl, h.length, h.others⟩

theorem exec_holdRecord_done (h : s.Takes .holdRecord) (hl : key.line.toNat = n.val)
    (hr : holdRefusal key RecordState.holdable s = none) {t : State}
    (ht : t = s.modRecord key fun r => { r with state := r.state.hold s.now }) :
    exec (.holdRecord key) s = .next (t.owe (some ⟨0xC8, t.recordBytes key⟩)) := by
  subst ht
  exact congrArg Host.Outcome.next (h.done (above_none (lineByte_le hl)) hr _)

theorem exec_releaseRecord_done (h : s.Takes .releaseRecord) (hl : key.line.toNat = n.val)
    (hr : holdRefusal key RecordState.releasable s = none) {t : State}
    (ht : t = s.modRecord key fun r => { r with state := r.state.release s.now }) :
    exec (.releaseRecord key) s = .next (t.owe (some ⟨0xC9, t.recordBytes key⟩)) := by
  subst ht
  exact congrArg Host.Outcome.next (h.done (above_none (lineByte_le hl)) hr _)

theorem RecordState.holdable_or_settled (r : RecordState) : r.holdable = !r.settled := by
  cases r <;> rfl

theorem RecordState.hold_eq {r : RecordState} {held now : Nat}
    (h : (∃ e, r = .unconfirmed e ∧ held = e - now) ∨ r = .held held) :
    r.holdable = true ∧ r.hold now = .held held := by
  rcases h with ⟨e, rfl, rfl⟩ | rfl
  · exact ⟨rfl, rfl⟩
  · exact ⟨rfl, rfl⟩

end Hold

/-- Settles O54: the refusals of a key, and a deadline that is held, released and reached. -/
theorem deadlinesAreHeldAndLapse : Obligations.DeadlinesAreHeldAndLapse := by
  refine ⟨fun s key n i kind code hl h hi => ⟨fun hst hserial hnumber => ?candidate,
    fun hc hr => ⟨fun ho => ?notFound, fun ho => ?opened⟩⟩,
    fun s key n r hl hr hc => ⟨fun h => ⟨fun held hheld => ?hold, fun hsettled => ?held⟩,
      fun h => ⟨fun held after hheld hafter => ?release, fun hheld => ?released⟩,
      fun e hrun hst => ⟨fun hlt => ?early, fun hle => ?lapse⟩⟩⟩
  case candidate =>
    have hkey := State.keyRefusal_candidate ((State.candidateHasKey_iff hl).mpr
      ⟨hst, hserial, hnumber⟩)
    rcases hi with ⟨rfl, rfl, rfl⟩ | ⟨rfl, rfl, rfl⟩
    · exact exec_holdRecord_refused h hl (holdRefusal_key hkey)
    · exact exec_releaseRecord_refused h hl (holdRefusal_key hkey)
  case notFound =>
    have hkey := State.keyRefusal_notFound hc hr ho
    rcases hi with ⟨rfl, rfl, rfl⟩ | ⟨rfl, rfl, rfl⟩
    · exact exec_holdRecord_refused h hl (holdRefusal_key hkey)
    · exact exec_releaseRecord_refused h hl (holdRefusal_key hkey)
  case opened =>
    rcases hi with ⟨rfl, rfl, rfl⟩ | ⟨rfl, rfl, rfl⟩
    · exact exec_holdRecord_refused h hl (holdRefusal_open hc hr ho)
    · exact exec_releaseRecord_refused h hl (holdRefusal_open hc hr ho)
  case hold =>
    obtain ⟨hholdable, hafter⟩ := RecordState.hold_eq hheld
    have hnone : holdRefusal key RecordState.holdable s = none := by
      rw [holdRefusal_record hc hr, hholdable]
      rfl
    have hexec := exec_holdRecord_done h hl hnone rfl
    have hrecord := State.record?_restate hr fun x => x.hold s.now
    have hsame := State.modRecord_same s key fun r => { r with state := r.state.hold s.now }
    rw [show r.state.hold s.now = .held held from hafter] at hrecord
    have hlink : (s.modRecord key fun r => { r with state := r.state.hold s.now }).link = s.link :=
      rfl
    have hnow : (s.modRecord key fun r => { r with state := r.state.hold s.now }).now =
      s.clock.count := rfl
    generalize (s.modRecord key fun r => { r with state := r.state.hold s.now }) = t at *
    rw [State.recordBytes, hrecord, hnow] at hexec
    exact ⟨_, hexec, hsame.owe _, hrecord, by rw [State.owe_link, hlink]⟩
  case held =>
    exact exec_holdRecord_refused h hl (r := ⟨.state, r.state.code⟩) (by
      rw [holdRefusal_record hc hr, RecordState.holdable_or_settled, hsettled]
      rfl)
  case release =>
    have hnone : holdRefusal key RecordState.releasable s = none := by
      rw [holdRefusal_record hc hr, hheld]
      rfl
    have hexec := exec_releaseRecord_done h hl hnone rfl
    have hrecord := State.record?_restate hr fun x => x.release s.now
    have hsame := State.modRecord_same s key fun r => { r with state := r.state.release s.now }
    have hreleased : r.state.release s.now = after := by
      rw [hheld, hafter]
      rfl
    rw [hreleased] at hrecord
    have hlink : (s.modRecord key fun r => { r with state := r.state.release s.now }).link =
      s.link := rfl
    have hnow : (s.modRecord key fun r => { r with state := r.state.release s.now }).now =
      s.clock.count := rfl
    generalize (s.modRecord key fun r => { r with state := r.state.release s.now }) = t at *
    rw [State.recordBytes, hrecord, hnow] at hexec
    exact ⟨_, hexec, hsame.owe _, hrecord, by rw [State.owe_link, hlink]⟩
  case released =>
    have hfits : r.state.releasable = false := by
      cases hst : r.state with
      | held k => exact absurd hst (hheld k)
      | unconfirmed _ | confirmed | lapsed => rfl
    exact exec_releaseRecord_refused h hl (r := ⟨.state, r.state.code⟩) (by
      rw [holdRefusal_record hc hr, hfits]
      rfl)
  all_goals
    have hdue : s.deadlineDue key = decide (e ≤ s.clock.count) := by
      simp only [State.deadlineDue, hr, JournalRecord.due, hst]
      rfl
  case early =>
    refine congrArg Host.Outcome.next (if_neg ?_)
    rw [hdue, hrun, decide_eq_false (by omega)]
    exact Bool.false_ne_true
  case lapse =>
    refine ⟨s.modRecord key JournalRecord.lapse, congrArg Host.Outcome.next (if_pos ?_),
      State.modRecord_same s key _, ?_, rfl⟩
    · rw [hdue, hrun, decide_eq_true hle]
      rfl
    · rw [State.record?_modRecord s key _ (fun x => by unfold JournalRecord.lapse; split <;> rfl),
        hr, Option.map_some, JournalRecord.lapse, hst]
      rfl

end Sys2Proof.Machine

/-! CLASSIFY (R104 to R108): its refusals, the journal record that is confirmed, and the open record that
takes the cause. -/

namespace Sys2Proof.Machine

/-! ### The refusals -/

section Classify

variable {s : State} {key : Key} {n : LineId} {cause : Byte}

theorem exec_classify_refused (h : s.Takes .classify) (hl : key.line.toNat = n.val) {r : Refused}
    (hr : classifyRefusal key cause s = some r) : exec (.classify key cause) s =
      .next (s.owe (some ⟨0xFF, [0x47, r.reason.code, r.detail]⟩)) :=
  congrArg Host.Outcome.next (h.refused (above_none (lineByte_le hl)) hr _)

theorem exec_classify_done (h : s.Takes .classify) (hl : key.line.toNat = n.val)
    (hr : classifyRefusal key cause s = none) {c : Category}
    (hc : classifyCategory s.settings cause = some c) {t : State} (ht : t = s.classify key cause c)
    {moved : List Byte} (hm : moved = match s.firstContributor key with
      | some c1 => moveBytes c1 c
      | none => []) :
    exec (.classify key cause) s =
      .next (t.owe (some ⟨0xC7, key.bytes ++ [s.classifiedCode key, cause] ++ moved⟩)) := by
  subst ht hm
  refine congrArg Host.Outcome.next ((h.done (above_none (lineByte_le hl)) hr _).trans ?_)
  simp only [hc, Option.getD_some]
  rfl

theorem State.shiftCurrent_eq (hl : key.line.toNat = n.val) : s.shiftCurrent key =
    (s.inService n && decide ((s.line n).serial = key.serial.toNat)) := by
  simp only [State.shiftCurrent, lineOfByte_eq hl]

theorem classifyRefusal_key {r : Refused} (h : s.keyRefusal key = some r) :
    classifyRefusal key cause s = some r := by
  rw [classifyRefusal, h, firstRefusal_some]

/-- The refusals of a key that is found. -/
theorem classifyRefusal_found (hc : s.candidateHasKey key = false)
    (h : s.record? key ≠ none ∨ s.openHasKey key = true) : classifyRefusal key cause s =
      firstRefusal [refuseIf (!s.shiftCurrent key) .shiftClosed 0,
        refuseIf (s.lapsedKey key) .late 0,
        refuseIf (classifyCategory s.settings cause).isNone .cause cause] := by
  rw [classifyRefusal, State.keyRefusal_none hc h, firstRefusal_none]

theorem classifyRefusal_current (hl : key.line.toNat = n.val) (hc : s.candidateHasKey key = false)
    (h : s.record? key ≠ none ∨ s.openHasKey key = true) (hs : s.inService n = true)
    (hserial : (s.line n).serial = key.serial.toNat) : classifyRefusal key cause s =
      firstRefusal [refuseIf (s.lapsedKey key) .late 0,
        refuseIf (classifyCategory s.settings cause).isNone .cause cause] := by
  rw [classifyRefusal_found hc h, State.shiftCurrent_eq hl, hs, decide_eq_true hserial]
  rfl

theorem State.lapsedKey_record {r : JournalRecord} (hr : s.record? key = some r) :
    s.lapsedKey key = decide (r.state = .lapsed) := by
  simp only [State.lapsedKey, hr]
  rfl

theorem State.lapsedKey_none (hr : s.record? key = none) : s.lapsedKey key = false := by
  simp only [State.lapsedKey, hr]

theorem classifyCategory_none (h : hostEntry s.settings cause = none) :
    classifyCategory s.settings cause = none := by
  rw [classifyCategory, h, Option.map_none]

theorem classifyCategory_some {c : Category} {scope : Option StationId}
    (h : hostEntry s.settings cause = some ⟨c, scope⟩) :
    classifyCategory s.settings cause = some c := by
  rw [classifyCategory, h, Option.map_some]

end Classify

/-! ### The move of the first contributor's time (R107, R122) -/

/-- The bank whose first contributor's time is moved, if there is one and its category changes. -/
def Bank.movedFirst (b : Bank) (t : Nat) (first : Option Contributor) (c : Category) : Bank :=
  match first with
  | none => b
  | some c1 => if c1.category = c then b
    else (b.book t).transfer (.cat c1.category) (.cat c) c1.duration

/-- The state in which the first contributor's time is moved. -/
def State.firstMoved (s : State) (key : Key) (c : Category) : State :=
  match s.firstContributor key with
  | some c1 => s.moveFirst (lineOfByte key.line) c1 c
  | none => s

theorem State.classify_eq (s : State) (key : Key) (cause : CauseCode) (c : Category) :
    s.classify key cause c =
      if ((s.firstMoved key c).record? key).isSome then
        (s.firstMoved key c).modRecord key fun r => r.classify cause c
      else ((s.firstMoved key c).modSlot (lineOfByte key.line) fun r => r.classify cause c).rebook
        (lineOfByte key.line) (s.firstMoved key c).now := rfl

theorem State.firstMoved_eq (s : State) (key : Key) (c : Category) :
    s.firstMoved key c = s.modBank (lineOfByte key.line) fun b =>
      b.movedFirst s.now (s.firstContributor key) c := by
  have hid : s.modBank (lineOfByte key.line) (fun b => b) = s := by
    unfold State.modBank
    simp only [Option.map_id_fun']
    exact State.modLine_id s _ rfl
  unfold State.firstMoved
  cases s.firstContributor key with
  | none => exact hid.symm
  | some c1 =>
    simp only [State.moveFirst, State.moveTime, Bank.movedFirst]
    by_cases h : c1.category = c
    · simp only [if_pos h]
      exact hid.symm
    · simp only [if_neg h]

namespace Bank

variable (b : Bank) (t : Nat) (first : Option Contributor) (c : Category)

theorem movedFirst_kept : (b.movedFirst t first c).counts = b.counts ∧
    ((b.movedFirst t first c).book t).booked = b.booked + (t - b.segStart) := by
  unfold Bank.movedFirst
  split
  · exact ⟨rfl, Bank.booked_book b t⟩
  · split
    · exact ⟨rfl, Bank.booked_book b t⟩
    · refine ⟨rfl, ?_⟩
      rw [Bank.booked_book, Bank.booked_transfer, Bank.booked_book, Bank.segStart_transfer]
      exact Nat.add_eq_left.mpr (Nat.sub_self t)

theorem movedFirst_same {c1 : Contributor} (h : c1.category = c) :
    b.movedFirst t (some c1) c = b := if_pos h

theorem movedFirst_ne {c1 : Contributor} (h : c1.category ≠ c) : b.movedFirst t (some c1) c =
    (b.book t).transfer (.cat c1.category) (.cat c) c1.duration := if_neg h

/-- A transfer within the source's time moves it. -/
theorem moved_transfer (b : Bank) {source target : Bucket} (h : source ≠ target) (amount : Nat) :
    b.Moved (b.transfer source target amount) source target amount := by
  refine ⟨fun hle => ⟨Bank.time_transfer_source b h amount, ?_⟩,
    fun k hs ht => Bank.time_transfer_ne b hs ht amount⟩
  rw [Bank.time_transfer_target b h, Nat.min_eq_left hle]

theorem Moved.congr {b b' b'' : Bank} {source target : Bucket} {amount : Nat}
    (h : b.Moved b' source target amount) (ht : ∀ k, b''.time k = b'.time k) :
    b.Moved b'' source target amount := by
  refine ⟨fun hle => ?_, fun k hs hk => (ht k).trans (h.2 k hs hk)⟩
  rw [ht, ht]
  exact h.1 hle

end Bank

/-! ### The journal record -/

section Record

variable {s : State} {key : Key} {n : LineId} {cause : Byte} {r : JournalRecord} {c : Category}

theorem State.classify_record (hl : key.line.toNat = n.val) (hr : s.record? key = some r) :
    s.classify key cause c = (s.modBank n fun b =>
      b.movedFirst s.now r.contributors.head? c).modRecord key fun r => r.classify cause c := by
  have hfirst : s.firstContributor key = r.contributors.head? := by
    simp only [State.firstContributor, hr]
  have hmoved := s.firstMoved_eq key c
  have hrecord : (s.firstMoved key c).record? key = some r := by
    rw [hmoved]
    exact hr
  rw [State.classify_eq, if_pos (by rw [hrecord]; rfl), hmoved, hfirst, lineOfByte_eq hl]

theorem State.classifiedCode_record (hr : s.record? key = some r) :
    s.classifiedCode key = 0x13 := by
  rw [State.classifiedCode, hr]
  rfl

/-- A record that is confirmed keeps its key; the journal changes at that record alone. -/
theorem State.record?_confirmed (hr : s.record? key = some r) (f : Bank → Bank) :
    ((s.modBank n f).modRecord key fun r => r.classify cause c).record? key =
      some (r.classify cause c) := by
  have h := State.record?_modRecord (s.modBank n f) key (fun r => r.classify cause c) fun _ => rfl
  rw [h]
  exact (congrArg (Option.map fun r => JournalRecord.classify r cause c) hr).trans rfl

theorem State.SameButRecord.of_modBank (f : Bank → Bank) (g : JournalRecord → JournalRecord) :
    State.SameButRecord { s with lines := (s.modBank n f).lines } ((s.modBank n f).modRecord key g)
      key := State.modRecord_same (s.modBank n f) key g

/-- The line's record of a bank that moves the first contributor's time. -/
theorem State.lines_movedFirst {b : Bank} (hb : (s.line n).bank = some b) (c1 : Contributor) :
    (c1.category = c → (s.modBank n fun b => b.movedFirst s.now (some c1) c).lines = s.lines) ∧
    (c1.category ≠ c → (s.modBank n fun b => b.movedFirst s.now (some c1) c).lines =
      Tab.set s.lines n { s.line n with
        bank := some ((b.book s.clock.count).transfer (.cat c1.category) (.cat c)
          c1.duration) }) := by
  refine ⟨fun heq => ?_, fun hne => ?_⟩
  · simp only [Bank.movedFirst_same _ _ _ heq]
    unfold State.modBank
    simp only [Option.map_id_fun']
    rw [State.modLine_id s n rfl]
  · simp only [Bank.movedFirst_ne _ _ _ hne]
    have hline : { s.line n with
        bank := (s.line n).bank.map fun b => (b.book s.now).transfer (.cat c1.category) (.cat c)
          c1.duration } = { s.line n with
        bank := some ((b.book s.clock.count).transfer (.cat c1.category) (.cat c)
          c1.duration) } := by
      rw [hb]
      rfl
    exact congrArg (Tab.set s.lines n) hline

end Record

/-! ### The open record -/

section Open

variable {s : State} {key : Key} {n : LineId} {cause : Byte} {r : Stoppage} {c : Category}

/-- The record of a line whose open record is classified at `t`. -/
def LineLive.classified (l : LineLive) (t : Nat) (first : Option Contributor) (cause : CauseCode)
    (c : Category) : LineLive :=
  { l with
    slot := l.slot.map fun r => r.classify cause c
    bank := l.bank.map fun b => (b.movedFirst t first c).switch t
      (LineLive.bucket { l with slot := l.slot.map fun r => r.classify cause c }) }

theorem LineLive.classified_bank {l : LineLive} {b : Bank} (hb : l.bank = some b) (t : Nat)
    (first : Option Contributor) (cause : CauseCode) (c : Category) :
    ∃ b', (l.classified t first cause c).bank = some b' ∧
      b'.booked = b.booked + (t - b.segStart) ∧ b'.counts = b.counts ∧
      (∀ k, b'.time k = ((b.movedFirst t first c).book t).time k) ∧
      ∀ r, l.state = .down → l.slot = some r →
        b'.booking = .cat (r.classify cause c).lastCategory := by
  obtain ⟨hcounts, hbooked⟩ := b.movedFirst_kept t first c
  refine ⟨_, (congrArg (Option.map _) hb).trans rfl, hbooked, hcounts, fun _ => rfl,
    fun r hst hs => ?_⟩
  rw [Bank.booking_switch]
  unfold LineLive.bucket
  simp only [hst, hs, Option.map_some]

/-- Booking the moved time on adds nothing: the segment in progress was booked with the move. -/
theorem Bank.time_movedFirst (b : Bank) (t : Nat) (c1 : Contributor) (c : Category) :
    (c1.category = c → ∀ k, ((b.movedFirst t (some c1) c).book t).time k = (b.book t).time k) ∧
    (c1.category ≠ c → ∀ k, ((b.movedFirst t (some c1) c).book t).time k =
      ((b.book t).transfer (.cat c1.category) (.cat c) c1.duration).time k) := by
  refine ⟨fun heq k => ?_, fun hne k => ?_⟩
  · rw [Bank.movedFirst_same _ _ _ heq]
  · rw [Bank.movedFirst_ne _ _ _ hne]
    exact Bank.time_book_of_segStart (Bank.segStart_transfer _ _ _ _) k

theorem State.classify_open (hl : key.line.toNat = n.val) (hr : s.record? key = none)
    (hs : (s.line n).slot = some r) : s.classify key cause c = s.modLine n fun l =>
      l.classified s.now (r.contributorsAt s.now).head? cause c := by
  have hfirst : s.firstContributor key = (r.contributorsAt s.now).head? := by
    simp only [State.firstContributor, hr, lineOfByte_eq hl, hs]
  have hmoved := s.firstMoved_eq key c
  have hrecord : (s.firstMoved key c).record? key = none := by
    rw [hmoved]
    exact hr
  have hnow : (s.firstMoved key c).now = s.now := by rw [hmoved]; rfl
  rw [State.classify_eq, if_neg (by rw [hrecord]; exact Bool.false_ne_true), hnow, hmoved, hfirst,
    lineOfByte_eq hl]
  generalize (r.contributorsAt s.now).head? = first
  unfold State.modBank State.modSlot State.rebook
  rw [State.modLine_modLine, State.modLine_modLine]
  refine State.modLine_congr s n ?_
  simp only [LineLive.classified, Option.map_map]
  rfl

theorem State.classifiedCode_open (hr : s.record? key = none) : s.classifiedCode key = 0x10 := by
  rw [State.classifiedCode, hr]
  rfl

/-- The first contributor as of now: its time still runs when it is the only one. -/
theorem Stoppage.head_contributorsAt {c1 : Contributor} {rest : List Contributor} {t : Nat}
    (h : r.contributors = c1 :: rest) : (r.contributorsAt t).head? =
      some { c1 with duration := if rest = [] then t - r.lastSince else c1.duration } := by
  unfold Stoppage.contributorsAt
  rw [h]
  cases rest <;> rfl

/-- The last category after a classification: the new one while contributor 1 is the last. -/
theorem Stoppage.lastCategory_classify {c1 : Contributor} {rest : List Contributor}
    (h : r.contributors = c1 :: rest) : (rest = [] → (r.classify cause c).lastCategory = c) ∧
      ∀ x, rest.getLast? = some x → (r.classify cause c).lastCategory = x.category := by
  have hcontributors : (r.classify cause c).contributors = { c1 with category := c } :: rest := by
    unfold Stoppage.classify
    rw [h]
    rfl
  unfold Stoppage.lastCategory
  rw [hcontributors]
  refine ⟨fun hnil => by rw [hnil]; rfl, fun x hx => ?_⟩
  rw [List.getLast?_cons, hx]
  rfl

end Open

/-- Settles O53: the refusals in their order; the record that is confirmed or stays open, and the time
that moves with its first contributor. -/
theorem recordsAreClassified : Obligations.RecordsAreClassified := by
  refine fun s key n cause h hl => ⟨fun hst hserial hnumber => ?candidate, fun hc =>
    ⟨fun hr ho => ?notFound, fun hfound hshift => ?shift, fun hs hserial =>
      ⟨fun r hr hlapsed => ?late, fun r hr hlapsed hcause => ?cause,
        fun hr ho hcause => ?openCause, fun r c scope b c1 rest hr hlapsed hentry hb hcs => ?record,
        fun r c scope b hr ho hslot hentry hb => ?opened⟩⟩⟩
  case candidate =>
    exact exec_classify_refused h hl (classifyRefusal_key (State.keyRefusal_candidate
      ((State.candidateHasKey_iff hl).mpr ⟨hst, hserial, hnumber⟩)))
  case notFound =>
    exact exec_classify_refused h hl (classifyRefusal_key (State.keyRefusal_notFound hc hr ho))
  case shift =>
    have hcurrent : s.shiftCurrent key = false := by
      rw [State.shiftCurrent_eq hl]
      rcases hshift with hs | hserial
      · rw [hs, Bool.false_and]
      · rw [decide_eq_false hserial, Bool.and_false]
    exact exec_classify_refused h hl (r := ⟨.shiftClosed, 0⟩) (by
      rw [classifyRefusal_found hc hfound, hcurrent]
      rfl)
  case late =>
    have hne : s.record? key ≠ none := by rw [hr]; exact Option.some_ne_none r
    exact exec_classify_refused h hl (r := ⟨.late, 0⟩) (by
      rw [classifyRefusal_current hl hc (.inl hne) hs hserial, State.lapsedKey_record hr,
        decide_eq_true hlapsed]
      rfl)
  case cause =>
    have hne : s.record? key ≠ none := by rw [hr]; exact Option.some_ne_none r
    exact exec_classify_refused h hl (r := ⟨.cause, cause⟩) (by
      rw [classifyRefusal_current hl hc (.inl hne) hs hserial, State.lapsedKey_record hr,
        decide_eq_false hlapsed, classifyCategory_none hcause]
      rfl)
  case openCause =>
    exact exec_classify_refused h hl (r := ⟨.cause, cause⟩) (by
      rw [classifyRefusal_current hl hc (.inr ho) hs hserial, State.lapsedKey_none hr,
        classifyCategory_none hcause]
      rfl)
  case record =>
    have hne : s.record? key ≠ none := by rw [hr]; exact Option.some_ne_none r
    have hcategory := classifyCategory_some hentry
    have hnone : classifyRefusal key cause s = none := by
      rw [classifyRefusal_current hl hc (.inl hne) hs hserial, State.lapsedKey_record hr,
        decide_eq_false hlapsed, hcategory]
      rfl
    have hfirst : s.firstContributor key = some c1 := by
      simp only [State.firstContributor, hr, hcs, List.head?_cons]
    have hexec := exec_classify_done h hl hnone hcategory (State.classify_record hl hr).symm rfl
    have hrecord := State.record?_confirmed (n := n) (cause := cause) (c := c) hr
      fun b => b.movedFirst s.now (some c1) c
    have hsame := State.SameButRecord.of_modBank (s := s) (n := n) (key := key)
      (fun b => b.movedFirst s.now (some c1) c) fun r => r.classify cause c
    obtain ⟨hkept, hmoved⟩ := State.lines_movedFirst (c := c) hb c1
    simp only [hfirst, State.classifiedCode_record hr, hcs, List.head?_cons] at hexec
    have hclassified : r.classify cause c = { r with
        state := .confirmed
        operatorCause := some cause
        contributors := { c1 with category := c } :: rest } := by
      unfold JournalRecord.classify
      rw [hcs]
      rfl
    refine ⟨_, hexec, hrecord.trans (congrArg some hclassified), hsame.owe _, hkept, hmoved, ?_⟩
    rw [State.owe_link]
    simp only [moveBytes, List.append_assoc]
    rfl
  case opened =>
    have hcategory := classifyCategory_some hentry
    have hnone : classifyRefusal key cause s = none := by
      rw [classifyRefusal_current hl hc (.inr ho) hs hserial, State.lapsedKey_none hr, hcategory]
      rfl
    have hfirst : s.firstContributor key = (r.contributorsAt s.now).head? := by
      simp only [State.firstContributor, hr, lineOfByte_eq hl, hslot]
    have hexec := exec_classify_done h hl hnone hcategory (State.classify_open hl hr hslot).symm rfl
    rw [State.classifiedCode_open hr, hfirst] at hexec
    obtain ⟨b', hb', hbooked, hcounts, htime, hbooking⟩ :=
      LineLive.classified_bank hb s.now (r.contributorsAt s.now).head? cause c
    have hline : (s.modLine n fun l => l.classified s.now (r.contributorsAt s.now).head?
        cause c).line n = (s.line n).classified s.now (r.contributorsAt s.now).head? cause c :=
      State.line_modLine_same s n _
    refine ⟨_, b', hexec, (congrArg LineLive.slot hline).trans ?_,
      (congrArg LineLive.state hline).trans rfl, (congrArg LineLive.bank hline).trans hb', hbooked,
      hcounts, fun c1 rest amount hcs hamount => ?_,
      fun m hm => State.line_modLine_ne s hm _, rfl⟩
    · exact (congrArg (Option.map fun r => Stoppage.classify r cause c) hslot).trans rfl
    have hhead : (r.contributorsAt s.now).head? = some { c1 with duration := amount } := by
      rw [Stoppage.head_contributorsAt hcs, hamount]
      rfl
    rw [hhead] at htime ⊢
    obtain ⟨hkept, hmoved⟩ := b.time_movedFirst s.now { c1 with duration := amount } c
    obtain ⟨hlone, hlast⟩ := Stoppage.lastCategory_classify (cause := cause) (c := c) hcs
    refine ⟨fun heq k => (htime k).trans (hkept heq k), fun hne => ?_, fun hst => ⟨fun hnil => ?_,
      fun x hx => ?_⟩, ?_⟩
    · exact (Bank.moved_transfer _ (fun heq => hne (Bucket.cat.inj heq)) amount).congr
        fun k => (htime k).trans (hmoved hne k)
    · rw [hbooking r hst hslot, hlone hnil]
    · rw [hbooking r hst hslot, hlast x hx]
    · rw [State.owe_link]
      simp only [moveBytes, List.append_assoc]
      rfl

end Sys2Proof.Machine

/-! Checks of every request (R161, R162): the guard refuses before the range, a refused request changes
nothing, and an identifier out of range is refused before the owner looks. -/

namespace Sys2Proof.Machine

/-! ### The guard (R174) -/

theorem exec_guarded {i : Instr} {kind : RequestKind} {s : State} {detail : Byte}
    (hi : i.request? = some kind) (hw : i.wellFormed = true) (hkind : kind.guarded = true)
    (h : s.receives = true) (hguard : guardRefusal s.guardMode s.pins.key = some detail) :
    exec i s = .next (s.owe (some ⟨0xFF, [kind.code, 0x04, detail]⟩)) := by
  have hb : ∀ hall, i ≠ .setClock true hall := by
    rintro hall rfl
    obtain rfl := Option.some.inj hi
    exact absurd hkind Bool.false_ne_true
  obtain ⟨length, range, owner, hserved, hlength, -⟩ := exec_served hi hb
  rw [hserved, hlength hw, State.serve_guarded h hkind hguard]

/-- Settles O12: the guard is the first check after the length. -/
theorem guardRefusesGuardedKinds : Obligations.GuardRefusesGuardedKinds := by
  intro i kind s hi hw hkind hrun hready
  have h := s.receives_iff.mpr ⟨hrun, hready⟩
  refine ⟨fun hmode hkey => exec_guarded hi hw hkind h ?_,
    fun hmode => exec_guarded hi hw hkind h ?_⟩
  · rw [hmode, hkey]
    rfl
  · rw [hmode]
    rfl

/-! ### Refused requests (R161) -/

theorem replyCode_ne_refusal (kind : RequestKind) : kind.code + 0x80 ≠ 0xFF := by
  cases kind <;> decide

/-- Where a reply of the kind FFh is owed, the owner refused. -/
theorem Answer.refused_of_reply {a : Answer} {kind : RequestKind} {r : Reply}
    (h : a.reply kind = some r) (hr : r.kind = 0xFF) : ∃ x, a = .refused x := by
  cases a with
  | done body =>
    obtain rfl := Option.some.inj h
    exact absurd hr (replyCode_ne_refusal kind)
  | refused x => exact ⟨x, rfl⟩
  | later => exact nomatch h

/-- What RECALL-SETTINGS leaves when its owner refuses it (R173). -/
theorem recallOwner_refused {s : State} {x : Refused} (h : (recallOwner s).2 = .refused x) :
    (recallOwner s).1 = s ∨
      (recallOwner s).1 = { s with imageStatus := imageExamined s.image } := by
  unfold recallOwner at h ⊢
  split
  next hany =>
    rw [if_pos hany] at h
    exact .inl (keepsRefused_checked _ _ s x h)
  next hnone =>
    rw [if_neg hnone] at h
    exact .inr (keepsRefused_checked _ _ _ x h)

theorem exec_refused {i : Instr} {kind : RequestKind} {s t : State} {r : Reply}
    (hi : i.request? = some kind) (hb : ∀ h, i ≠ .setClock true h) (h : s.receives = true)
    (hexec : exec i s = .next t) (hreply : t.link.reply = some r) (hr : r.kind = 0xFF) :
    t = s.owe (some r) ∨ kind = .recallSettings ∧
      t = State.owe { s with imageStatus := imageExamined s.image } (some r) := by
  by_cases hkind : kind = .recallSettings
  · have hrecall : i = .recallSettings := by
      subst hkind
      cases i with
      | recallSettings => rfl
      | setClock broadcast hall => cases broadcast <;> exact nomatch hi
      | _ => exact nomatch hi
    subst hkind hrecall
    have hserve : t = s.serve .recallSettings none none recallOwner :=
      (Host.Outcome.next.inj hexec).symm
    cases hcommon : s.commonRefusal .recallSettings none none with
    | some x =>
      rw [State.serve_refused h hcommon] at hserve
      subst hserve
      obtain rfl := Option.some.inj hreply
      exact .inl rfl
    | none =>
      rw [State.serve_owner h hcommon] at hserve
      subst hserve
      have hanswer : (recallOwner s).2.reply .recallSettings = some r := hreply
      obtain ⟨x, hx⟩ := Answer.refused_of_reply hanswer hr
      rw [hanswer]
      rcases recallOwner_refused hx with hsame | hstatus
      · rw [hsame]
        exact .inl rfl
      · rw [hstatus]
        exact .inr ⟨rfl, rfl⟩
  · obtain ⟨length, range, owner, hserved, -, hkeeps⟩ := exec_served hi hb
    have hserve : t = s.serve kind length range owner :=
      (Host.Outcome.next.inj ((hserved s).symm.trans hexec)).symm
    cases hcommon : s.commonRefusal kind length range with
    | some x =>
      rw [State.serve_refused h hcommon] at hserve
      subst hserve
      obtain rfl := Option.some.inj hreply
      exact .inl rfl
    | none =>
      rw [State.serve_owner h hcommon] at hserve
      subst hserve
      have hanswer : (owner s).2.reply kind = some r := hreply
      obtain ⟨x, hx⟩ := Answer.refused_of_reply hanswer hr
      rw [hanswer, hkeeps hkind s x hx]
      exact .inl rfl

/-! ### Identifiers out of range (R162 check 4) -/

section Range

variable {s : State}

theorem aboveOrNone_some {b : Byte} {top : Nat} (hne : b ≠ 0xFF) (h : top < b.toNat) :
    aboveOrNone b top = some ⟨.outOfRange, b⟩ := by
  rw [aboveOrNone, if_neg hne, above_some h]

theorem exec_line_outOfRange {i : Instr} {kind : RequestKind} {line cause depth part : Byte}
    {rate : BitVec 32} {threshold lookback deadline : BitVec 16} {expected : Carried (BitVec 32)}
    {serial number : BitVec 32}
    (hmem : i ∈ [Instr.enableLine line, .disableLine line, .closeShift line, .setRate line rate,
      .setLineTimers line threshold lookback deadline, .planBegin line cause expected,
      .planEnd line, .readLine line, .readTally line, .readOpen line, .readArchive line depth part,
      .classify ⟨line, serial, number⟩ cause, .holdRecord ⟨line, serial, number⟩,
      .releaseRecord ⟨line, serial, number⟩])
    (hi : i.request? = some kind) (h : s.Takes kind) (hline : 7 < line.toNat) :
    exec i s = .next (s.owe (some ⟨0xFF, [kind.code, 0x03, line]⟩)) := by
  have habove := above_some hline
  simp only [List.mem_cons, List.not_mem_nil, or_false] at hmem
  rcases hmem with rfl | rfl | rfl | rfl | rfl | rfl | rfl | rfl | rfl | rfl | rfl | rfl | rfl |
    rfl <;> obtain rfl := Option.some.inj hi
  case inr.inr.inr.inr.inr.inr.inr.inr.inr.inr.inl =>
    exact congrArg Host.Outcome.next
      (h.outOfRange (r := ⟨.outOfRange, line⟩) (by rw [habove, firstRefusal_some]) _)
  all_goals exact congrArg Host.Outcome.next (h.outOfRange habove _)

theorem exec_station_outOfRange {i : Instr} {kind : RequestKind} {station cause : Byte}
    (hmem : i ∈ [Instr.stationFault station cause, .readStation station,
      .readStationTally station]) (hi : i.request? = some kind) (h : s.Takes kind)
    (hstation : 63 < station.toNat) :
    exec i s = .next (s.owe (some ⟨0xFF, [kind.code, 0x03, station]⟩)) := by
  have habove := above_some hstation
  simp only [List.mem_cons, List.not_mem_nil, or_false] at hmem
  rcases hmem with rfl | rfl | rfl <;> obtain rfl := Option.some.inj hi <;>
    exact congrArg Host.Outcome.next (h.outOfRange habove _)

theorem exec_input_outOfRange {i : Instr} {kind : RequestKind} {input edge debounce limit : Byte}
    {qual : Carried QualField}
    (hmem : i ∈ [Instr.setCountInput input edge debounce limit qual, .readCountInput input])
    (hi : i.request? = some kind) (h : s.Takes kind) (hinput : 15 < input.toNat) :
    exec i s = .next (s.owe (some ⟨0xFF, [kind.code, 0x03, input]⟩)) := by
  have habove := above_some hinput
  simp only [List.mem_cons, List.not_mem_nil, or_false] at hmem
  rcases hmem with rfl | rfl <;> obtain rfl := Option.some.inj hi <;>
    exact congrArg Host.Outcome.next (h.outOfRange habove _)

theorem exec_defineStation_outOfRange {b : StationField} (h : s.Takes .defineStation) {x : Byte}
    (hrange : fieldRange b = some ⟨.outOfRange, x⟩) :
    exec (.defineStation b) s = .next (s.owe (some ⟨0xFF, [0x20, 0x03, x]⟩)) :=
  congrArg Host.Outcome.next (h.outOfRange hrange _)

theorem byte_ne_none {b : Byte} {top : Nat} (ht : top < 255) (h : b.toNat ≤ top) : b ≠ 0xFF := by
  rintro rfl
  have : (0xFF : Byte).toNat = 255 := rfl
  omega

theorem fieldTarget_some {b : StationField} (hd : b.defined ≠ 0) (hl : b.line.toNat ≤ 7) :
    fieldTarget b = some (lineOfByte b.line) :=
  if_neg fun hbad => hbad.elim hd (byte_ne_none (by decide) hl)

theorem exec_defineLine_outOfRange {line constraint x : Byte} {output : Carried Byte}
    {rejects : List Byte} (h : s.Takes .defineLine) (hlen : rejects.length ≤ 2)
    (hrange : lineRange line constraint output rejects = some ⟨.outOfRange, x⟩) :
    exec (.defineLine line constraint output rejects) s =
      .next (s.owe (some ⟨0xFF, [0x21, 0x03, x]⟩)) := by
  change Host.Outcome.next (s.serve _ _ _ _) = _
  rw [rejectsLength_none hlen]
  exact congrArg Host.Outcome.next (h.outOfRange hrange _)

/-- The first check of a list that refuses is the refusal. -/
theorem firstRefusal_append {before : List (Option Refused)} (h : ∀ c ∈ before, c = none)
    (r : Refused) (after : List (Option Refused)) :
    firstRefusal (before ++ some r :: after) = some r := by
  induction before with
  | nil => rfl
  | cons c before ih =>
    rw [h c List.mem_cons_self, List.cons_append, firstRefusal_none]
    exact ih fun c hc => h c (List.mem_cons_of_mem _ hc)

theorem lineRange_eq (line constraint : Byte) (output : Carried Byte) (rejects : List Byte) :
    lineRange line constraint output rejects = firstRefusal (above line 7 ::
      aboveOrNone constraint 63 :: carriedAbove output 15 :: rejects.map fun b => above b 15) := rfl

theorem exec_setSlots_outOfRange {before after : List Byte} {b : Byte} (h : s.Takes .setSlots)
    (hlen : before.length + 1 + after.length = 32)
    (hbefore : ∀ x ∈ before, x = 0xFF ∨ x.toNat ≤ 15) (hne : b ≠ 0xFF) (hb : 15 < b.toNat) :
    exec (.setSlots (before ++ b :: after)) s =
      .next (s.owe (some ⟨0xFF, [0x24, 0x03, b]⟩)) := by
  have hlength : slotsLength (before ++ b :: after) = none :=
    refuseIf_eq_none (decide_eq_false (by
      rw [List.length_append, List.length_cons]
      omega)) _ _
  have hrange : firstRefusal ((before ++ b :: after).map fun x => aboveOrNone x 15) =
      some ⟨.outOfRange, b⟩ := by
    rw [List.map_append, List.map_cons, aboveOrNone_some hne hb]
    refine firstRefusal_append (fun c hc => ?_) _ _
    obtain ⟨x, hx, rfl⟩ := List.mem_map.mp hc
    exact aboveOrNone_none (hbefore x hx)
  change Host.Outcome.next (s.serve _ _ _ _) = _
  rw [hlength]
  exact congrArg Host.Outcome.next (h.outOfRange hrange _)

end Range

/-- Settles O13: every request is served by the checks and its owner, which keeps the state when it
refuses; and the range of each request is the fourth check. -/
theorem refusedRequestsChangeNothing : Obligations.RefusedRequestsChangeNothing := by
  refine ⟨fun i kind s t r hi hb hrun hready hexec hreply hr =>
      exec_refused hi hb (s.receives_iff.mpr ⟨hrun, hready⟩) hexec hreply hr,
    fun s i kind line cause depth part rate threshold lookback deadline expected serial number hmem
      hi h hline => exec_line_outOfRange hmem hi h hline,
    fun s i kind station input cause edge debounce limit qual hi h =>
      ⟨fun hmem hstation => exec_station_outOfRange hmem hi h hstation,
        fun hmem hinput => exec_input_outOfRange hmem hi h hinput⟩,
    fun s b h => ⟨fun hstation => ?station, fun hstation hd => ⟨fun hne hline => ?line,
      fun hline => ⟨fun hposition => ?position, fun hposition hp hpace => ?pace⟩⟩⟩,
    fun s line constraint output rejects h hlen => ⟨fun hline => ?defineLine, fun hline =>
      ⟨fun hne hc => ?constraint, fun hc => ⟨fun hp ho => ?output,
        fun before b after ho hsplit hbefore hb => ?reject⟩⟩⟩,
    fun s before after b h hlen hbefore hne hb => exec_setSlots_outOfRange h hlen hbefore hne hb,
    fun s code defined category scope h hcode hd hp hscope => ?cause,
    fun s line depth part h hline => ⟨fun hdepth => ?depth, fun hdepth hne hpart => ?part⟩,
    fun s h => congrArg Host.Outcome.next (h.outOfRange (r := ⟨.outOfRange, 0⟩) rfl _)⟩
  case station =>
    exact exec_defineStation_outOfRange h (by
      rw [fieldRange, above_some hstation, firstRefusal_some])
  case line =>
    exact exec_defineStation_outOfRange h (by
      rw [fieldRange, above_none hstation, firstRefusal_none, if_neg hd, aboveOrNone_some hne hline,
        firstRefusal_some])
  case position =>
    exact exec_defineStation_outOfRange h (by
      rw [fieldRange, above_none hstation, firstRefusal_none, if_neg hd,
        aboveOrNone_none (.inr hline), firstRefusal_none, fieldTarget_some hd hline,
        above_some hposition]
      rfl)
  case pace =>
    exact exec_defineStation_outOfRange h (by
      rw [fieldRange, above_none hstation, firstRefusal_none, if_neg hd,
        aboveOrNone_none (.inr hline), firstRefusal_none, fieldTarget_some hd hline,
        above_none hposition, carriedAbove_some hp hpace]
      rfl)
  case defineLine =>
    exact exec_defineLine_outOfRange h hlen (by
      rw [lineRange_eq, above_some hline, firstRefusal_some])
  case constraint =>
    exact exec_defineLine_outOfRange h hlen (by
      rw [lineRange_eq, above_none hline, firstRefusal_none, aboveOrNone_some hne hc,
        firstRefusal_some])
  case output =>
    exact exec_defineLine_outOfRange h hlen (by
      rw [lineRange_eq, above_none hline, firstRefusal_none, aboveOrNone_none hc, firstRefusal_none,
        carriedAbove_some hp ho, firstRefusal_some])
  case reject =>
    have hout : output.presence = 0 ∨ output.value.toNat ≤ 15 := by
      by_cases hz : output.presence = 0
      · exact .inl hz
      · exact .inr (ho hz)
    exact exec_defineLine_outOfRange h hlen (by
      rw [lineRange_eq, above_none hline, firstRefusal_none, aboveOrNone_none hc, firstRefusal_none,
        carriedAbove_none hout, firstRefusal_none, hsplit, List.map_append, List.map_cons,
        above_some hb]
      refine firstRefusal_append (fun c hc => ?_) _ _
      obtain ⟨x, hx, rfl⟩ := List.mem_map.mp hc
      exact above_none (hbefore x hx))
  case cause =>
    exact congrArg Host.Outcome.next (h.outOfRange (r := ⟨.outOfRange, scope.value⟩) (by
      rw [causeRange, hostCodeRange_none hcode, firstRefusal_none, if_neg hd,
        carriedAbove_some hp hscope, firstRefusal_some]) _)
  case depth =>
    exact congrArg Host.Outcome.next (h.outOfRange (r := ⟨.outOfRange, depth⟩) (by
      rw [above_none hline, firstRefusal_none, above_some hdepth, firstRefusal_some]) _)
  case part =>
    exact congrArg Host.Outcome.next (h.outOfRange (r := ⟨.outOfRange, part⟩) (by
      rw [above_none hline, firstRefusal_none, above_none hdepth, firstRefusal_none,
        aboveOrNone_some hne hpart, firstRefusal_some]) _)

end Sys2Proof.Machine

/-! The receiver (R157) and the frames it completes (R158). -/

namespace Sys2Proof.Machine

/-! ### Fields that read back (R178) -/

theorem join16_extract (x : BitVec 16) :
    join16 (x.extractLsb' 8 8) (x.extractLsb' 0 8) = x :=
  (BitVec.extractLsb'_append_extractLsb'_eq_extractLsb' rfl).trans BitVec.extractLsb'_eq_self

theorem join32_extract (x : BitVec 32) : join32 (x.extractLsb' 24 8) (x.extractLsb' 16 8)
    (x.extractLsb' 8 8) (x.extractLsb' 0 8) = x := by
  unfold join32
  rw [BitVec.extractLsb'_append_extractLsb'_eq_extractLsb' (by rfl),
    BitVec.extractLsb'_append_extractLsb'_eq_extractLsb' (by rfl),
    BitVec.extractLsb'_append_extractLsb'_eq_extractLsb' (by rfl), BitVec.extractLsb'_eq_self]

theorem join48_extract (x : BitVec 48) : join48 (x.extractLsb' 40 8) (x.extractLsb' 32 8)
    (x.extractLsb' 24 8) (x.extractLsb' 16 8) (x.extractLsb' 8 8) (x.extractLsb' 0 8) = x := by
  unfold join48
  rw [BitVec.extractLsb'_append_extractLsb'_eq_extractLsb' (by rfl),
    BitVec.extractLsb'_append_extractLsb'_eq_extractLsb' (by rfl),
    BitVec.extractLsb'_append_extractLsb'_eq_extractLsb' (by rfl),
    BitVec.extractLsb'_append_extractLsb'_eq_extractLsb' (by rfl),
    BitVec.extractLsb'_append_extractLsb'_eq_extractLsb' (by rfl), BitVec.extractLsb'_eq_self]

/-! ### The receiver (R157) -/

section Receive

variable {s : State} {b : Byte} {good : Bool}

theorem State.listens_of (hrun : s.power.running = true) (h : s.link.serving ≠ .replying) :
    s.listens = true := by
  rw [State.listens, State.dir, hrun, beq_false_of_ne h]
  rfl

/-- The state whose receiver has moved on. -/
def State.withReceiver (s : State) (r : Receiver) : State :=
  { s with link := { s.link with receiver := r } }

theorem State.withReceiver_self (h : s.link.receiver = r) : s.withReceiver r = s := by
  subst h
  rfl

theorem Receiver.character_good (bytes : List Byte) (b : Byte) :
    (Receiver.receiving bytes).character b true =
      if bytes.length = 1 ∧ Config.bodyLimit < b.toNat then (.skip, none)
      else if frameSize (bytes ++ [b]) = some (bytes ++ [b]).length then
        (.hunt, some (bytes ++ [b]))
      else (.receiving (bytes ++ [b]), none) := rfl

theorem takeCharacter_none {r : Receiver} (h : s.link.receiver.character b good = (r, none)) :
    takeCharacter b good s = .next (s.withReceiver r) := by
  unfold takeCharacter
  rw [h]
  rfl

theorem exec_characterReceived {r : Receiver} (hrun : s.power.running = true)
    (hs : s.link.serving ≠ .replying) (h : s.link.receiver.character b good = (r, none)) :
    exec (.characterReceived b good) s = .next (s.withReceiver r) :=
  (if_pos (State.listens_of hrun hs)).trans (takeCharacter_none h)

end Receive

/-- Settles O14: the table of R157, row by row. -/
theorem receiverFollowsItsTable : Obligations.ReceiverFollowsItsTable := by
  refine fun s b good hrun hs => ⟨fun hr hb hg => ?start, fun hr hbad => ?hunt, fun hr => ?skip,
    fun bytes hr hg => ?bad, fun address hr hb => ?long, fun bytes hr hg hb hsize => ?taken, ?gap⟩
  case start =>
    refine exec_characterReceived hrun hs ?_
    rw [hr, hb, hg]
    rfl
  case hunt =>
    have hchar : s.link.receiver.character b good = (.hunt, none) := by
      rw [hr]
      refine if_neg fun h => ?_
      obtain ⟨hg, hb⟩ := Bool.and_eq_true_iff.mp h
      rcases hbad with hne | hg'
      · exact hne (eq_of_beq hb)
      · exact absurd (hg'.symm.trans hg) Bool.false_ne_true
    rw [exec_characterReceived hrun hs hchar, State.withReceiver_self hr]
  case skip =>
    have hchar : s.link.receiver.character b good = (.skip, none) := by rw [hr]; rfl
    rw [exec_characterReceived hrun hs hchar, State.withReceiver_self hr]
  case bad =>
    refine exec_characterReceived hrun hs ?_
    rw [hr, hg]
    rfl
  case long =>
    refine exec_characterReceived hrun hs ?_
    rw [hr]
    cases good with
    | false => rfl
    | true => rw [Receiver.character_good, if_pos ⟨rfl, hb⟩]
  case taken =>
    refine exec_characterReceived hrun hs ?_
    rw [hr, hg]
    have hlimit : ¬(bytes.length = 1 ∧ Config.bodyLimit < b.toNat) := fun ⟨hlen, hlt⟩ =>
      absurd (hb hlen) (Nat.not_le.mpr hlt)
    have hopen : ¬frameSize (bytes ++ [b]) = some (bytes ++ [b]).length := by
      rw [List.length_append]
      exact hsize
    rw [Receiver.character_good, if_neg hlimit, if_neg hopen]
  case gap =>
    exact congrArg Host.Outcome.next (if_pos (State.listens_of hrun hs))

/-! ### Complete frames (R158) -/

section Judge

variable {s idle : State} {f : Frame} {c1 c2 : Byte}

theorem Frame.length_toNat (hlen : f.body.length ≤ 240) :
    (BitVec.ofNat 8 f.body.length).toNat = f.body.length := by
  rw [BitVec.toNat_ofNat]
  omega

theorem Frame.length_covered : f.covered.length = 3 + f.body.length := by
  unfold Frame.covered
  simp only [List.length_cons]
  omega

theorem Frame.frameSize_covered (hlen : f.body.length ≤ 240) (rest : List Byte) :
    frameSize (f.covered ++ rest) = some (5 + f.body.length) := by
  have hsize : frameSize (f.covered ++ rest) =
    some (5 + (BitVec.ofNat 8 f.body.length).toNat) := rfl
  rw [hsize, Frame.length_toNat hlen]

theorem readFrame_covered (hlen : f.body.length ≤ 240) (hcheck : f.check = c1 ++ c2) :
    readFrame (f.covered ++ [c1] ++ [c2]) = some f := by
  have hread : readFrame (f.covered ++ [c1] ++ [c2]) =
      match (f.body ++ [c1] ++ [c2]).drop (BitVec.ofNat 8 f.body.length).toNat with
      | [a, b] => some { f with
          body := (f.body ++ [c1] ++ [c2]).take (BitVec.ofNat 8 f.body.length).toNat
          check := join16 a b }
      | _ => none := rfl
  rw [hread, Frame.length_toNat hlen, List.append_assoc, List.drop_left, List.take_left]
  have hjoin : join16 c1 c2 = f.check := hcheck.symm
  simp only [List.singleton_append, hjoin]

/-- The second check byte completes the frame, which is judged with the receiver back in HUNT. -/
theorem exec_frameComplete (hrun : s.power.running = true) (hs : s.link.serving ≠ .replying)
    (hlen : f.body.length ≤ 240) (hcheck : f.check = c1 ++ c2)
    (hr : s.link.receiver = .receiving (f.covered ++ [c1])) :
    exec (.frameComplete c2) s = judgeFrame f (s.withReceiver .hunt) := by
  have hlast : s.link.receiver.lastAwaited = true := by
    rw [hr, Receiver.lastAwaited, Frame.frameSize_covered hlen, List.length_append,
      Frame.length_covered, List.length_singleton]
    exact beq_iff_eq.mpr (congrArg some (by omega))
  have hchar : s.link.receiver.character c2 true = (.hunt, some (f.covered ++ [c1] ++ [c2])) := by
    rw [hr]
    have hlimit : ¬((f.covered ++ [c1]).length = 1 ∧ Config.bodyLimit < c2.toNat) := fun ⟨h, _⟩ => by
      rw [List.length_append, Frame.length_covered, List.length_singleton] at h
      omega
    have hfull : frameSize (f.covered ++ [c1] ++ [c2]) =
        some (f.covered ++ [c1] ++ [c2]).length := by
      rw [List.append_assoc, Frame.frameSize_covered hlen, List.length_append,
        Frame.length_covered]
      exact congrArg some (by simp only [List.length_append, List.length_singleton]; omega)
    rw [Receiver.character_good, if_neg hlimit, if_pos hfull]
  have htaken : takeCharacter c2 true s = judgeFrame f (s.withReceiver .hunt) := by
    unfold takeCharacter
    rw [hchar]
    simp only [Option.bind_some, readFrame_covered hlen hcheck]
    rfl
  refine (if_pos ?_).trans htaken
  rw [State.listens_of hrun hs, hlast]
  rfl

theorem judgeFrame_bad (h : f.check ≠ crc16 f.covered) : judgeFrame f s = .next s := by
  have hbad : f.good = false := beq_false_of_ne h
  unfold judgeFrame
  rw [hbad]
  rfl

theorem judgeFrame_good (h : f.check = crc16 f.covered) : judgeFrame f s =
    if s.link.serving ≠ .ready then .next s
    else if f.address = s.link.address then takeAddressed f s
    else if f.address ≠ 0 then .next s
    else if f.kind = RequestKind.setClock.code then takeBroadcast f s
    else .next s := by
  have hgood : f.good = true := beq_iff_eq.mpr h
  unfold judgeFrame
  rw [hgood]
  rfl

/-- A frame that is ignored: its reply is owed, or it is addressed to another part. -/
theorem judgeFrame_ignored (h : s.link.serving ≠ .ready ∨ f.address ≠ s.link.address ∧
    (f.address ≠ 0 ∨ f.kind ≠ 0x10)) : judgeFrame f s = .next s := by
  by_cases hcheck : f.check = crc16 f.covered
  · rw [judgeFrame_good hcheck]
    rcases h with hserving | ⟨haddress, hother⟩
    · exact if_pos hserving
    · rw [if_neg haddress]
      split
      · rfl
      split
      · rfl
      next hzero => exact if_neg (hother.resolve_left hzero)
  · exact judgeFrame_bad hcheck

theorem judgeFrame_broadcast (hcheck : f.check = crc16 f.covered) (hready : s.link.serving = .ready)
    (haddress : s.link.address ≠ 0) (hzero : f.address = 0) (hkind : f.kind = 0x10) :
    judgeFrame f s = takeBroadcast f s := by
  rw [judgeFrame_good hcheck, if_neg (not_not_intro hready),
    if_neg (by rw [hzero]; exact haddress.symm), if_neg (not_not_intro hzero)]
  exact if_pos hkind

theorem judgeFrame_addressed (hcheck : f.check = crc16 f.covered) (hready : s.link.serving = .ready)
    (haddress : f.address = s.link.address) : judgeFrame f s = takeAddressed f s := by
  rw [judgeFrame_good hcheck, if_neg (not_not_intro hready), if_pos haddress]

theorem readRequest_clock (hall : BitVec 48) :
    readRequest .setClock (bytes48 hall) = some (.setClock false hall) := by
  have hread : readRequest .setClock (bytes48 hall) = some (.setClock false
    (join48 (hall.extractLsb' 40 8) (hall.extractLsb' 32 8) (hall.extractLsb' 24 8)
      (hall.extractLsb' 16 8) (hall.extractLsb' 8 8) (hall.extractLsb' 0 8))) := rfl
  rw [hread, join48_extract]

theorem takeBroadcast_length (h : f.body.length ≠ 6) : takeBroadcast f s = .next s := by
  have hread : readRequest .setClock f.body = none := by
    match f.body, h with
    | [], _ | [_], _ | [_, _], _ | [_, _, _], _ | [_, _, _, _], _ | [_, _, _, _, _], _ => rfl
    | [_, _, _, _, _, _], h => exact absurd rfl h
    | _ :: _ :: _ :: _ :: _ :: _ :: _ :: _, _ => rfl
  unfold takeBroadcast
  rw [hread]

end Judge

/-! ### What a body reads as (R179) -/

section Read

variable {i j : Instr} {body : List Byte} {kind : RequestKind}

theorem takeNone_some (h : takeNone i body = some j) : j = i := by
  cases body with
  | nil => exact (Option.some.inj h).symm
  | cons => exact nomatch h

theorem takeOne_some {f : Byte → Instr} (h : takeOne f body = some j) : ∃ a, j = f a := by
  match body, h with
  | [a], h => exact ⟨a, (Option.some.inj h).symm⟩

theorem takeTwo_some {f : Byte → Byte → Instr} (h : takeTwo f body = some j) :
    ∃ a b, j = f a b := by
  match body, h with
  | [a, b], h => exact ⟨a, b, (Option.some.inj h).symm⟩

/-- What a body of a kind reads as is a request of that kind. -/
theorem readRequest_request (h : readRequest kind body = some i) : i.request? = some kind := by
  cases kind with
  | identify | readAlerts | readClock | storeSettings | recallSettings | readJournalStatus =>
    rw [takeNone_some h]
    rfl
  | setMonitor | setGuard | enableLine | disableLine | closeShift | planEnd | fetchRecords | readLine
  | readStation | readCountInput | readTally | readStationTally | readOpen | readCause =>
    obtain ⟨a, rfl⟩ := takeOne_some h
    rfl
  | stationFault | readPoints =>
    obtain ⟨a, b, rfl⟩ := takeTwo_some h
    rfl
  | defineStation =>
    obtain ⟨b, -, rfl⟩ := Option.map_eq_some_iff.mp h
    rfl
  | setClock | setPointMode | setLineTimers | setRate | readArchive | setSlots | classify
  | holdRecord | releaseRecord =>
    simp only [readRequest] at h
    split at h
    · obtain rfl := Option.some.inj h
      rfl
    · exact nomatch h
  | setSchedule =>
    simp only [readRequest] at h
    split at h
    · split at h
      · obtain ⟨words, -, rfl⟩ := Option.map_eq_some_iff.mp h
        rfl
      · exact nomatch h
    · exact nomatch h
  | setCause =>
    simp only [readRequest] at h
    split at h
    · split at h
      · obtain rfl := Option.some.inj h
        rfl
      · exact nomatch h
    · exact nomatch h
  | defineLine =>
    simp only [readRequest] at h
    split at h
    · split at h
      · split at h
        · obtain rfl := Option.some.inj h
          rfl
        · exact nomatch h
      · exact nomatch h
    · exact nomatch h
  | setCountInput | planBegin =>
    simp only [readRequest] at h
    split at h
    · split at h
      · split at h
        · obtain rfl := Option.some.inj h
          rfl
        · exact nomatch h
      · split at h
        · obtain rfl := Option.some.inj h
          rfl
        · exact nomatch h
    · exact nomatch h

end Read

/-- Settles O15: the completed frame is judged, and a request in it acts as its own command. -/
theorem completeFramesAreJudged : Obligations.CompleteFramesAreJudged := by
  intro s f c1 c2 idle hrun hs hlen hcheck hr hidle
  obtain rfl : idle = s.withReceiver .hunt := hidle
  rw [exec_frameComplete hrun hs hlen hcheck hr]
  refine ⟨judgeFrame_bad, fun hserving => judgeFrame_ignored (.inl ?_),
    fun hzero haddress => judgeFrame_ignored (.inr ⟨haddress, .inl hzero⟩),
    fun haddress hzero hkind => judgeFrame_ignored (.inr ⟨?_, .inr hkind⟩),
    fun hgood hready haddress hzero hkind => ⟨fun hall hbody => ?_, fun hbody => ?_⟩,
    fun hgood hready haddress => ⟨fun hnone => ?_, fun kind hsome hread => ?_,
      fun kind i hsome hread => ?_⟩⟩
  · intro hready
    exact nomatch hserving.symm.trans hready
  · rw [hzero]
    exact haddress.symm
  · rw [judgeFrame_broadcast (s := s.withReceiver .hunt) hgood hready haddress hzero hkind]
    unfold takeBroadcast
    rw [hbody, readRequest_clock]
    rfl
  · rw [judgeFrame_broadcast (s := s.withReceiver .hunt) hgood hready haddress hzero hkind, takeBroadcast_length hbody]
  all_goals rw [judgeFrame_addressed (s := s.withReceiver .hunt) hgood hready haddress, takeAddressed]
  · rw [hnone]
    rfl
  · simp only [hsome, hread]
    rfl
  · simp only [hsome, hread]
    exact takeRequest_eq_exec (readRequest_request hread) _

end Sys2Proof.Machine

/-! Every request reads back from its own body (R178, R179). -/

namespace Sys2Proof.Machine

/-! ### Kinds and lengths -/

theorem ofByte_code (kind : RequestKind) : RequestKind.ofByte kind.code = some kind := by
  cases kind <;> rfl

/-- A well-formed request fits into a frame (R156). -/
theorem body_length_le {i : Instr} (hw : i.wellFormed = true) : i.body.length ≤ 240 := by
  cases i with
  | setSchedule values => exact (Laws.BodyFits.setSchedule values).1 hw
  | defineStation b => exact (Laws.BodyFits.defineStation b).1 hw
  | defineLine line constraint output rejects =>
    exact (Laws.BodyFits.defineLine line constraint output rejects).1 hw
  | setCountInput input edge debounce limit qual =>
    exact (Laws.BodyFits.setCountInput input edge debounce limit qual).1 hw
  | setSlots entries => exact (Laws.BodyFits.setSlots entries).1 hw
  | setCause code defined category scope =>
    exact (Laws.BodyFits.setCause code defined category scope).1 hw
  | planBegin line cause expected => exact (Laws.BodyFits.planBegin line cause expected).1 hw
  | _ => exact Nat.le_of_ble_eq_true rfl

/-! ### Fields read back -/

theorem takeWords_flatMap (values : List (BitVec 32)) :
    takeWords (values.flatMap bytes32) = some values := by
  induction values with
  | nil => rfl
  | cons v values ih =>
    have hcons : takeWords ((v :: values).flatMap bytes32) =
      (takeWords (values.flatMap bytes32)).map (join32 (v.extractLsb' 24 8) (v.extractLsb' 16 8)
        (v.extractLsb' 8 8) (v.extractLsb' 0 8) :: ·) := rfl
    rw [hcons, ih, join32_extract, Option.map_some]

theorem Carried.bytes_absent {α : Type} [DecidableEq α] {c : Carried α} {zero : α}
    (h : c.canonical zero = true) (hp : c.presence = 0) : c = ⟨0, zero⟩ := by
  obtain ⟨presence, value⟩ := c
  obtain rfl : presence = 0 := hp
  simp only [Carried.canonical] at h
  rcases Bool.or_eq_true_iff.mp h with hne | hz
  · exact absurd rfl (of_decide_eq_true hne)
  · rw [of_decide_eq_true hz]

theorem takeCarried_bytes {c : Carried Byte} (h : c.canonical 0 = true) (rest : List Byte) :
    takeCarried (c.bytes (fun v => [v]) ++ rest) = some (c, rest) := by
  unfold Carried.bytes
  by_cases hp : c.presence = 0
  · rw [if_pos hp, Carried.bytes_absent h hp]
    rfl
  · rw [if_neg hp]
    exact (if_neg hp).trans rfl

theorem takeKey_bytes (k : Key) (rest : List Byte) : takeKey (k.bytes ++ rest) = some (k, rest) := by
  have hkey : takeKey (k.bytes ++ rest) = some (⟨k.line,
      join32 (k.serial.extractLsb' 24 8) (k.serial.extractLsb' 16 8) (k.serial.extractLsb' 8 8)
        (k.serial.extractLsb' 0 8),
      join32 (k.number.extractLsb' 24 8) (k.number.extractLsb' 16 8) (k.number.extractLsb' 8 8)
        (k.number.extractLsb' 0 8)⟩, rest) := rfl
  rw [hkey, join32_extract, join32_extract]

theorem takeStation_bytes {b : StationField} (hrun : b.run.canonical 0 = true)
    (hfault : b.fault.canonical 0 = true) (hblock : b.block.canonical 0 = true)
    (hstarve : b.starve.canonical 0 = true) (hpace : b.pace.canonical 0 = true) :
    takeStation b.bytes = some b := by
  have hstation : takeStation b.bytes = (do
      let (run, rest) ← takeCarried (b.run.bytes (fun v => [v]) ++
        (b.fault.bytes (fun v => [v]) ++ (b.block.bytes (fun v => [v]) ++
        (b.starve.bytes (fun v => [v]) ++ (b.pace.bytes (fun v => [v]) ++ bytes16 b.stall)))))
      let (fault, rest) ← takeCarried rest
      let (block, rest) ← takeCarried rest
      let (starve, rest) ← takeCarried rest
      let (pace, rest) ← takeCarried rest
      match rest with
      | [x, y] => some { b with run, fault, block, starve, pace, stall := join16 x y }
      | _ => none) := by
    unfold StationField.bytes
    simp only [List.append_assoc]
    rfl
  rw [hstation]
  simp only [takeCarried_bytes hrun, takeCarried_bytes hfault, takeCarried_bytes hblock,
    takeCarried_bytes hstarve, takeCarried_bytes hpace, Option.bind_eq_bind, Option.bind_some,
    bytes16, join16_extract]

/-! ### Requests read back -/

theorem readRequest_body {i : Instr} {kind : RequestKind} (hi : i.request? = some kind)
    (hw : i.wellFormed = true) (hb : ∀ h, i ≠ .setClock true h) :
    readRequest kind i.body = some i := by
  cases i with
  | frameComplete | frameGapTimeout | replyStart | replyComplete | matrixScan | chatterWindowEnd
  | slotTableInstall | countSample | windowClose | stallTimerExpiry | armedReportExpiry
  | thresholdExpiry | planOverrun | deadlineExpiry | boundaryReached | shiftLengthLimit
  | archiveWriteComplete | settingsWriteComplete | powerFail | resetAssert | powerReturn
  | resetRelease | warmStart | coldStart | characterReceived => exact nomatch hi
  | setClock broadcast hall =>
    cases broadcast with
    | true => exact absurd rfl (hb hall)
    | false =>
      obtain rfl := Option.some.inj hi
      exact readRequest_clock hall
  | setSchedule values =>
    obtain rfl := Option.some.inj hi
    have hlen : values.length ≤ 4 := of_decide_eq_true hw
    have hcount : (BitVec.ofNat 8 values.length).toNat = values.length := by
      rw [BitVec.toNat_ofNat]
      omega
    have hbody : (BitVec.ofNat 8 values.length).toNat ≤ 4 ∧
        (values.flatMap bytes32).length = 4 * (BitVec.ofNat 8 values.length).toNat := by
      rw [hcount]
      exact ⟨hlen, Laws.words_length values⟩
    refine (if_pos hbody).trans ?_
    rw [takeWords_flatMap, Option.map_some]
  | defineStation b =>
    obtain rfl := Option.some.inj hi
    simp only [Instr.wellFormed, Bool.and_eq_true] at hw
    obtain ⟨⟨⟨⟨hrun, hfault⟩, hblock⟩, hstarve⟩, hpace⟩ := hw
    exact congrArg (Option.map Instr.defineStation)
      (takeStation_bytes hrun hfault hblock hstarve hpace)
  | defineLine line constraint output rejects =>
    obtain rfl := Option.some.inj hi
    simp only [Instr.wellFormed, Bool.and_eq_true] at hw
    obtain ⟨hout, hlen⟩ := hw
    have hlen := of_decide_eq_true hlen
    have hcount : (BitVec.ofNat 8 rejects.length).toNat = rejects.length := by
      rw [BitVec.toNat_ofNat]
      omega
    have hcarried := takeCarried_bytes hout (BitVec.ofNat 8 rejects.length :: rejects)
    have hbody : (Instr.defineLine line constraint output rejects).body = line :: constraint ::
        (output.bytes (fun v => [v]) ++ BitVec.ofNat 8 rejects.length :: rejects) := rfl
    rw [hbody]
    simp only [readRequest, hcarried, hcount]
    exact if_pos ⟨hlen, trivial⟩
  | setCountInput input edge debounce limit qual =>
    obtain rfl := Option.some.inj hi
    by_cases hp : qual.presence = 0
    · rw [Carried.bytes_absent hw hp]
      rfl
    · have hbody : (Instr.setCountInput input edge debounce limit qual).body =
          [input, edge, debounce, limit, qual.presence] ++ bytes16 qual.value.offset ++
            bytes16 qual.value.width := by
        simp only [Instr.body, Carried.bytes, if_neg hp, List.append_assoc]
        rfl
      rw [hbody]
      refine (if_neg hp).trans ?_
      simp only [join16_extract]
  | setSlots entries =>
    obtain rfl := Option.some.inj hi
    exact if_pos (of_decide_eq_true hw)
  | setCause code defined category scope =>
    obtain rfl := Option.some.inj hi
    have hcarried := takeCarried_bytes hw []
    rw [List.append_nil] at hcarried
    have hbody : (Instr.setCause code defined category scope).body =
      code :: defined :: category :: scope.bytes (fun v => [v]) := rfl
    rw [hbody]
    simp only [readRequest, hcarried]
  | setLineTimers line threshold lookback deadline =>
    obtain rfl := Option.some.inj hi
    have hread : readRequest .setLineTimers (Instr.setLineTimers line threshold lookback
        deadline).body = some (.setLineTimers line
      (join16 (threshold.extractLsb' 8 8) (threshold.extractLsb' 0 8))
      (join16 (lookback.extractLsb' 8 8) (lookback.extractLsb' 0 8))
      (join16 (deadline.extractLsb' 8 8) (deadline.extractLsb' 0 8))) := rfl
    rw [hread, join16_extract, join16_extract, join16_extract]
  | setRate line rate =>
    obtain rfl := Option.some.inj hi
    have hread : readRequest .setRate (Instr.setRate line rate).body = some (.setRate line
      (join32 (rate.extractLsb' 24 8) (rate.extractLsb' 16 8) (rate.extractLsb' 8 8)
        (rate.extractLsb' 0 8))) := rfl
    rw [hread, join32_extract]
  | planBegin line cause expected =>
    obtain rfl := Option.some.inj hi
    by_cases hp : expected.presence = 0
    · rw [Carried.bytes_absent hw hp]
      rfl
    · have hbody : (Instr.planBegin line cause expected).body =
          [line, cause, expected.presence] ++ bytes32 expected.value := by
        simp only [Instr.body, Carried.bytes, if_neg hp]
        rfl
      rw [hbody]
      refine (if_neg hp).trans ?_
      simp only [join32_extract]
  | classify key cause =>
    obtain rfl := Option.some.inj hi
    have hkey := takeKey_bytes key [cause]
    simp only [readRequest, Instr.body, hkey]
  | holdRecord key | releaseRecord key =>
    obtain rfl := Option.some.inj hi
    have hkey := takeKey_bytes key []
    rw [List.append_nil] at hkey
    simp only [readRequest, Instr.body, hkey]
  | _ =>
    obtain rfl := Option.some.inj hi
    rfl

/-- Settles O10: each field of a body is read back, kind by kind. -/
theorem requestBodiesReadBack : Obligations.RequestBodiesReadBack := fun _ kind hi hw hb =>
  ⟨readRequest_body hi hw hb, ofByte_code kind, body_length_le hw⟩

end Sys2Proof.Machine

/-! The layouts of records, banks and tallies, and their sizes (R178, R180, R181). -/

namespace Sys2Proof.Machine

/-! ### Fields and flags (R178) -/

theorem be_succ (w n : Nat) : be (w + 1) n = BitVec.ofNat 8 (n / 256 ^ w) :: be w n := by
  simp only [be, List.range_succ, List.reverse_append, List.reverse_singleton,
    List.singleton_append, List.map_cons]

/-- Reading the bytes of a number, most significant first, after those of `a`. -/
theorem be_read (w n a : Nat) :
    (be w n).foldl (fun a b => 256 * a + b.toNat) a = a * 256 ^ w + n % 256 ^ w := by
  induction w generalizing a with
  | zero => simp [be, Nat.mod_one]
  | succ w ih =>
    have hsplit : n % 256 ^ (w + 1) = n % 256 ^ w + 256 ^ w * (n / 256 ^ w % 256) := by
      rw [Nat.pow_succ, Nat.mod_mul]
    rw [be_succ, List.foldl_cons, ih, BitVec.toNat_ofNat, hsplit, Nat.pow_succ]
    ring

theorem field_read {w n : Nat} (h : n < 256 ^ w) :
    (field w n).foldl (fun a b => 256 * a + b.toNat) 0 = n := by
  rw [field, if_pos h, be_read, Nat.zero_mul, Nat.zero_add, Nat.mod_eq_of_lt h]

theorem flagByte_cons (b : Bool) (rest : List Bool) :
    flagByte (b :: rest) = (if b then 1#8 else 0#8) ||| flagByte rest <<< 1 := by
  cases b <;> rfl

/-- Bit `i` of a flag byte is the flag in place `i`. -/
theorem flagByte_getLsbD (flags : List Bool) {i : Nat} (h : i < 8) :
    (flagByte flags).getLsbD i = flags.getD i false := by
  induction flags generalizing i with
  | nil => simp [flagByte]
  | cons b rest ih =>
    have hfirst : (if b then 1#8 else 0#8).getLsbD i = (b && decide (i = 0)) := by
      cases b <;> simp
    rw [flagByte_cons, BitVec.getLsbD_or, BitVec.getLsbD_shiftLeft, hfirst]
    cases i with
    | zero => simp
    | succ i =>
      rw [Nat.add_sub_cancel, ih (by omega), List.getD_cons_succ]
      simp [h]

theorem flagByte_lt (flags : List Bool) : (flagByte flags).toNat < 2 ^ flags.length := by
  induction flags with
  | nil => exact Nat.one_pos
  | cons b rest ih =>
    have hfirst : (if b then 1#8 else 0#8).toNat < 2 ^ (rest.length + 1) := by
      have hle : (if b then 1#8 else 0#8).toNat ≤ 1 := by cases b <;> decide
      exact Nat.lt_of_le_of_lt hle (Nat.one_lt_two_pow (Nat.succ_ne_zero _))
    have hshift : (flagByte rest <<< 1).toNat < 2 ^ (rest.length + 1) := by
      rw [BitVec.toNat_shiftLeft, Nat.shiftLeft_eq, pow_one]
      have := Nat.mod_le ((flagByte rest).toNat * 2) (2 ^ 8)
      rw [Nat.pow_succ]
      omega
    rw [flagByte_cons, BitVec.toNat_or, List.length_cons]
    exact Nat.or_lt_two_pow hfirst hshift

/-! ### Layouts written out -/

theorem figure_length (f : Option Nat) : (figure f).length = 2 := by
  cases f with
  | none => rfl
  | some n => exact field_length 2 n

theorem flatMap_field_length {α : Type} (w : Nat) (f : α → Nat) (l : List α) :
    (l.flatMap fun a => field w (f a)).length = w * l.length := by
  rw [List.length_flatMap]
  simp only [field_length, List.map_const', List.sum_replicate, smul_eq_mul, Nat.mul_comm]

theorem BankView.bytes_length (v : BankView) : v.bytes.length = 117 := by
  have hunplanned : unplannedCategories.length = 6 := rfl
  have hplanned : plannedCategories.length = 5 := rfl
  have htimes : ∀ l : List Category, (l.flatMap fun c => field 4 (timeOf v.times (.cat c))).length =
      4 * l.length := flatMap_field_length 4 _
  unfold BankView.bytes
  generalize unplannedCategories = unplanned at *
  generalize plannedCategories = planned at *
  simp only [List.length_append, field_length, figure_length, List.length_singleton, htimes,
    hunplanned, hplanned]

theorem StationTally.bytes_length (y : StationTally) : y.bytes.length = 48 := by
  have htimes : (y.times.toList.flatMap (field 4)).length = 4 * y.times.toList.length :=
    flatMap_field_length 4 id _
  have hseven : y.times.toList.length = 7 := Vector.length_toList
  simp only [StationTally.bytes, List.length_append, field_length, htimes, hseven]

theorem times_toList (v : Vector Nat 7) : v.toList =
    [StationState.unmonitored, .running, .stalled, .faulted, .halted, .blocked, .starved].map
      fun st => Tab.get v st.index := by
  obtain ⟨⟨l⟩, h⟩ := v
  match l, h with
  | [a, b, c, d, e, f, g], _ => rfl

/-- A record's bytes, field by field (R180). -/
theorem JournalRecord.bytes_eq (r : JournalRecord) (t : Nat) : r.bytes t =
    idByte r.line :: field 4 r.serial ++ field 4 r.number ++ field 6 r.startStamp ++
    field 4 r.duration ++ [r.entryState.code, r.state.code, r.operatorCause.getD 0] ++
    (match r.state with
      | .unconfirmed e => 1 :: field 4 (e - t)
      | .held left => 1 :: field 4 left
      | .confirmed => [0]
      | .lapsed => [0]) ++ [r.markers.byte, BitVec.ofNat 8 r.contributors.length] ++
    r.contributors.flatMap fun c => [idByte c.station, c.cause, c.category.code] ++
      field 4 c.duration := by
  have hremaining : optional (field 4) (r.state.remaining t) = match r.state with
      | .unconfirmed e => 1 :: field 4 (e - t)
      | .held left => 1 :: field 4 left
      | .confirmed => [0]
      | .lapsed => [0] := by
    cases r.state <;> rfl
  rw [← hremaining]
  simp only [JournalRecord.bytes, JournalRecord.keyBytes, contributorBytes, List.append_assoc,
    List.cons_append, List.nil_append]
  rfl

theorem Stoppage.bytes_eq (r : Stoppage) (t : Nat) : r.bytes t =
    (match r.kind with
      | .candidate _ => 1 :: field 4 0
      | .record m => 2 :: field 4 m) ++ field 4 r.serial ++ field 6 r.startStamp ++
    [r.entryState.code] ++ field 4 (t - r.startCount) ++
    [r.operatorCause.getD 0, r.markers.byte] ++
    (match r.kind with
      | .candidate e => field 4 (e - t)
      | .record _ => field 4 0) ++ [BitVec.ofNat 8 r.contributors.length] ++
    (r.contributorsAt t).flatMap fun c => [idByte c.station, c.cause, c.category.code] ++
      field 4 c.duration := by
  have hlen : (r.contributorsAt t).length = r.contributors.length := sealLast_length _ _ _
  unfold Stoppage.bytes
  cases r.kind <;>
    simp only [contributorBytes, hlen, List.append_assoc, List.cons_append, List.nil_append] <;>
    rfl

theorem Plan.bytes_eq (p : Plan) (t : Nat) : p.bytes t =
    [p.cause, p.category.code] ++ field 6 p.startStamp ++
    (match p.expected with
      | none => [0]
      | some e => 1 :: field 4 e) ++ field 4 (p.elapsedAt t) ++ [if p.overrun then 1 else 0] := by
  have hexpected : optional (field 4) p.expected = match p.expected with
      | none => [0]
      | some e => 1 :: field 4 e := by
    cases p.expected <;> rfl
  rw [← hexpected]
  rfl

theorem BankView.bytes_eq (v : BankView) : v.bytes = field 4 v.scheduled ++
    ([.u, .cat .equipment, .cat .material, .cat .operational, .cat .quality, .cat .external,
      .cat .unassigned, .m, .o, .cat .changeover, .cat .cleaning, .cat .breakPeriod, .cat .noDemand,
      .cat .maintenance, .x, .n].flatMap fun k => field 4 (timeOf v.times k)) ++
    field 4 v.counts.t ++ field 4 v.counts.j ++ field 4 v.counts.c ++ field 4 v.counts.stray ++
    field 4 v.counts.micro ++ field 4 v.counts.stoppage ++ field 4 v.counts.ideal ++
    field 4 v.counts.remainder ++ field 4 v.figures.loading ++ field 4 v.figures.good ++
    ([v.figures.availability, v.figures.performance, v.figures.quality, v.figures.oee].flatMap
      fun f => match f with
        | none => [0xFF, 0xFF]
        | some x => field 2 x) ++ [v.markerByte] := by
  have hunplanned : unplannedCategories =
    [.equipment, .material, .operational, .quality, .external, .unassigned] := rfl
  have hplanned : plannedCategories =
    [.changeover, .cleaning, .breakPeriod, .noDemand, .maintenance] := rfl
  have hfigure : (fun f : Option Nat => match f with
      | none => [0xFF, 0xFF]
      | some x => field 2 x) = figure := by
    funext f
    cases f <;> rfl
  rw [hfigure]
  unfold BankView.bytes
  simp only [hunplanned, hplanned, List.flatMap_cons, List.flatMap_nil, List.append_assoc,
    List.nil_append]

theorem StationTally.bytes_eq (y : StationTally) : y.bytes =
    ([.unmonitored, .running, .stalled, .faulted, .halted, .blocked, .starved].flatMap
      fun st : StationState => field 4 (Tab.get y.times st.index)) ++ field 4 y.rootDown ++
    field 4 y.rootDownCount ++ field 4 y.rootMicro ++ field 4 y.rootMicroCount ++
    field 4 y.pace := by
  rw [StationTally.bytes, times_toList, List.flatMap_map]

theorem State.tallyBytes_length (s : State) (n : LineId) (v : BankView) :
    (s.tallyBytes n v).length = 135 := by
  simp only [State.tallyBytes, stamp, List.length_append, field_length, BankView.bytes_length,
    List.length_cons, List.length_nil]

theorem ClosedBank.header_length (b : ClosedBank) : b.header.length = 19 := by
  simp only [ClosedBank.header, stamp, List.length_append, field_length, List.length_cons,
    List.length_nil]

theorem BankView.markerByte_bits (v : BankView) : v.markerByte.getLsbD 0 = v.countNoisy ∧
    v.markerByte.getLsbD 1 = v.degraded ∧ v.markerByte.getLsbD 2 = v.figures.overspeed ∧
    v.markerByte.getLsbD 3 = v.figures.rejectExcess ∧ v.markerByte.toNat < 16 :=
  ⟨flagByte_getLsbD _ (by decide), flagByte_getLsbD _ (by decide), flagByte_getLsbD _ (by decide),
    flagByte_getLsbD _ (by decide), flagByte_lt _⟩

theorem RecordMarkers.byte_bits (m : RecordMarkers) : m.byte.getLsbD 0 = m.degraded ∧
    m.byte.getLsbD 1 = m.capped ∧ m.byte.getLsbD 2 = m.plan ∧ m.byte.getLsbD 3 = m.outage ∧
    m.byte.getLsbD 4 = m.shiftEnd ∧ m.byte.getLsbD 5 = m.continued ∧ m.byte.toNat < 64 :=
  ⟨flagByte_getLsbD _ (by decide), flagByte_getLsbD _ (by decide), flagByte_getLsbD _ (by decide),
    flagByte_getLsbD _ (by decide), flagByte_getLsbD _ (by decide),
    flagByte_getLsbD _ (by decide), flagByte_lt _⟩

/-- Settles O22: each layout written out, and its size the sum of its fields'. -/
theorem layoutsHaveTheirSizes : Obligations.LayoutsHaveTheirSizes := by
  refine ⟨fun r t => ?_, BankView.bytes_length, StationTally.bytes_length, State.tallyBytes_length,
    ClosedBank.header_length, fun w n => ⟨field_length w n, field_read⟩, JournalRecord.bytes_eq,
    Stoppage.bytes_eq, Plan.bytes_eq, BankView.bytes_eq, BankView.markerByte_bits,
    RecordMarkers.byte_bits, fun s n v => rfl, StationTally.bytes_eq, fun b => ?_, rfl, rfl, rfl,
    fun e => rfl, rfl, rfl, rfl, rfl, rfl, rfl⟩
  · exact JournalRecord.bytes_length r t
  · simp only [ClosedBank.header, stamp, List.cons_append, List.append_assoc]
    rfl

end Sys2Proof.Machine

/-! The readings (R16, R35, R46, R64, R65, R90, R91, R115, R136, R142). -/

namespace Sys2Proof.Machine

/-! ### What a reading replies -/

section Reading

variable {s : State}

/-- No guard stands before a reading: the part takes it while it runs and owes no reply. -/
theorem State.takes_reading {kind : RequestKind} (hrun : s.power.running = true)
    (hready : s.link.serving = .ready) (hkind : kind.guarded = false) : s.Takes kind :=
  ⟨hrun, hready, fun h => absurd (hkind.symm.trans h) Bool.false_ne_true⟩

theorem State.Takes.read {kind : RequestKind} (h : s.Takes kind) {range : Option Refused}
    (hrange : range = none) {refusal : State → Option Refused} (hr : refusal s = none)
    {body : State → List Byte} {bytes : List Byte} (hb : body s = bytes) :
    s.serve kind none range (reading refusal body) = s.owe (some ⟨kind.code + 0x80, bytes⟩) := by
  rw [hrange, h.serve_reading hr, hb]

theorem State.Takes.read_refused {kind : RequestKind} (h : s.Takes kind) {range : Option Refused}
    (hrange : range = none) {refusal : State → Option Refused} {r : Refused}
    (hr : refusal s = some r) (body : State → List Byte) :
    s.serve kind none range (reading refusal body) =
      s.owe (some ⟨0xFF, [kind.code, r.reason.code, r.detail]⟩) := by
  rw [hrange, h.reading_refusal hr]

theorem toNat_lineOfByte {b : Byte} (h : b.toNat ≤ 7) : b.toNat = (lineOfByte b).val :=
  (Nat.mod_eq_of_lt (by omega : b.toNat < 8)).symm

/-- What READ-LINE replies (R90). -/
theorem State.lineBytes_eq (s : State) (n : LineId) : s.lineBytes n =
    [idByte n, match (s.lineDef n).constraint with
      | none => 0xFF
      | some k => idByte k] ++ optional (fun i => [idByte i]) (s.lineDef n).output ++
    BitVec.ofNat 8 (s.lineDef n).rejects.length :: (s.lineDef n).rejects.map idByte ++
    field 4 ((s.lineDef n).rate.getD 0) ++ field 2 (s.lineDef n).threshold ++
    field 2 (s.lineDef n).lookback ++ field 2 (s.lineDef n).deadline ++
    (s.line n).state.code :: stamp (s.line n).stamp ++ field 4 (s.line n).serial ++
    optional stamp (s.line n).openStamp ++ field 4 (s.line n).nextNumber ++
    (match (s.line n).slot.map Stoppage.kind with
      | none => 0 :: field 4 0
      | some (.candidate _) => 1 :: field 4 0
      | some (.record m) => 2 :: field 4 m) ++
    optional (fun p : Plan => [p.cause, p.category.code] ++ stamp p.startStamp ++
      optional (field 4) p.expected ++ field 4 (p.elapsedAt s.clock.count) ++
      [flag p.overrun]) (s.line n).plan := by
  have hslot : (s.line n).slotBytes = match (s.line n).slot.map Stoppage.kind with
      | none => 0 :: field 4 0
      | some (.candidate _) => 1 :: field 4 0
      | some (.record m) => 2 :: field 4 m := by
    unfold LineLive.slotBytes
    cases (s.line n).slot with
    | none => rfl
    | some r => cases hk : r.kind <;> simp only [Option.map_some, hk]
  have hconstraint : idOrNone (s.lineDef n).constraint = match (s.lineDef n).constraint with
      | none => 0xFF
      | some k => idByte k := by
    cases (s.lineDef n).constraint <;> rfl
  rw [← hslot, ← hconstraint]
  simp only [State.lineBytes, State.lineDefBytes, Plan.bytes, List.append_assoc, List.cons_append,
    List.nil_append]
  rfl

/-- The position that READ-STATION replies; without a line it is a free value (assumption 6). -/
def State.positionByte (s : State) (k : StationId) (d : StationDef) : Byte :=
  match d.place with
  | some p => idByte p.position
  | none => s.unstated k 0

theorem State.stationDefBytes_eq (s : State) (k : StationId) (d : StationDef) :
    s.stationDefBytes k d = [match d.place with
      | none => 0xFF
      | some p => idByte p.line, s.positionByte k d] ++
    optional (fun p => [idByte p]) d.run ++ optional (fun p => [idByte p]) d.fault ++
    optional (fun p => [idByte p]) d.block ++ optional (fun p => [idByte p]) d.starve ++
    optional (fun i => [idByte i]) d.pace ++ field 2 d.stall := by
  unfold State.stationDefBytes State.positionByte
  cases d.place <;> rfl

end Reading

/-- Settles O21: each reading is served with its layout written out. -/
theorem readingsReplyAndChangeNothing : Obligations.ReadingsReplyAndChangeNothing := by
  intro s line station input code first count hrun hready hline hstation hinput hcode
  have htakes : ∀ kind : RequestKind, kind.guarded = false → s.Takes kind := fun _ hkind =>
    State.takes_reading hrun hready hkind
  refine ⟨?clock, fun d l hd hl => ?line, ?opened, fun hnone => ?undefined,
    fun d v hd hv => ?station, fun taken htaken => ?points, fun d a hd ha => ?input,
    fun hbuiltIn => ?builtIn, fun hhost => ⟨fun hnone => ?noCause, fun c scope hentry => ?cause⟩,
    ?journal, fun b hs hb => ?tally, fun hs => ?noTally, fun y hserved hy => ?stationTally,
    fun hserved => ?noStationTally⟩
  case clock =>
    refine congrArg Host.Outcome.next ((htakes .readClock rfl).read rfl rfl ?_)
    simp only [State.clockBytes, List.append_assoc, List.cons_append]
    rfl
  case line =>
    refine congrArg Host.Outcome.next ((htakes .readLine rfl).read (above_none hline) rfl ?_)
    subst hd hl
    rw [State.lineBytes_eq, idByte_lineOfByte hline] <;> rfl
  case opened =>
    refine congrArg Host.Outcome.next ((htakes .readOpen rfl).read (above_none hline) rfl ?_)
    cases (s.line (lineOfByte line)).slot <;> rfl
  case undefined =>
    refine congrArg Host.Outcome.next ((htakes .readStation rfl).read (above_none hstation) rfl ?_)
    simp only [State.stationBytes, hnone, idByte_stationOfByte hstation]
  case station =>
    subst hv
    refine ⟨s.positionByte (stationOfByte station) d, fun p hp => ?_, congrArg Host.Outcome.next
      ((htakes .readStation rfl).read (above_none hstation) rfl ?_)⟩
    · rw [State.positionByte, hp]
    · simp only [State.stationBytes, hd, State.stationDefBytes_eq, StopMemory.bytes,
        idByte_stationOfByte hstation, List.append_assoc, List.cons_append, List.nil_append]
      rfl
  case points =>
    refine congrArg Host.Outcome.next ((htakes .readPoints rfl).read rfl rfl ?_)
    have hcount : pointCountTaken first count = taken := by
      rw [htaken, pointCountTaken, clamp]
    simp only [hcount, State.pointBytes]
  case input =>
    refine congrArg Host.Outcome.next ((htakes .readCountInput rfl).read (above_none hinput) rfl ?_)
    subst hd ha
    simp only [InputSettings.bytes, List.append_assoc, List.cons_append, List.nil_append]
    cases s.roleOf (inputOfByte input) <;> rfl
  all_goals have hrange : refuseIf (code = 0) .outOfRange code = none :=
    refuseIf_eq_none (decide_eq_false hcode) _ _
  case builtIn =>
    have hbuilt : Sys2Proof.Machine.builtIn code = true := by
      have hpos : code.toNat ≠ 0 := fun hz => hcode (BitVec.eq_of_toNat_eq hz)
      refine Bool.and_eq_true_iff.mpr ⟨decide_eq_true (by omega), decide_eq_true (by omega)⟩
    refine congrArg Host.Outcome.next ((htakes .readCause rfl).read hrange rfl ?_)
    simp only [causeEntry, hbuilt]
    rfl
  case noCause =>
    have hbuilt : Sys2Proof.Machine.builtIn code = false :=
      Bool.and_eq_false_iff.mpr (.inr (decide_eq_false (by omega)))
    refine congrArg Host.Outcome.next ((htakes .readCause rfl).read hrange rfl ?_)
    simp only [causeEntry, hbuilt, hnone]
    rfl
  case cause =>
    have hbuilt : Sys2Proof.Machine.builtIn code = false :=
      Bool.and_eq_false_iff.mpr (.inr (decide_eq_false (by omega)))
    refine congrArg Host.Outcome.next ((htakes .readCause rfl).read hrange rfl ?_)
    simp only [causeEntry, hbuilt, hentry]
    rfl
  case journal =>
    exact congrArg Host.Outcome.next ((htakes .readJournalStatus rfl).read rfl rfl
      (by simp only [List.append_assoc, List.cons_append]; rfl))
  case tally =>
    refine congrArg Host.Outcome.next ((htakes .readTally rfl).read (above_none hline)
      (State.notInService_none (toNat_lineOfByte hline) hs) ?_)
    simp only [State.tallyReading, hb]
    rfl
  case noTally =>
    exact congrArg Host.Outcome.next ((htakes .readTally rfl).read_refused (above_none hline)
      (r := ⟨.notInService, line⟩) (State.notInService_some (toNat_lineOfByte hline) hs) _)
  case stationTally =>
    refine congrArg Host.Outcome.next ((htakes .readStationTally rfl).read (above_none hstation)
      (refuseIf_eq_none (by rw [hserved]; rfl) _ _) ?_)
    have htally : (s.station (stationOfByte station)).tallyAt s.now = some y := hy
    simp only [htally]
    rfl
  case noStationTally =>
    exact congrArg Host.Outcome.next ((htakes .readStationTally rfl).read_refused
      (above_none hstation) (r := ⟨.notInService, station⟩)
      (refuseIf_eq_some (by rw [hserved]; rfl) _ _) _)

end Sys2Proof.Machine

/-! READ-ARCHIVE (R152): the depths of a line's archive, and the parts of an entry. -/

namespace Sys2Proof.Machine

section Archive

variable {s : State} {line depth part : Byte}

theorem archiveRange_none (hline : line.toNat ≤ 7) (hdepth : depth.toNat ≤ 7)
    (hpart : part = 0xFF ∨ part.toNat ≤ 63) :
    firstRefusal [above line 7, above depth 7, aboveOrNone part 63] = none := by
  rw [above_none hline, above_none hdepth, aboveOrNone_none hpart]
  rfl

theorem exec_readArchive_refused (h : s.Takes .readArchive)
    (hrange : firstRefusal [above line 7, above depth 7, aboveOrNone part 63] = none)
    (hr : archiveRefusal line depth part s = some ⟨.notFound, 0⟩) :
    exec (.readArchive line depth part) s = .next (s.owe (some ⟨0xFF, [0x68, 0x0A, 0]⟩)) :=
  congrArg Host.Outcome.next (h.refused hrange (r := ⟨.notFound, 0⟩) hr _)

theorem exec_readArchive_done (h : s.Takes .readArchive)
    (hrange : firstRefusal [above line 7, above depth 7, aboveOrNone part 63] = none)
    (hr : archiveRefusal line depth part s = none) {t : State} {bytes : List Byte}
    (ht : s.readArchive line depth part = (t, bytes)) :
    exec (.readArchive line depth part) s = .next (t.owe (some ⟨0xE8, bytes⟩)) := by
  refine congrArg Host.Outcome.next ((h.done hrange hr _).trans ?_)
  rw [ht]
  rfl

/-- An entry lacks a part exactly when the part is a station whose tally it does not hold. -/
theorem ClosedBank.lacks_bank (b : ClosedBank) : b.lacks 0xFF = false := rfl

theorem ClosedBank.lacks_station (b : ClosedBank) (hpart : part ≠ 0xFF) :
    b.lacks part = (b.tallyOf (stationOfByte part)).isNone := by
  rw [ClosedBank.lacks, bne_iff_ne.mpr hpart, Bool.true_and]

theorem ClosedBank.partBytes_station {b : ClosedBank} (hpart : part ≠ 0xFF) {y : StationTally}
    (hy : b.tallyOf (stationOfByte part) = some y) : b.partBytes part = part :: y.bytes := by
  rw [ClosedBank.partBytes, if_neg hpart, hy]
  rfl

/-- What stands at a depth behind a staged bank, or with none staged (R152). -/
theorem State.atDepth_stored {place : Nat}
    (hplace : (s.line (lineOfByte line)).staging = none ∧ place = depth.toNat ∨
      (s.line (lineOfByte line)).staging ≠ none ∧ place + 1 = depth.toNat) :
    s.atDepth (lineOfByte line) depth.toNat = s.storedAt (lineOfByte line) place := by
  unfold State.atDepth
  rcases hplace with ⟨hnone, rfl⟩ | ⟨hsome, hdepth⟩
  · rw [hnone]
  · cases hstaging : (s.line (lineOfByte line)).staging with
    | none => exact absurd hstaging hsome
    | some b =>
      rw [← hdepth]
      exact if_neg (Nat.succ_ne_zero place)

variable (h : s.Takes .readArchive)
  (hrange : firstRefusal [above line 7, above depth 7, aboveOrNone part 63] = none)

include h hrange

theorem exec_readArchive_missing (hat : s.atDepth (lineOfByte line) depth.toNat = .nothing) :
    exec (.readArchive line depth part) s = .next (s.owe (some ⟨0xFF, [0x68, 0x0A, 0]⟩)) :=
  exec_readArchive_refused h hrange (by rw [archiveRefusal, hat])

theorem exec_readArchive_damaged {e : Stored}
    (hat : s.atDepth (lineOfByte line) depth.toNat = .stored e) (hbad : e.damaged = true) :
    exec (.readArchive line depth part) s = .next (State.owe { s with alerts := s.alerts ||| 0x08 }
      (some ⟨0xE8, [line, depth, 0, 1]⟩)) := by
  refine exec_readArchive_done h hrange ?_ ?_
  · simp only [archiveRefusal, hat, hbad]
    rfl
  · simp only [State.readArchive, hat, hbad]
    rfl

/-- An entry that is not damaged gives the part asked for, or NOT-FOUND; `mark` says whether it is
staged. -/
theorem exec_readArchive_entry {b : ClosedBank} {mark : Byte}
    (hrefusal : archiveRefusal line depth part s = refuseIf (b.lacks part) .notFound 0)
    (hread : s.readArchive line depth part =
      (s, [line, depth, mark, 0] ++ b.header ++ b.partBytes part)) :
    (part = 0xFF → exec (.readArchive line depth part) s =
      .next (s.owe (some ⟨0xE8, [line, depth, mark, 0] ++ b.header ++ b.view.bytes⟩))) ∧
    (part ≠ 0xFF →
      (∀ y, b.tallyOf (stationOfByte part) = some y → exec (.readArchive line depth part) s =
        .next (s.owe (some ⟨0xE8, [line, depth, mark, 0] ++ b.header ++ part :: y.bytes⟩))) ∧
      (b.tallyOf (stationOfByte part) = none → exec (.readArchive line depth part) s =
        .next (s.owe (some ⟨0xFF, [0x68, 0x0A, 0]⟩)))) := by
  refine ⟨fun hpart => ?bank, fun hpart => ⟨fun y hy => ?station, fun hnone => ?lacking⟩⟩
  case bank =>
    refine exec_readArchive_done h hrange ?_ ?_
    · rw [hrefusal, hpart, ClosedBank.lacks_bank]
      rfl
    · rw [hread, ClosedBank.partBytes, if_pos hpart]
  case station =>
    refine exec_readArchive_done h hrange ?_ ?_
    · rw [hrefusal, ClosedBank.lacks_station b hpart, hy]
      rfl
    · rw [hread, ClosedBank.partBytes_station hpart hy]
  case lacking =>
    refine exec_readArchive_refused h hrange ?_
    rw [hrefusal, ClosedBank.lacks_station b hpart, hnone]
    rfl

end Archive

/-- Settles O23: the staged bank, and each stored entry behind it. -/
theorem readArchiveServesTheDepths : Obligations.ReadArchiveServesTheDepths := by
  intro s line depth part missing h hline hdepth hpart hmissing
  subst hmissing
  have hrange := archiveRange_none hline hdepth hpart
  refine ⟨fun b hb hzero => ?staged, fun place hplace => ⟨fun hnone => ?nothing,
    fun e he => ⟨fun hbad => ?damaged, fun hgood => ?stored⟩⟩⟩
  case staged =>
    subst hzero
    have hat : s.atDepth (lineOfByte line) (0 : Byte).toNat = .staged b := by
      unfold State.atDepth
      rw [hb]
      rfl
    exact exec_readArchive_entry h hrange (mark := 1) (by simp only [archiveRefusal, hat])
      (by simp only [State.readArchive, hat])
  all_goals have hat := State.atDepth_stored (depth := depth) hplace
  case nothing =>
    exact exec_readArchive_missing h hrange (hat.trans (by rw [State.storedAt, hnone]))
  all_goals replace hat : s.atDepth (lineOfByte line) depth.toNat = .stored e :=
    hat.trans (by rw [State.storedAt, he])
  case damaged =>
    exact exec_readArchive_damaged h hrange hat (decide_eq_true hbad)
  case stored =>
    have hsound : e.damaged = false := decide_eq_false (not_not_intro hgood)
    exact exec_readArchive_entry h hrange (mark := 0)
      (by simp only [archiveRefusal, hat, hsound, Bool.not_false, Bool.true_and])
      (by simp only [State.readArchive, hat, hsound, Bool.false_eq_true, if_false])

end Sys2Proof.Machine

/-! COUNT-SAMPLE of an input whose sample makes no accepted change (R19 to R26, R36). -/

namespace Sys2Proof.Machine

/-! ### One sample (R21, R22) -/

namespace InputAcq

variable {a : InputAcq} {d : InputSettings} {active level : Bool}

theorem value_of_accepted (h : a.accepted = if level then .on else .off) :
    a.accepted.value? = some level := by
  rw [h]
  cases level <;> rfl

/-- A sample at the accepted level, with no run in progress. -/
theorem sample_steady (h : a.accepted = if level then .on else .off) (hl : active = level)
    (hrun : a.run = 0) :
    a.sample d active = ⟨{ a with lastSample := some active }, false, none⟩ := by
  unfold InputAcq.sample
  simp only [value_of_accepted h, if_pos hl, if_pos hrun]

/-- A sample at the accepted level breaks a run off: a glitch (R21). -/
theorem sample_glitch (h : a.accepted = if level then .on else .off) (hl : active = level)
    (hrun : a.run ≠ 0) : a.sample d active =
      ⟨(InputAcq.glitch { a with lastSample := some active, run := 0 } d).1,
        (InputAcq.glitch { a with lastSample := some active, run := 0 } d).2, none⟩ := by
  unfold InputAcq.sample
  simp only [value_of_accepted h, if_pos hl, if_neg hrun]

/-- A sample at the other level: the run goes on, or the change is accepted (R22). -/
theorem sample_run (h : a.accepted = if level then .on else .off) (hl : active ≠ level)
    (hrun : a.run + 1 ≠ d.debounce) : a.sample d active =
      ⟨{ a with run := a.run + 1, lastSample := some active }, false, none⟩ := by
  unfold InputAcq.sample
  simp only [value_of_accepted h, if_neg hl, if_neg hrun]

theorem sample_accepted (h : a.accepted = if level then .on else .off) (hl : active ≠ level)
    (hrun : a.run + 1 = d.debounce) : a.sample d active =
      ⟨{ a with accepted := if active then .on else .off, run := 0, lastSample := some active },
        false, some active⟩ := by
  unfold InputAcq.sample
  simp only [value_of_accepted h, if_neg hl, if_pos hrun]
  cases active <;> rfl

/-- A sample of an input that has not settled (R22). -/
theorem sample_unsettled (h : a.accepted = .unsettled) {run : Nat}
    (hrun : run = if a.lastSample = some active then a.run + 1 else 1) : a.sample d active =
      if d.debounce ≤ run then
        ⟨{ a with accepted := if active then .on else .off, run := 0, lastSample := some active },
          false, none⟩
      else ⟨{ a with run := run, lastSample := some active }, false, none⟩ := by
  have hnone : a.accepted.value? = none := by rw [h]; rfl
  unfold InputAcq.sample
  simp only [hnone, ← hrun]
  cases active <;> rfl

/-- The glitch counter stops at 255; at its limit the input becomes noisy (R21, R25). -/
theorem glitch_full (h : 255 ≤ a.glitches) : a.glitch d = (a, false) := if_pos h

theorem glitch_below (h : a.glitches < 255) (hlimit : d.limit ≠ a.glitches + 1) :
    a.glitch d = ({ a with glitches := a.glitches + 1 }, false) :=
  (if_neg (Nat.not_le.mpr h)).trans (if_neg fun hc => hlimit hc.2.symm)

theorem glitch_limit (h : a.glitches < 255) (hlimit : d.limit = a.glitches + 1) :
    a.glitch d = ({ a with glitches := a.glitches + 1, noisy := true }, true) :=
  (if_neg (Nat.not_le.mpr h)).trans (if_pos ⟨by omega, hlimit.symm⟩)

end InputAcq

/-! ### The sampler -/

section Sample

variable {s : State} {slot : SlotId} {active : Bool} {i : InputId}

/-- A state whose input `i` has the record `a`. -/
def State.withInput (s : State) (i : InputId) (a : InputAcq) : State :=
  { s with inputs := Tab.set s.inputs i a }

theorem exec_countSample (hrun : s.power.running = true) (hframe : s.awaitsFrame = false)
    (hi : Tab.get s.installed slot = some i) : exec (.countSample slot active) s =
      .next (s.putSample i ((s.input i).sample (s.inputDef i) active)) := by
  refine (execCountSample_of_frame hframe hrun slot active).trans ?_
  unfold State.sampleSlot
  rw [hi]

theorem exec_countSample_empty (hrun : s.power.running = true) (hframe : s.awaitsFrame = false)
    (hi : Tab.get s.installed slot = none) : exec (.countSample slot active) s = .next s := by
  refine (execCountSample_of_frame hframe hrun slot active).trans ?_
  unfold State.sampleSlot
  rw [hi]

/-- A sample without an accepted change and without noise changes the input's record alone. -/
theorem State.putSample_plain (s : State) (i : InputId) (a : InputAcq) :
    s.putSample i ⟨a, false, none⟩ = s.withInput i a := rfl

/-- An input that reached its glitch limit: the alert, and the mark of the bank (R25, R26, R129). -/
theorem State.handNoisy_spec (s : State) (i : InputId) (wasNoisy : Bool) : ∃ lines,
    s.handNoisy i wasNoisy = { s with alerts := s.alerts ||| 0x02, lines := lines } ∧
    ((s.servedLine i = none ∨ wasNoisy = true) → lines = s.lines) ∧
    ∀ n, s.servedLine i = some n → wasNoisy = false → lines = Tab.set s.lines n { s.line n with
      bank := (s.line n).bank.map fun b => { b with countNoisy := true } } := by
  have hserved : (s.latch .countNoisy).servedLine i = s.servedLine i := rfl
  unfold State.handNoisy
  cases wasNoisy with
  | true => exact ⟨s.lines, rfl, fun _ => rfl, fun _ _ h => nomatch h⟩
  | false =>
    simp only [hserved, Bool.false_eq_true, if_false]
    cases h : s.servedLine i with
    | none => exact ⟨s.lines, rfl, fun _ => rfl, fun _ hn => nomatch hn⟩
    | some n =>
      refine ⟨Tab.set s.lines n { s.line n with
        bank := (s.line n).bank.map fun b => { b with countNoisy := true } }, rfl,
        fun hbad => hbad.elim (fun hnone => nomatch hnone) (fun hfalse => nomatch hfalse),
        fun m hm _ => ?_⟩
      rw [Option.some.inj hm]

end Sample

/-- Settles O29: a frame that is waited for; an empty slot; and the cases of a sample. -/
theorem countSampleWithoutAChange : Obligations.CountSampleWithoutAChange := by
  refine fun s slot active hrun => ⟨fun hframe => ⟨fun hslot => ?waits, fun hslot => ?begins⟩,
    fun hframe hi => exec_countSample_empty hrun hframe hi,
    fun i level hframe hi hlevel => ⟨fun hl hz => ?steady, fun hl hne => ?goesOn,
      fun hl hz hfull => ?full, fun hl hz hlt hlimit => ?glitch, fun hl hz hlt hlimit => ?noisy⟩,
    fun i run hframe hi hlevel hr => ⟨fun hlt => ?settling, fun hle => ?settles⟩⟩
  case waits =>
    have hsamples : s.samples slot = false := by
      rw [State.samples, hframe, beq_false_of_ne hslot]
      rfl
    refine congrArg Host.Outcome.next (if_neg ?_)
    rw [hsamples, Bool.and_false]
    exact Bool.false_ne_true
  case begins =>
    subst hslot
    have hsamples : s.samples 0 = true := Bool.or_true _
    rw [show exec (.countSample 0 active) { s with awaitsFrame := false } =
      .next (s.beginFrame.sampleSlot 0 active) from
        execCountSample_of_frame (s := s.beginFrame) rfl hrun 0 active]
    refine congrArg Host.Outcome.next (if_pos ?_)
    rw [hrun, hsamples]
    rfl
  all_goals rw [exec_countSample hrun hframe hi]
  case steady => rw [InputAcq.sample_steady hlevel hl hz]; rfl
  case goesOn => rw [InputAcq.sample_run hlevel hl hne]; rfl
  case full =>
    rw [InputAcq.sample_glitch hlevel hl hz,
      InputAcq.glitch_full (a := { s.input i with lastSample := some active, run := 0 }) hfull]
    rfl
  case glitch =>
    rw [InputAcq.sample_glitch hlevel hl hz,
      InputAcq.glitch_below (a := { s.input i with lastSample := some active, run := 0 }) hlt hlimit]
    rfl
  case noisy =>
    rw [InputAcq.sample_glitch hlevel hl hz,
      InputAcq.glitch_limit (a := { s.input i with lastSample := some active, run := 0 }) hlt hlimit]
    obtain ⟨lines, hnoisy, hkept, hmarked⟩ := State.handNoisy_spec (s.withInput i { s.input i with
      run := 0, glitches := (s.input i).glitches + 1, noisy := true, lastSample := some active }) i
      (s.input i).noisy
    exact ⟨lines, congrArg Host.Outcome.next hnoisy, hkept, hmarked⟩
  case settling =>
    rw [InputAcq.sample_unsettled hlevel hr, if_neg (Nat.not_le.mpr hlt)]
    rfl
  case settles =>
    rw [InputAcq.sample_unsettled hlevel hr, if_pos hle]
    rfl

end Sys2Proof.Machine

/-! What a line makes of an event of its members (R73 to R84): its turn, case by case. -/

namespace Sys2Proof.Machine

/-! ### The degraded flags come first (R84, R128) -/

/-- The station of the line's latest walk has another degraded flag than before. -/
def State.slotFlagMoved (old s : State) (n : LineId) : Bool :=
  match (s.line n).slot with
  | some r => degradedChanged old s r.walkStation
  | none => false

/-- The state after a line takes the degraded flags of its constraint and its latest walk. -/
def State.flagged (old s : State) (n : LineId) (k : StationId) : State :=
  let u := if degradedChanged old s k && (s.station k).degraded then s.markBankDegraded n else s
  if degradedChanged old s k || State.slotFlagMoved old s n then u.testDegraded n else u

/-- The record of a line whose bank is marked degraded, or not. -/
def LineLive.marked (l : LineLive) (d : Bool) : LineLive :=
  { l with bank := l.bank.map fun b => { b with degraded := b.degraded || d } }

theorem LineLive.marked_false (l : LineLive) : l.marked false = l := by
  have hbank : l.bank.map (fun b => { b with degraded := b.degraded || false }) = l.bank := by
    cases l.bank with
    | none => rfl
    | some b => simp
  rw [LineLive.marked, hbank]

theorem State.flagged_eq (old s : State) (n : LineId) (k : StationId) :
    State.flagged old s n k = s.modLine n fun l =>
      (l.marked (degradedChanged old s k && (s.station k).degraded)).degrade
        ((degradedChanged old s k || State.slotFlagMoved old s n) && s.newlyDegraded n) := by
  have hmark : (if degradedChanged old s k && (s.station k).degraded then s.markBankDegraded n
      else s) = s.modLine n fun l =>
        l.marked (degradedChanged old s k && (s.station k).degraded) := by
    cases (degradedChanged old s k && (s.station k).degraded) with
    | true =>
      refine State.modLine_congr s n ?_
      simp only [LineLive.marked, Bool.or_true]
    | false => exact (s.modLine_id n (LineLive.marked_false _)).symm
  unfold State.flagged
  dsimp only
  rw [hmark]
  have hnewly : (s.modLine n fun l => l.marked (degradedChanged old s k &&
      (s.station k).degraded)).newlyDegraded n = s.newlyDegraded n := by
    unfold State.newlyDegraded
    rw [State.line_modLine_same]
    rfl
  generalize (degradedChanged old s k && (s.station k).degraded) = marked at *
  cases (degradedChanged old s k || State.slotFlagMoved old s n) with
  | true =>
    rw [if_pos rfl, State.testDegraded_eq, hnewly, State.modLine_modLine, Bool.true_and]
  | false =>
    rw [if_neg Bool.false_ne_true]
    refine State.modLine_congr s n ?_
    rw [Bool.false_and, LineLive.degrade_false]

/-- Where no degraded flag changes, there is nothing to take. -/
theorem State.flagged_same {old s : State}
    (h : ∀ m, (old.station m).degraded = (s.station m).degraded) (n : LineId) (k : StationId) :
    State.flagged old s n k = s := by
  have hsame : ∀ m, degradedChanged old s m = false := fun m => bne_eq_false_iff_eq.mpr (h m)
  have hslot : State.slotFlagMoved old s n = false := by
    unfold State.slotFlagMoved
    split
    · exact hsame _
    · rfl
  unfold State.flagged
  rw [hsame, hslot]
  rfl

/-! ### The changes of the members (R73) -/

/-- What line `n`, whose constraint is `k`, makes of the state and cause changes of its members. -/
def State.memberNews (old s : State) (n : LineId) (k : StationId) : State :=
  let mine := memberChanged old s k
  let others := (s.members n).any fun m => m != k && memberChanged old s m
  let st := (s.station k).state
  match (s.line n).state with
  | .resuming => if mine && st != .unmonitored then s.evaluate n else s
  | .running => if mine && st != .running then s.openCandidate n else s
  | .pendingStop =>
    if mine && st == .running then (s.endMicro n s.now).enterLine n .running s.now
    else if mine || others then s.rewalk n
    else s
  | .down =>
    if mine && st == .running then (s.closeRecord n .returned s.now).enterLine n .running s.now
    else if mine || others then s.rewalk n
    else s
  | .planned => s
  | .outOfService => s

section News

variable {old s : State} {n : LineId} {k : StationId}

theorem State.lineNews_eq (hs : s.inService n = true) (hk : (s.lineDef n).constraint = some k) :
    State.lineNews old s n = State.memberNews old (State.flagged old s n k) n k := by
  have hnews : State.lineNews old s n =
      let u := State.flagged old s n k
      let mine := memberChanged old s k
      let others := (s.members n).any fun m => m != k && memberChanged old s m
      let st := (s.station k).state
      match (s.line n).state with
      | .resuming => if mine && st != .unmonitored then u.evaluate n else u
      | .running => if mine && st != .running then u.openCandidate n else u
      | .pendingStop =>
        if mine && st == .running then (u.endMicro n s.now).enterLine n .running s.now
        else if mine || others then u.rewalk n
        else u
      | .down =>
        if mine && st == .running then (u.closeRecord n .returned s.now).enterLine n .running s.now
        else if mine || others then u.rewalk n
        else u
      | .planned => u
      | .outOfService => u := by
    unfold State.lineNews
    rw [hs, hk]
    rfl
  have hflagged := State.flagged_eq old s n k
  have hstate : ((State.flagged old s n k).line n).state = (s.line n).state := by
    rw [hflagged, State.line_modLine_same]
    rfl
  have hstation : ∀ m, (State.flagged old s n k).station m = s.station m := fun m => by
    rw [hflagged]
    rfl
  have hmembers : (State.flagged old s n k).members n = s.members n := by
    rw [hflagged]
    exact State.members_modLine s n _ n
  have hnow : (State.flagged old s n k).now = s.now := by
    rw [hflagged]
    rfl
  rw [hnews]
  unfold State.memberNews memberChanged
  simp only [hstate, hstation, hmembers, hnow]

theorem memberChanged_iff : memberChanged old s k = true ↔ old.Moved s k := by
  simp only [memberChanged, State.Moved, Bool.or_eq_true, bne_iff_ne]

theorem memberChanged_false (h : ¬ old.Moved s k) : memberChanged old s k = false :=
  Bool.eq_false_iff.mpr fun heq => h (memberChanged_iff.mp heq)

theorem othersChanged_iff : ((s.members n).any fun m => m != k && memberChanged old s m) = true ↔
    ∃ m ∈ s.members n, m ≠ k ∧ old.Moved s m := by
  simp only [List.any_eq_true, Bool.and_eq_true, bne_iff_ne, memberChanged_iff]

theorem State.memberNews_planned (hst : (s.line n).state = .planned) :
    State.memberNews old s n k = s := by
  simp only [State.memberNews, hst]

/-- A line that runs or waits takes no note of a constraint that did not move. -/
theorem State.memberNews_still (hst : (s.line n).state = .running ∨ (s.line n).state = .resuming)
    (hk : ¬ old.Moved s k) : State.memberNews old s n k = s := by
  rcases hst with hst | hst <;>
    simp only [State.memberNews, hst, memberChanged_false hk, Bool.false_and, Bool.false_eq_true,
      if_false]

theorem State.memberNews_resuming (hst : (s.line n).state = .resuming) (hk : old.Moved s k)
    (hu : (s.station k).state ≠ .unmonitored) : State.memberNews old s n k = s.evaluate n := by
  simp only [State.memberNews, hst, memberChanged_iff.mpr hk, bne_iff_ne.mpr hu, Bool.and_self,
    if_true]

theorem State.memberNews_running (hst : (s.line n).state = .running) (hk : old.Moved s k)
    (hr : (s.station k).state ≠ .running) : State.memberNews old s n k = s.openCandidate n := by
  simp only [State.memberNews, hst, memberChanged_iff.mpr hk, bne_iff_ne.mpr hr, Bool.and_self,
    if_true]

theorem State.memberNews_micro (hst : (s.line n).state = .pendingStop) (hk : old.Moved s k)
    (hr : (s.station k).state = .running) : State.memberNews old s n k =
      (s.endMicro n s.now).enterLine n .running s.now := by
  simp only [State.memberNews, hst, memberChanged_iff.mpr hk, beq_iff_eq.mpr hr, Bool.and_self,
    if_true]

theorem State.memberNews_returned (hst : (s.line n).state = .down) (hk : old.Moved s k)
    (hr : (s.station k).state = .running) : State.memberNews old s n k =
      (s.closeRecord n .returned s.now).enterLine n .running s.now := by
  simp only [State.memberNews, hst, memberChanged_iff.mpr hk, beq_iff_eq.mpr hr, Bool.and_self,
    if_true]

/-- A stopped line walks again when the constraint moves without returning, or another member
moves. -/
theorem State.memberNews_rewalk
    (hst : (s.line n).state = .pendingStop ∨ (s.line n).state = .down)
    (h : old.Moved s k ∧ (s.station k).state ≠ .running ∨
      ¬ old.Moved s k ∧ ∃ m ∈ s.members n, m ≠ k ∧ old.Moved s m) :
    State.memberNews old s n k = s.rewalk n := by
  have hreturn : (memberChanged old s k && (s.station k).state == .running) = false := by
    rcases h with ⟨-, hne⟩ | ⟨hk, -⟩
    · rw [beq_false_of_ne hne, Bool.and_false]
    · rw [memberChanged_false hk, Bool.false_and]
  have hmoved : (memberChanged old s k ||
      (s.members n).any fun m => m != k && memberChanged old s m) = true := by
    rcases h with ⟨hk, -⟩ | ⟨-, hothers⟩
    · rw [memberChanged_iff.mpr hk, Bool.true_or]
    · rw [othersChanged_iff.mpr hothers, Bool.or_true]
  rcases hst with hst | hst <;>
    simp only [State.memberNews, hst, hreturn, hmoved, Bool.false_eq_true, if_false, if_true]

/-- Where no member moved, there is nothing to make of it. -/
theorem State.memberNews_unmoved (h : ∀ m, ¬ old.Moved s m) : State.memberNews old s n k = s := by
  have hothers : ((s.members n).any fun m => m != k && memberChanged old s m) = false :=
    Bool.eq_false_iff.mpr fun heq => by
      obtain ⟨m, -, -, hm⟩ := othersChanged_iff.mp heq
      exact h m hm
  unfold State.memberNews
  rw [hothers, memberChanged_false (h k)]
  cases (s.line n).state <;> rfl

end News

/-! ### Walking again (R80 to R82) -/

/-- The walk finds the last contributor again. -/
def State.walksOn (s : State) (n : LineId) (r : Stoppage) : Bool :=
  match r.contributors.getLast? with
  | some c => c.station == (s.walk n).1 && c.cause == (s.walk n).2
  | none => false

/-- The stoppage after another walk, before the degraded test. -/
def State.rewalkedSlot (s : State) (n : LineId) (r : Stoppage) : Stoppage :=
  if s.walksOn n r then { r with walkStation := (s.walk n).1 }
  else if 4 ≤ r.contributors.length then
    { r with walkStation := (s.walk n).1, markers := { r.markers with capped := true } }
  else
    { r with
      walkStation := (s.walk n).1
      contributors := r.contributorsAt s.now ++ [s.newContributor (s.walk n)]
      lastSince := s.now }

/-- The walk finds another contributor, and there is room for it. -/
def State.appends (s : State) (n : LineId) (r : Stoppage) : Bool :=
  !s.walksOn n r && decide (r.contributors.length < 4)

/-- Whether the walk finds the stoppage degraded, and it is not yet marked (R84). -/
def State.walkDegrades (s : State) (n : LineId) (r : Stoppage) : Bool :=
  !r.markers.degraded && (s.constraintDegraded n || (s.station (s.walk n).1).degraded)

/-- The record of a line with another stoppage in its slot, its bank booked on where a contributor is
appended. -/
def LineLive.rewalked (l : LineLive) (q : Stoppage) (t : Nat) (append : Bool) : LineLive :=
  { l with
    slot := some q
    bank := if append then l.bank.map fun b => b.switch t (LineLive.bucket { l with slot := some q })
      else l.bank }

theorem State.rewalkedSlot_kept (s : State) (n : LineId) (r : Stoppage) :
    (s.rewalkedSlot n r).markers.degraded = r.markers.degraded ∧
      (s.rewalkedSlot n r).walkStation = (s.walk n).1 := by
  unfold State.rewalkedSlot
  split
  · exact ⟨rfl, rfl⟩
  · split <;> exact ⟨rfl, rfl⟩

theorem State.rewalk_eq {s : State} {n : LineId} {r : Stoppage} (h : (s.line n).slot = some r) :
    s.rewalk n = s.modLine n fun l =>
      (l.rewalked (s.rewalkedSlot n r) s.now (s.appends n r)).degrade (s.walkDegrades n r) := by
  obtain ⟨hmarked, hstation⟩ := s.rewalkedSlot_kept n r
  have hnewly : (s.modLine n fun l =>
      l.rewalked (s.rewalkedSlot n r) s.now (s.appends n r)).newlyDegraded n =
        s.walkDegrades n r := by
    have hslot : ((s.modLine n fun l => l.rewalked (s.rewalkedSlot n r) s.now
        (s.appends n r)).line n).slot = some (s.rewalkedSlot n r) := by
      rw [State.line_modLine_same]
      rfl
    unfold State.newlyDegraded
    simp only [hslot, hmarked, hstation]
    rfl
  have hwalked : s.rewalk n = (s.modLine n fun l =>
      l.rewalked (s.rewalkedSlot n r) s.now (s.appends n r)).testDegraded n := by
    unfold State.rewalk
    simp only [h]
    refine congrArg (fun u => State.testDegraded u n) ?_
    cases hon : s.walksOn n r with
    | true =>
      refine (if_pos hon).trans (State.modLine_congr s n ?_)
      rw [State.appends, State.rewalkedSlot, hon]
      rfl
    | false =>
      refine (if_neg (Bool.eq_false_iff.mp hon)).trans ?_
      by_cases hcap : 4 ≤ r.contributors.length
      · refine (if_pos hcap).trans (State.modLine_congr s n ?_)
        rw [State.appends, State.rewalkedSlot, hon, if_neg Bool.false_ne_true, if_pos hcap,
          decide_eq_false (Nat.not_lt.mpr hcap)]
        rfl
      · refine (if_neg hcap).trans ?_
        unfold State.rebook
        rw [State.modLine_modLine]
        refine State.modLine_congr s n ?_
        rw [State.appends, State.rewalkedSlot, hon, if_neg Bool.false_ne_true, if_neg hcap,
          decide_eq_true (Nat.not_le.mp hcap)]
        rfl
  rw [hwalked, State.testDegraded_eq, hnewly, State.modLine_modLine]

end Sys2Proof.Machine

/-! The stall timer (R53), and a line's turn at an event of its members (R73 to R84). -/

namespace Sys2Proof.Machine

/-! ### What each turn leaves -/

section Turns

variable {s : State} {n : LineId} {k : StationId} {b : Bank}

theorem State.constraintState_of (hk : (s.lineDef n).constraint = some k) :
    s.constraintState n = (s.station k).state := by
  simp only [State.constraintState, hk]

theorem State.constraintDegraded_of (hk : (s.lineDef n).constraint = some k) :
    s.constraintDegraded n = (s.station k).degraded := by
  simp only [State.constraintDegraded, hk]

/-- A line that leaves RUNNING opens a candidate attributed by the walk (R74, R76). -/
theorem State.openCandidate_opens (hk : (s.lineDef n).constraint = some k)
    (hb : (s.line n).bank = some b) {t : State} (ht : t = s.openCandidate n) :
    (t.line n).state = (if (s.lineDef n).threshold = 0 then .down else .pendingStop) ∧
    (t.line n).stamp = s.hall ∧
    (∃ r, (t.line n).slot = some r ∧ r.startCount = s.now ∧ r.startStamp = s.hall ∧
      r.kind = (if (s.lineDef n).threshold = 0 then .record (s.line n).nextNumber
        else .candidate (s.now + (s.lineDef n).threshold * 100)) ∧
      r.entryState = (s.station k).state ∧ r.serial = (s.line n).serial ∧
      r.contributors = [⟨(s.walk n).1, (s.walk n).2,
        contributorCategory s.settings (s.walk n).2, 0⟩] ∧
      r.markers.degraded = ((s.station k).degraded || (s.station (s.walk n).1).degraded)) ∧
    ∃ b', (t.line n).bank = some b' ∧ b.RunCredited b' (s.lineDef n).rate s.now ∧
      b'.runStart = none ∧ b'.segStart = s.now ∧ (∀ y, b'.time y = (b.book s.now).time y) ∧
      b'.booking = (if (s.lineDef n).threshold = 0 then
        .cat (contributorCategory s.settings (s.walk n).2) else .n) ∧
      b'.counts = { b.counts with
        ideal := b'.counts.ideal
        remainder := b'.counts.remainder
        stoppage := if (s.lineDef n).threshold = 0 then min (b.counts.stoppage + 1) 4294967295
          else b.counts.stoppage } := by
  have hline : t.line n = s.stopLine n (s.line n) := by rw [ht, State.line_openCandidate]
  obtain ⟨b', hb', henters⟩ := s.stopLine_bank n (s.line n) hb
  rw [hline]
  refine ⟨s.stopLine_state n _, ?_, ⟨_, s.stopLine_slot n _, rfl, rfl, rfl, ?_, rfl, rfl, ?_⟩,
    b', hb', henters.runCredited, henters.runStart, henters.segStart, henters.times,
    henters.booking, henters.plainCounts⟩
  · rw [State.stopLine_rest]
  · exact State.constraintState_of hk
  · exact congrArg (· || (s.station (s.walk n).1).degraded) (State.constraintDegraded_of hk)

/-- A candidate whose line runs again ends as a micro-stop (R75, R121, R63). -/
theorem State.endMicro_resumes (hb : (s.line n).bank = some b) {r : Stoppage}
    (hr : (s.line n).slot = some r) {t : State}
    (ht : t = (s.endMicro n s.now).enterLine n .running s.now) :
    (t.line n).state = .running ∧ (t.line n).stamp = s.hall ∧ (t.line n).slot = none ∧
    t.journal = s.journal ∧ s.CreditedMicro t (r.contributorsAt s.now) ∧
    ∃ b', (t.line n).bank = some b' ∧ (b.book s.now).MicroStopped b' ∧ b'.booking = .u ∧
      b'.runStart = some s.now ∧ b'.counts.micro = min (b.counts.micro + 1) 4294967295 := by
  have hrest := State.endMicro_rest hr s.now
  have hcredited := State.endMicro_credited hr s.now
  have hmicro := State.line_endMicro hr s.now
  generalize s.endMicro n s.now = u at ht hrest hcredited hmicro
  have hhall : u.hallAt s.now = s.hall := by rw [hrest]; rfl
  have hline : t.line n = (u.line n).enter .running s.hall s.now (u.rate n) := by
    rw [ht, State.line_enterLine, hhall]
  have henter := State.enterLine_eq u n .running s.now
  refine ⟨by rw [hline]; rfl, by rw [hline]; rfl, by rw [hline, hmicro]; rfl, ?_,
    hcredited.congr rfl (by rw [ht, henter]; rfl), (b.endMicro s.now).enter .running s.now
      (u.rate n) .u, ?_, ?_, Bank.booking_enter _ _ _ _ _, Bank.runStart_enter _ _ _ _ _, ?_⟩
  · rw [ht, henter, hrest]
    rfl
  · rw [hline, hmicro, LineLive.enter, hb]
    rfl
  · refine (b.endMicro_microStopped s.now).congr fun y => ?_
    rw [Bank.time_enter, Bank.time_book_of_segStart (Bank.endMicro_segStart b s.now)]
  · rw [Bank.counts_enter, Bank.counts_credit_endMicro]

/-- A record whose line runs again is closed as returned (R83). -/
theorem State.closeRecord_resumes (hb : (s.line n).bank = some b) {r : Stoppage} {m : Nat}
    (hr : (s.line n).slot = some r) (hm : r.kind = .record m) {t : State}
    (ht : t = (s.closeRecord n .returned s.now).enterLine n .running s.now) :
    (t.line n).state = .running ∧ (t.line n).stamp = s.hall ∧ (t.line n).slot = none ∧
    s.CreditedDown t (r.contributorsAt s.now) ∧
    (∃ j, t.journal =
        (if s.journal.length < 192 then s.journal else s.journal.tail) ++ [j] ∧
      j.line = n ∧ j.serial = r.serial ∧ j.number = m ∧ j.duration = s.now - r.startCount ∧
      j.markers = r.markers ∧ j.contributors = r.contributorsAt s.now) ∧
    ∃ b', (t.line n).bank = some b' ∧ (∀ y, b'.time y = (b.book s.now).time y) ∧
      b'.booking = .u ∧ b'.runStart = some s.now := by
  have hopen := LineLive.openRecord_of_record hr hm
  have hrest := State.closeRecord_rest hopen .returned s.now
  have hcredited := State.closeRecord_credited hopen .returned s.now
  have hclosed := State.line_closeRecord hopen .returned s.now
  have hjournal := State.closeRecord_journal hopen .returned s.now
  generalize s.closeRecord n .returned s.now = u at ht hrest hcredited hclosed hjournal
  have hhall : u.hallAt s.now = s.hall := by rw [hrest]; rfl
  have hline : t.line n = (u.line n).enter .running s.hall s.now (u.rate n) := by
    rw [ht, State.line_enterLine, hhall]
  have henter := State.enterLine_eq u n .running s.now
  refine ⟨by rw [hline]; rfl, by rw [hline]; rfl, by rw [hline, hclosed]; rfl,
    hcredited.congr rfl (by rw [ht, henter]; rfl),
    ⟨s.closedRecord n r m .returned s.now, ?_, rfl, rfl, rfl, rfl, rfl, rfl⟩,
    b.enter .running s.now (u.rate n) .u, ?_, fun y => Bank.time_enter b _ _ _ _ y,
      Bank.booking_enter _ _ _ _ _, Bank.runStart_enter _ _ _ _ _⟩
  · rw [ht, henter]
    exact hjournal
  · rw [hline, hclosed, LineLive.enter, hb]
    rfl

/-! ### Walking again -/

theorem State.walksOn_true {r : Stoppage} {c : Contributor}
    (hc : r.contributors.getLast? = some c) (hk : c.station = (s.walk n).1)
    (hcause : c.cause = (s.walk n).2) : s.walksOn n r = true := by
  simp only [State.walksOn, hc, hk, hcause, beq_self_eq_true, Bool.and_self]

theorem State.walksOn_false {r : Stoppage} (h : ∀ c, r.contributors.getLast? = some c →
    (c.station ≠ (s.walk n).1 ∨ c.cause ≠ (s.walk n).2)) : s.walksOn n r = false := by
  unfold State.walksOn
  split
  next c hc =>
    rcases h c hc with hne | hne
    · rw [beq_false_of_ne hne, Bool.false_and]
    · rw [beq_false_of_ne hne, Bool.and_false]
  next => rfl

/-- A stopped line that walks again (R80 to R82, R84). -/
theorem State.rewalk_walks (hk : (s.lineDef n).constraint = some k)
    (hb : (s.line n).bank = some b) {r : Stoppage} {degraded : Bool}
    (hst : (s.line n).state = .pendingStop ∨ (s.line n).state = .down)
    (hr : (s.line n).slot = some r)
    (hd : degraded = (r.markers.degraded || (s.station k).degraded ||
      (s.station (s.walk n).1).degraded)) {t : State} (ht : t = s.rewalk n) :
    (t.line n).state = (s.line n).state ∧ t.journal = s.journal ∧
    (∃ b', (t.line n).bank = some b' ∧
      b'.degraded = (b.degraded || (!r.markers.degraded && degraded)) ∧
      b'.counts = b.counts) ∧
    (∀ c, r.contributors.getLast? = some c → c.station = (s.walk n).1 →
      c.cause = (s.walk n).2 →
      (t.line n).slot = some { r with
        walkStation := (s.walk n).1, markers := { r.markers with degraded := degraded } }) ∧
    ((∀ c, r.contributors.getLast? = some c →
        (c.station ≠ (s.walk n).1 ∨ c.cause ≠ (s.walk n).2)) →
      (4 ≤ r.contributors.length → (t.line n).slot = some { r with
        walkStation := (s.walk n).1
        markers := { r.markers with capped := true, degraded := degraded } }) ∧
      (r.contributors.length < 4 →
        (t.line n).slot = some { r with
          walkStation := (s.walk n).1
          markers := { r.markers with degraded := degraded }
          contributors := r.contributorsAt s.now ++ [⟨(s.walk n).1, (s.walk n).2,
            contributorCategory s.settings (s.walk n).2, 0⟩]
          lastSince := s.now } ∧
        ((t.line n).bank.map Bank.booking) = some (if (s.line n).state = .down then
          .cat (contributorCategory s.settings (s.walk n).2) else .n))) := by
  have hrewalk := State.rewalk_eq hr
  have hline : t.line n = ((s.line n).rewalked (s.rewalkedSlot n r) s.now (s.appends n r)).degrade
      (s.walkDegrades n r) := by rw [ht, hrewalk, State.line_modLine_same]
  have hdegraded : ∀ q : Stoppage, q.markers.degraded = r.markers.degraded →
      (q.markers.degraded || s.walkDegrades n r) = degraded := fun q hq => by
    rw [hq, hd, State.walkDegrades, State.constraintDegraded_of hk]
    cases r.markers.degraded <;> simp
  have hslot : (t.line n).slot =
      some ((s.rewalkedSlot n r).degrade (s.walkDegrades n r)) := by rw [hline]; rfl
  have hmarks : s.walkDegrades n r = (!r.markers.degraded && degraded) := by
    rw [hd, State.walkDegrades, State.constraintDegraded_of hk]
    cases r.markers.degraded <;> simp
  refine ⟨by rw [hline]; rfl, by rw [ht, hrewalk]; rfl, ?_, fun c hc hstation hcause => ?_,
    fun hother => ⟨fun hcap => ?_, fun hroom => ⟨?_, ?_⟩⟩⟩
  · rw [hline, ← hmarks]
    unfold LineLive.degrade LineLive.rewalked
    rw [hb]
    cases s.appends n r with
    | true => exact ⟨_, rfl, rfl, rfl⟩
    | false => exact ⟨_, rfl, rfl, rfl⟩
  · rw [hslot, State.rewalkedSlot, if_pos (State.walksOn_true hc hstation hcause)]
    exact congrArg (fun d => some { r with
      walkStation := (s.walk n).1, markers := { r.markers with degraded := d } })
      (hdegraded r rfl)
  · rw [hslot, State.rewalkedSlot, State.walksOn_false hother, if_neg Bool.false_ne_true,
      if_pos hcap]
    exact congrArg (fun d => some { r with
      walkStation := (s.walk n).1
      markers := { r.markers with capped := true, degraded := d } }) (hdegraded r rfl)
  · rw [hslot, State.rewalkedSlot, State.walksOn_false hother, if_neg Bool.false_ne_true,
      if_neg (Nat.not_le.mpr hroom)]
    exact congrArg (fun d => some { r with
      walkStation := (s.walk n).1
      markers := { r.markers with degraded := d }
      contributors := r.contributorsAt s.now ++ [s.newContributor (s.walk n)]
      lastSince := s.now }) (hdegraded r rfl)
  · have happends : s.appends n r = true := by
      rw [State.appends, State.walksOn_false hother, decide_eq_true hroom]
      rfl
    rw [hline, happends]
    unfold LineLive.degrade LineLive.rewalked
    rw [hb]
    refine congrArg some (?_ : LineLive.bucket { s.line n with
      slot := some (s.rewalkedSlot n r) } = _)
    rcases hst with hst | hst
    · simp only [LineLive.bucket, hst]
      rfl
    · simp only [LineLive.bucket, hst, Stoppage.lastCategory, State.rewalkedSlot,
        State.walksOn_false hother, Nat.not_le.mpr hroom]
      simp [State.newContributor]

end Turns

end Sys2Proof.Machine

/-! What stays with the lines while no constraint returns, and the expiry of a stall timer (R53). -/

namespace Sys2Proof.Machine

/-! ### An event that lets no line run -/

/-- Only the records of lines differ. -/
def State.OnlyLines (s t : State) : Prop := t = { s with lines := t.lines }

theorem State.OnlyLines.refl (s : State) : s.OnlyLines s := rfl

theorem State.OnlyLines.trans {s t u : State} (h : s.OnlyLines t) (g : t.OnlyLines u) :
    s.OnlyLines u := by
  unfold State.OnlyLines at h g ⊢
  rw [h] at g
  exact g

theorem State.OnlyLines.modLine (s : State) (n : LineId) (f : LineLive → LineLive) :
    s.OnlyLines (s.modLine n f) := rfl

theorem State.OnlyLines.stations {s t : State} (h : s.OnlyLines t) : t.stations = s.stations := by
  rw [h]

/-- Stations and lines are not what the other parts of the state rest on. -/
theorem State.SameButLines.of_live {s t : State}
    (h : t = { s with stations := t.stations, lines := t.lines }) : s.SameButLines t := by
  constructor <;> rw [h]

section News

variable {old s : State} {n : LineId} {k : StationId}

theorem State.lineNews_idle (h : s.inService n = false) : State.lineNews old s n = s := by
  unfold State.lineNews
  rw [h]
  rfl

theorem State.lineNews_unconstrained (h : (s.lineDef n).constraint = none) :
    State.lineNews old s n = s := by
  unfold State.lineNews
  rw [h]
  split <;> rfl

theorem State.OnlyLines.rewalk (s : State) (n : LineId) : s.OnlyLines (s.rewalk n) := by
  cases h : (s.line n).slot with
  | none =>
    unfold State.rewalk
    rw [h]
    exact .refl s
  | some r =>
    rw [State.rewalk_eq h]
    exact .modLine s n _

theorem State.flagged_onlyLines (old s : State) (n : LineId) (k : StationId) :
    s.OnlyLines (State.flagged old s n k) := by
  rw [State.flagged_eq]
  exact .modLine s n _

/-- A line whose constraint does not return changes nothing beside its own record. -/
theorem State.memberNews_onlyLines (h : ¬ (old.Moved s k ∧ (s.station k).state = .running)) :
    s.OnlyLines (State.memberNews old s n k) := by
  have hreturn : (memberChanged old s k && (s.station k).state == .running) = false :=
    Bool.eq_false_iff.mpr fun heq => by
      obtain ⟨hmoved, hrun⟩ := Bool.and_eq_true_iff.mp heq
      exact h ⟨memberChanged_iff.mp hmoved, beq_iff_eq.mp hrun⟩
  have hrewalk : ∀ c : Bool, s.OnlyLines (if c then s.rewalk n else s) := fun c => by
    cases c with
    | true => exact .rewalk s n
    | false => exact .refl s
  unfold State.memberNews
  simp only [hreturn, Bool.false_eq_true, if_false]
  split
  · split
    · rw [State.evaluate_eq]
      exact .modLine s n _
    · exact .refl s
  · split
    · rw [State.openCandidate_eq]
      exact .modLine s n _
    · exact .refl s
  · exact hrewalk _
  · exact hrewalk _
  · exact .refl s
  · exact .refl s

theorem State.lineNews_onlyLines
    (h : ∀ k, ¬ (old.Moved s k ∧ (s.station k).state = .running)) (n : LineId) :
    s.OnlyLines (State.lineNews old s n) := by
  cases hs : s.inService n with
  | false =>
    rw [State.lineNews_idle hs]
    exact .refl s
  | true =>
    cases hk : (s.lineDef n).constraint with
    | none =>
      rw [State.lineNews_unconstrained hk]
      exact .refl s
    | some k =>
      rw [State.lineNews_eq hs hk]
      have hflagged := State.flagged_onlyLines old s n k
      refine hflagged.trans (State.memberNews_onlyLines ?_)
      have hsame : (State.flagged old s n k).station k = s.station k :=
        congrArg (fun v => Tab.get v k) hflagged.stations
      unfold State.Moved at h ⊢
      rw [hsame]
      exact h k

/-- An event in which no station that moves comes to run changes only the lines. -/
theorem State.settleLines_onlyLines
    (h : ∀ k, ¬ (old.Moved s k ∧ (s.station k).state = .running)) :
    s.OnlyLines (State.settleLines old s) := by
  have hall : ∀ (ns : List LineId) (u : State), s.OnlyLines u →
      s.OnlyLines (ns.foldl (fun s n => State.lineNews old s n) u) := by
    intro ns
    induction ns with
    | nil => exact fun u hu => hu
    | cons n ns ih =>
      intro u hu
      refine ih _ (hu.trans (State.lineNews_onlyLines (fun k => ?_) n))
      have hsame : u.station k = s.station k :=
        congrArg (fun v => Tab.get v k) hu.stations
      unfold State.Moved at h ⊢
      rw [hsame]
      exact h k
  exact hall allLines s (.refl s)

/-- A line none of whose members moved, and whose members' flags stand, stays as it is. -/
theorem State.lineNews_untouched (hflags : ∀ m, (old.station m).degraded = (s.station m).degraded)
    (hk : ∀ k, (s.lineDef n).constraint = some k → ¬ old.Moved s k)
    (hm : ∀ m ∈ s.members n, ¬ old.Moved s m) : State.lineNews old s n = s := by
  cases hs : s.inService n with
  | false => exact State.lineNews_idle hs
  | true =>
    cases hc : (s.lineDef n).constraint with
    | none => exact State.lineNews_unconstrained hc
    | some k =>
      rw [State.lineNews_eq hs hc, State.flagged_same hflags]
      have hothers : ((s.members n).any fun m => m != k && memberChanged old s m) = false :=
        Bool.eq_false_iff.mpr fun heq => by
          obtain ⟨m, hmem, -, hmoved⟩ := othersChanged_iff.mp heq
          exact hm m hmem hmoved
      unfold State.memberNews
      rw [hothers, memberChanged_false (hk k hc)]
      cases (s.line n).state <;> rfl

theorem State.memberNews_of_changed {other : State}
    (h : ∀ m, memberChanged other s m = memberChanged old s m) :
    State.memberNews other s n k = State.memberNews old s n k := by
  unfold State.memberNews
  simp only [h]

end News

/-! ### Flags and moves together (R84) -/

/-- A change of flags alone marks the bank and the stoppage, and moves nothing (R84, R128). -/
theorem State.lineNews_flags {old s t : State} {n : LineId} {k : StationId} {b : Bank}
    (hs : s.inService n = true) (hk : (s.lineDef n).constraint = some k)
    (hb : (s.line n).bank = some b) (ht : t = State.lineNews old s n)
    (hm : ∀ m, ¬ old.Moved s m) :
    (t.line n).state = (s.line n).state ∧ t.journal = s.journal ∧ t.stations = s.stations ∧
    ((old.station k).degraded = false → (s.station k).degraded = true →
      ∃ b', (t.line n).bank = some b' ∧ b'.degraded = true) ∧
    (∀ r, (s.line n).slot = some r →
      ((old.station k).degraded ≠ (s.station k).degraded ∨
        (old.station r.walkStation).degraded ≠ (s.station r.walkStation).degraded) →
      (t.line n).slot = some { r with markers := { r.markers with
        degraded := r.markers.degraded || (s.station k).degraded ||
          (s.station r.walkStation).degraded } }) := by
  have hflagged := State.flagged_onlyLines old s n k
  have hunmoved : ∀ m, ¬ old.Moved (State.flagged old s n k) m := fun m => by
    have hsame : (State.flagged old s n k).station m = s.station m :=
      congrArg (fun v => Tab.get v m) hflagged.stations
    unfold State.Moved at hm ⊢
    rw [hsame]
    exact hm m
  have htaken : t = s.modLine n fun l =>
      (l.marked (degradedChanged old s k && (s.station k).degraded)).degrade
        ((degradedChanged old s k || State.slotFlagMoved old s n) && s.newlyDegraded n) := by
    rw [ht, State.lineNews_eq hs hk, State.memberNews_unmoved hunmoved, State.flagged_eq]
  have hline : t.line n =
      ((s.line n).marked (degradedChanged old s k && (s.station k).degraded)).degrade
        ((degradedChanged old s k || State.slotFlagMoved old s n) && s.newlyDegraded n) := by
    rw [htaken, State.line_modLine_same]
  refine ⟨by rw [hline]; rfl, by rw [htaken]; rfl, by rw [htaken]; rfl, fun hold hnew => ?_,
    fun r hr hchanged => ?_⟩
  · have hmark : (degradedChanged old s k && (s.station k).degraded) = true := by
      rw [degradedChanged, hold, hnew]
      rfl
    rw [hline, hmark]
    unfold LineLive.degrade LineLive.marked
    rw [hb]
    exact ⟨_, rfl, by dsimp only; rw [Bool.or_true, Bool.true_or]⟩
  · have hmoved : (degradedChanged old s k || State.slotFlagMoved old s n) = true := by
      have hslot : State.slotFlagMoved old s n = degradedChanged old s r.walkStation := by
        simp only [State.slotFlagMoved, hr]
      rw [hslot, Bool.or_eq_true, degradedChanged, degradedChanged, bne_iff_ne, bne_iff_ne]
      exact hchanged
    have hmarked : (r.markers.degraded || s.newlyDegraded n) =
        (r.markers.degraded || (s.station k).degraded || (s.station r.walkStation).degraded) := by
      rw [State.degraded_or_newly hr, State.constraintDegraded_of hk, Bool.or_assoc]
    rw [hline, hmoved, Bool.true_and, ← hmarked]
    unfold LineLive.degrade LineLive.marked
    rw [hr]
    rfl

/-- Of an event that changes flags and states at once a line takes the flags first. -/
theorem State.lineNews_flags_first {old s flags moves : State} {n : LineId}
    (hflags : ∀ k, flags.station k = { s.station k with degraded := (old.station k).degraded })
    (hmoves : ∀ k, moves.station k = { old.station k with degraded := (s.station k).degraded }) :
    State.lineNews old s n = State.lineNews moves (State.lineNews flags s n) n := by
  cases hs : s.inService n with
  | false => rw [State.lineNews_idle hs, State.lineNews_idle hs, State.lineNews_idle hs]
  | true =>
    cases hk : (s.lineDef n).constraint with
    | none => rw [State.lineNews_unconstrained hk, State.lineNews_unconstrained hk,
        State.lineNews_unconstrained hk]
    | some k =>
      have honly := State.flagged_onlyLines old s n k
      have hstation : ∀ m, (State.flagged old s n k).station m = s.station m := fun m =>
        congrArg (fun v => Tab.get v m) honly.stations
      have htaken : State.lineNews flags s n = State.flagged old s n k := by
        have hsame : State.flagged flags s n k = State.flagged old s n k := by
          have hchanged : ∀ m, degradedChanged flags s m = degradedChanged old s m := fun m => by
            rw [degradedChanged, hflags, degradedChanged]
          unfold State.flagged State.slotFlagMoved
          simp only [hchanged]
        have hunmoved : ∀ m, ¬ flags.Moved (State.flagged old s n k) m := fun m hmoved => by
          unfold State.Moved at hmoved
          rw [hstation, hflags] at hmoved
          rcases hmoved with h | h <;> exact h rfl
        rw [State.lineNews_eq hs hk, hsame, State.memberNews_unmoved hunmoved]
      have hserves : (State.flagged old s n k).inService n = true := by
        rw [State.flagged_eq]
        unfold State.inService at hs ⊢
        rw [State.line_modLine_same]
        exact hs
      have hconstraint : ((State.flagged old s n k).lineDef n).constraint = some k := by
        rw [honly]
        exact hk
      have hsettled : State.flagged moves (State.flagged old s n k) n k =
          State.flagged old s n k := by
        refine State.flagged_same (fun m => ?_) n k
        rw [hstation, hmoves]
      rw [htaken, State.lineNews_eq hs hk, State.lineNews_eq hserves hconstraint, hsettled]
      refine (State.memberNews_of_changed fun m => ?_).symm
      unfold memberChanged
      rw [hmoves]
      rfl

/-! ### The stall timer (R53) -/

theorem exec_stallTimerExpiry {s : State} {k : StationId} {e : Nat} (hrun : s.power.running = true)
    (he : (s.station k).stallExpiry = some e) (hst : (s.station k).state = .running) :
    exec (.stallTimerExpiry k) s = .next (if e ≤ s.clock.count then
      State.settleLines s (s.changeStation k .stalled) else s) := by
  have hdue : s.stallDue k = decide (e ≤ s.clock.count) := by
    simp only [State.stallDue, he, hst]
    rfl
  refine congrArg Host.Outcome.next ?_
  rw [hrun, hdue, Bool.true_and]
  by_cases h : e ≤ s.clock.count
  · rw [if_pos h, if_pos (decide_eq_true h)]
  · rw [if_neg h, if_neg (by rw [decide_eq_false h]; exact Bool.false_ne_true)]

/-- The state after a running station stalls. -/
structure State.Stalls (s u : State) (k : StationId) : Prop where
  only : s.OnlyStations u
  station : u.station k = { s.station k with
    state := .stalled
    stamp := s.hall
    stallExpiry := none
    tally := (s.station k).tallyAt s.now
    since := s.now }
  others : ∀ m, m ≠ k → u.station m = s.station m

theorem State.stalls_changeStation (s : State) (k : StationId) :
    s.Stalls (s.changeStation k .stalled) k where
  only := State.OnlyStations.changeStation s k .stalled
  station := by
    rw [State.station_changeStation_same]
    rfl
  others := fun _ hm => State.station_changeStation_ne s hm .stalled

theorem State.lineDef_of_settings {s t : State} (h : t.settings = s.settings) (n : LineId) :
    t.lineDef n = s.lineDef n := by
  unfold State.lineDef
  rw [h]

theorem State.hall_of_clock {s t : State} (h : t.clock = s.clock) : t.hall = s.hall := by
  unfold State.hall State.now
  rw [h, State.hallAt_of_clock h]

section Stalls

variable {s u t : State} {k : StationId} (h : s.Stalls u k)
include h

theorem State.Stalls.flags (m : StationId) : (s.station m).degraded = (u.station m).degraded := by
  by_cases hm : m = k
  · rw [hm, h.station]
  · rw [h.others m hm]

/-- Only the station that stalls moves. -/
theorem State.Stalls.moved {m : StationId} (hm : s.Moved u m) : m = k := by
  by_contra hne
  unfold State.Moved at hm
  rw [h.others m hne] at hm
  rcases hm with hm | hm <;> exact hm rfl

theorem State.Stalls.quiet (m : StationId) :
    ¬ (s.Moved u m ∧ (u.station m).state = .running) := fun ⟨hm, hr⟩ => by
  rw [h.moved hm, h.station] at hr
  exact StationState.noConfusion hr

theorem State.Stalls.settled (ht : t = State.settleLines s u) : u.OnlyLines t := by
  rw [ht]
  exact State.settleLines_onlyLines h.quiet

/-- The line of which the stalled station is the constraint opens a candidate (R73, R74). -/
theorem State.Stalls.opens (hst : (s.station k).state = .running) {n : LineId}
    (hk : (s.lineDef n).constraint = some k) (hrun : (s.line n).state = .running)
    (ht : State.LinesTake s u t) :
    (t.line n).state = (if (s.lineDef n).threshold = 0 then .down else .pendingStop) ∧
    ∃ r, (t.line n).slot = some r ∧ r.entryState = .stalled ∧ r.startStamp = s.hall ∧
      r.startCount = s.clock.count ∧ r.serial = (s.line n).serial ∧
      r.contributors = [⟨k, 3, .unassigned, 0⟩] := by
  obtain ⟨w, hline, hsame, hstations, hturn, -⟩ := ht.each n
  have hw : ∀ m, w.station m = { u.station m with tally := (w.station m).tally } := hstations
  have hwk : (w.station k).state = .stalled := by rw [hw, h.station]
  have hl : w.line n = s.line n := by rw [hline, h.only]; rfl
  have hsettings : w.settings = s.settings := by rw [hsame.settings, h.only]
  have hclock : w.clock = s.clock := by rw [hsame.clock, h.only]
  have hdef : w.lineDef n = s.lineDef n := State.lineDef_of_settings hsettings n
  have hwc : (w.lineDef n).constraint = some k := by rw [hdef, hk]
  have hwalk : w.walk n = (k, 3) := by
    rw [State.walk_of_constraint hwc, State.walkFrom_of_stopped (.inr (.inr hwk))]
    refine congrArg (Prod.mk k) ?_
    rw [StationLive.currentCause, hwk]
  have hserves : w.inService n = true := by
    rw [State.inService, hl, LineLive.inService, hrun]
    rfl
  have hmoved : s.Moved w k := .inl (by rw [hst, hwk]; exact StationState.noConfusion)
  have hopen : t.line n = w.stopLine n (w.line n) := by
    rw [hturn, State.lineNews_eq hserves hwc, State.flagged_same (fun m => by rw [hw, h.flags]),
      State.memberNews_running (by rw [hl, hrun]) hmoved (by rw [hwk]; exact StationState.noConfusion),
      State.line_openCandidate]
  rw [hopen]
  refine ⟨by rw [State.stopLine_state, hdef], _, w.stopLine_slot n _, ?_, ?_, ?_, ?_, ?_⟩
  · exact (State.constraintState_of hwc).trans hwk
  · exact State.hall_of_clock hclock
  · exact congrArg Clock.count hclock
  · exact congrArg LineLive.serial hl
  · refine congrArg (fun x => [x]) ?_
    rw [hwalk]
    rfl

/-- A line that the stalled station has no part in stays as it is. -/
theorem State.Stalls.spares {n : LineId} (hk : (s.lineDef n).constraint ≠ some k)
    (hm : k ∉ s.members n) (ht : State.LinesTake s u t) : t.line n = s.line n := by
  obtain ⟨w, hline, hsame, hstations, hturn, -⟩ := ht.each n
  have hsettings : w.settings = s.settings := by rw [hsame.settings, h.only]
  have hmoved : ∀ m, s.Moved w m → m = k := fun m hm => h.moved (by
    unfold State.Moved at hm ⊢
    rw [hstations] at hm
    exact hm)
  rw [hturn, State.lineNews_untouched (fun m => by rw [hstations, h.flags]), hline, h.only]
  · rfl
  · intro j hj hmv
    rw [State.lineDef_of_settings hsettings, hmoved j hmv] at hj
    exact hk hj
  · intro m hmem hmv
    rw [State.members_of_settings hsettings, hmoved m hmv] at hmem
    exact hm hmem

end Stalls

/-- Settles O42: a line takes an event case by case, the flags first; a stall timer's expiry is such an
event, in which no constraint returns. -/
theorem stallTimersExpire : Obligations.StallTimersExpire := by
  unfold Obligations.StallTimersExpire
  refine ⟨fun s k v e hv hrun he hst => ⟨fun hlt => ?_, fun hle => ?_⟩,
    fun old s t n k b now hnow hs hk hb ht hflags => ?_,
    fun old s t n k b hs hk hb ht hm => State.lineNews_flags hs hk hb ht hm,
    fun old s flags moves n hflags hmoves => State.lineNews_flags_first hflags hmoves⟩
  · rw [hv] at he hst
    rw [exec_stallTimerExpiry hrun he hst, if_neg (Nat.not_le.mpr hlt)]
  · subst hv
    have hstalls := s.stalls_changeStation k
    have htakes := State.linesTake_settleLines s (s.changeStation k .stalled)
    rw [exec_stallTimerExpiry hrun he hst, if_pos hle]
    generalize s.changeStation k .stalled = u at hstalls htakes
    obtain ⟨t, ht⟩ : ∃ t, t = State.settleLines s u := ⟨_, rfl⟩
    rw [← ht] at htakes ⊢
    have honly := hstalls.settled ht
    clear ht
    have hstations : ∀ m, t.station m = u.station m := fun m =>
      congrArg (fun v => Tab.get v m) honly.stations
    have hu : { s with stations := t.stations } = u := by
      rw [honly.stations]
      exact hstalls.only.symm
    have hrest : t = { s with stations := t.stations, lines := t.lines } := by
      rw [← hu] at honly
      exact honly
    refine ⟨t, rfl, .of_live hrest, ?_, ?_, ?_, ?_, ?_, ?_, fun m hm => ?_, by rw [hu]; exact htakes,
      fun n hk hline => hstalls.opens hst hk hline htakes,
      fun n hk hm => hstalls.spares hk hm htakes, by rw [hrest], by rw [hrest], by rw [hrest],
      by rw [hrest]⟩
    · rw [hstations, hstalls.station]
    · rw [hstations, hstalls.station]
    · rw [hstations, hstalls.station]
    · rw [hstations, hstalls.station]; rfl
    · rw [hstations, hstalls.station]
    · rw [hstations, hstalls.station]; rfl
    · rw [hstations, hstalls.others m hm]
  · have hturn : t = State.memberNews old s n k := by
      rw [ht, State.lineNews_eq hs hk, State.flagged_same hflags]
    subst hnow
    refine ⟨fun hst => ?_, fun hst hm => ?_, fun hst hm hu => ?_, fun hst hm hr => ?_,
      fun r e hst hr _ hm hrun => ?_, fun r m hst hr hkind hm hrun => ?_,
      fun r degraded hst hr hm hd => ?_⟩
    · rw [hturn, State.memberNews_planned hst]
    · rw [hturn, State.memberNews_still hst hm]
    · rw [hturn, State.memberNews_resuming hst hm hu]
    · exact State.openCandidate_opens hk hb (hturn.trans (State.memberNews_running hst hm hr))
    · exact State.endMicro_resumes hb hr (hturn.trans (State.memberNews_micro hst hm hrun))
    · exact State.closeRecord_resumes hb hr hkind
        (hturn.trans (State.memberNews_returned hst hm hrun))
    · exact State.rewalk_walks hk hb hst hr hd (hturn.trans (State.memberNews_rewalk hst hm))

end Sys2Proof.Machine

/-! Reported causes of a station (R55 to R59). -/

namespace Sys2Proof.Machine

/-! ### Where nothing moves, no line turns -/

/-- Only the records of stations differ, and only that of `k`. -/
theorem State.station_modStation_moved {s : State} {k m : StationId}
    {f : StationLive → StationLive} (h : s.Moved (s.modStation k f) m) : m = k := by
  by_contra hne
  unfold State.Moved at h
  rw [State.station_modStation_ne s hne] at h
  rcases h with h | h <;> exact h rfl

/-- An event in which no station moves, and no flag changes, leaves every line. -/
theorem State.settleLines_untouched {old s : State} (hm : ∀ m, ¬ old.Moved s m)
    (hflags : ∀ m, (old.station m).degraded = (s.station m).degraded) :
    State.settleLines old s = s := by
  have hall : ∀ ns : List LineId, ns.foldl (fun s n => State.lineNews old s n) s = s := by
    intro ns
    induction ns with
    | nil => rfl
    | cons n ns ih =>
      rw [List.foldl_cons, State.lineNews_untouched hflags (fun k _ => hm k) (fun m _ => hm m), ih]
  exact hall allLines

/-! ### A report (R56, R57) -/

section Report

variable (v : StationLive) {cause : CauseCode} (stamp now : Nat)

theorem StationLive.report_none : v.report 0 stamp now = { v with reported := none, armed := none } :=
  if_pos rfl

theorem StationLive.report_stopped (hc : cause ≠ 0) (hst : v.state = .faulted ∨ v.state = .halted) :
    v.report cause stamp now = { v with reported := some ⟨cause, stamp⟩ } := by
  unfold StationLive.report
  rw [if_neg hc]
  rcases hst with hst | hst <;> rw [hst]

theorem StationLive.report_armed (hc : cause ≠ 0) (hf : v.state ≠ .faulted)
    (hh : v.state ≠ .halted) :
    v.report cause stamp now = { v with armed := some ⟨cause, now + 300⟩ } := by
  unfold StationLive.report
  rw [if_neg hc]
  cases hst : v.state with
  | faulted => exact absurd hst hf
  | halted => exact absurd hst hh
  | _ => rfl

/-- A report does not move the station's state or its flag. -/
theorem StationLive.report_kept (cause : CauseCode) :
    (v.report cause stamp now).state = v.state ∧
      (v.report cause stamp now).degraded = v.degraded := by
  unfold StationLive.report
  split
  · exact ⟨rfl, rfl⟩
  · split <;> exact ⟨rfl, rfl⟩

end Report

/-- A current cause goes with a station that is FAULTED, HALTED or STALLED (R55). -/
theorem StationLive.currentCause_running {v : StationLive} (h : v.state = .running) :
    v.currentCause = 0 := by
  rw [StationLive.currentCause, h]

theorem StationLive.currentCause_reported {v : StationLive} {r : Reported}
    (h : v.state = .faulted ∨ v.state = .halted) (hr : v.reported = some r) :
    v.currentCause = r.cause := by
  rw [StationLive.currentCause]
  rcases h with h | h <;> simp only [h, hr]

/-- The state after a report, before the lines take it. -/
def State.reporting (s : State) (k : StationId) (cause : CauseCode) : State :=
  s.modStation k fun v => v.report cause s.hall s.now

section Reporting

variable (s : State) (k : StationId) (cause : CauseCode)

theorem State.reportFault_eq :
    s.reportFault k cause = State.settleLines s (s.reporting k cause) := rfl

theorem State.reporting_station : (s.reporting k cause).station k =
    (s.station k).report cause s.hall s.now := State.station_modStation_same s k _

theorem State.reporting_flags (m : StationId) :
    (s.station m).degraded = ((s.reporting k cause).station m).degraded := by
  by_cases hm : m = k
  · rw [hm, State.reporting_station]
    exact ((s.station k).report_kept s.hall s.now cause).2.symm
  · rw [State.reporting, State.station_modStation_ne s hm]

theorem State.reporting_state (m : StationId) :
    ((s.reporting k cause).station m).state = (s.station m).state := by
  by_cases hm : m = k
  · rw [hm, State.reporting_station]
    exact ((s.station k).report_kept s.hall s.now cause).1
  · rw [State.reporting, State.station_modStation_ne s hm]

/-- A report moves the current cause of a stopped station at most. -/
theorem State.reporting_quiet (m : StationId) :
    ¬ (s.Moved (s.reporting k cause) m ∧ ((s.reporting k cause).station m).state = .running) :=
  fun ⟨hm, hr⟩ => by
    have hold : (s.station m).state = .running := (s.reporting_state k cause m).symm.trans hr
    rcases hm with hm | hm
    · exact hm (hold.trans hr.symm)
    · exact hm ((StationLive.currentCause_running hold).trans
        (StationLive.currentCause_running hr).symm)

/-- A report that is only armed moves nothing. -/
theorem State.reporting_armed {cause : CauseCode} (hc : cause ≠ 0)
    (hf : (s.station k).state ≠ .faulted) (hh : (s.station k).state ≠ .halted) (m : StationId) :
    ¬ s.Moved (s.reporting k cause) m := fun hm => by
  have hk : m = k := State.station_modStation_moved hm
  subst hk
  unfold State.Moved at hm
  rw [State.reporting_station, StationLive.report_armed _ _ _ hc hf hh] at hm
  rcases hm with hm | hm <;> exact hm rfl

end Reporting

/-! ### The request (R56) -/

section Request

variable {s : State} {k : StationId} {station cause : Byte}

theorem faultCauseOk_iff {g : Settings} : faultCauseOk g k cause = true ↔
    cause = 0 ∨ ∃ c scope, hostEntry g cause = some ⟨c, scope⟩ ∧
      c.planned = false ∧ (scope = none ∨ scope = some k) := by
  unfold faultCauseOk
  by_cases hz : cause = 0
  · simp only [hz, if_true, true_or]
  · rw [if_neg hz, or_iff_right hz]
    cases hostEntry g cause with
    | none => simp
    | some e =>
      obtain ⟨c, scope⟩ := e
      simp

theorem exec_stationFault_refused (h : s.Takes .stationFault) (hk : station.toNat = k.val)
    {r : Refused} (hr : stationFaultRefusal station cause s = some r) :
    exec (.stationFault station cause) s =
      .next (s.owe (some ⟨0xFF, [0x46, r.reason.code, r.detail]⟩)) :=
  congrArg Host.Outcome.next (h.refused (above_none (stationByte_le hk)) hr _)

theorem exec_stationFault_done (h : s.Takes .stationFault) (hk : station.toNat = k.val)
    (hr : stationFaultRefusal station cause s = none) {t : State}
    (ht : t = s.reportFault k cause) :
    exec (.stationFault station cause) s = .next (t.owe (some ⟨0xC6, [station,
      (t.station k).state.code, ((t.station k).reported.map Reported.cause).getD 0,
      ((t.station k).armed.map Armed.cause).getD 0]⟩)) := by
  refine congrArg Host.Outcome.next ((h.done (above_none (stationByte_le hk)) hr _).trans ?_)
  simp only [stationOfByte_eq hk, ← ht, causeOrNone]
  rfl

theorem stationFaultRefusal_eq (hk : station.toNat = k.val) :
    stationFaultRefusal station cause s = firstRefusal
      [refuseIf (!s.stationServed k) .notInService station,
        refuseIf (!faultCauseOk s.settings k cause) .cause cause] := by
  unfold stationFaultRefusal
  rw [stationOfByte_eq hk]

end Request

theorem exec_armedReportExpiry {s : State} {k : StationId} {a : Armed}
    (hrun : s.power.running = true) (ha : (s.station k).armed = some a) :
    exec (.armedReportExpiry k) s = .next (if a.expiry ≤ s.clock.count then
      s.modStation k fun v => { v with armed := none } else s) := by
  have hdue : s.armedDue k = decide (a.expiry ≤ s.clock.count) := by
    simp only [State.armedDue, ha]
    rfl
  refine congrArg Host.Outcome.next ?_
  rw [hrun, hdue, Bool.true_and]
  by_cases h : a.expiry ≤ s.clock.count
  · rw [if_pos h, if_pos (decide_eq_true h)]
  · rw [if_neg h, if_neg (by rw [decide_eq_false h]; exact Bool.false_ne_true)]

/-- Settles O41: the refusals; a report that is taken, which lets no line run; and the end of an armed
report. -/
theorem stationReportsAreTaken : Obligations.StationReportsAreTaken := by
  unfold Obligations.StationReportsAreTaken
  refine fun s k v hv => ⟨fun station cause acceptable h hk hok => ⟨fun hserved => ?_,
    fun hserved hbad => ?_, fun hserved hgood => ?_⟩, fun a hrun ha => ⟨fun hle => ?_, fun hlt => ?_⟩⟩
  · refine exec_stationFault_refused (r := ⟨.notInService, station⟩) h hk ?_
    rw [stationFaultRefusal_eq hk, hserved]
    rfl
  · have hcause : faultCauseOk s.settings k cause = false :=
      Bool.eq_false_iff.mpr fun heq => hbad (hok.mpr (faultCauseOk_iff.mp heq))
    refine exec_stationFault_refused (r := ⟨.cause, cause⟩) h hk ?_
    rw [stationFaultRefusal_eq hk, hserved, hcause]
    rfl
  · subst hv
    have hcause : faultCauseOk s.settings k cause = true := faultCauseOk_iff.mpr (hok.mp hgood)
    have hnone : stationFaultRefusal station cause s = none := by
      rw [stationFaultRefusal_eq hk, hserved, hcause]
      rfl
    obtain ⟨t, ht⟩ : ∃ t, t = State.settleLines s (s.reporting k cause) := ⟨_, rfl⟩
    have hexec := exec_stationFault_done h hk hnone (ht.trans (s.reportFault_eq k cause).symm)
    have honly : (s.reporting k cause).OnlyLines t := by
      rw [ht]
      exact State.settleLines_onlyLines (s.reporting_quiet k cause)
    have htakes : State.LinesTake s (s.reporting k cause) t := by
      rw [ht]
      exact State.linesTake_settleLines s _
    have hstations : ∀ m, t.station m = (s.reporting k cause).station m := fun m =>
      congrArg (fun v => Tab.get v m) honly.stations
    have hown : t.station k = (s.station k).report cause s.hall s.now := by
      rw [hstations, State.reporting_station]
    have hstate : (t.station k).state = (s.station k).state := by
      rw [hstations, State.reporting_state]
    have huntouched : cause ≠ 0 → (s.station k).state ≠ .faulted → (s.station k).state ≠ .halted →
        t = s.reporting k cause := fun hc hf hh => by
      rw [ht, State.settleLines_untouched (s.reporting_armed k hc hf hh)
        (s.reporting_flags k cause)]
    clear ht
    have hbefore : { s with stations := t.stations } = s.reporting k cause := by
      rw [honly.stations]
      rfl
    have hrest : t = { s with stations := t.stations, lines := t.lines } := by
      rw [← hbefore] at honly
      exact honly
    have hlink : t.link = s.link := by rw [hrest]
    rw [hexec]
    refine ⟨_, rfl, (State.SameButLines.of_live hrest).owe _, ?_, fun hc => ?_, fun hc hst => ?_,
      fun hc hf hh => ?_, fun m hm => ?_, ?_, ?_⟩
    · have hkept : ∀ r, { t.owe r with link := s.link } = t := fun r => by
        rw [← hlink]
        rfl
      rw [hkept]
      exact hbefore ▸ htakes
    · have hclear : t.station k = { s.station k with reported := none, armed := none } := by
        rw [hown, hc, StationLive.report_none]
      refine ⟨hclear, fun hst => ?_, fun hst => ?_⟩ <;>
        refine (congrArg StationLive.currentCause hclear).trans ?_ <;>
        simp only [StationLive.currentCause, hst]
    · have hreported : t.station k = { s.station k with reported := some ⟨cause, s.hall⟩ } := by
        rw [hown, StationLive.report_stopped _ _ _ hc hst]
      exact ⟨hreported, (congrArg StationLive.currentCause hreported).trans
        (StationLive.currentCause_reported (v := { s.station k with
          reported := some ⟨cause, s.hall⟩ }) hst rfl)⟩
    · have hsame := huntouched hc hf hh
      exact ⟨hown.trans (StationLive.report_armed _ _ _ hc hf hh),
        (congrArg State.lines hsame).trans rfl, (congrArg State.journal hsame).trans rfl,
        (congrArg State.alerts hsame).trans rfl⟩
    · exact (hstations m).trans (State.station_modStation_ne s hm _)
    · exact (congrArg State.queue hrest).trans rfl
    · rw [← hstate, ← hlink]
      rfl
  · rw [hv] at ha
    rw [exec_armedReportExpiry hrun ha, if_pos hle, hv]
    rfl
  · rw [hv] at ha
    rw [exec_armedReportExpiry hrun ha, if_neg (Nat.not_le.mpr hlt)]

end Sys2Proof.Machine

/-! Counting edges (R23, R24), and the qualification of reject edges (R27 to R29, R126). -/

namespace Sys2Proof.Machine

/-! ### The sample that accepts a change (R22, R23) -/

section Edge

variable {s : State} {slot : SlotId} {i : InputId} {n : LineId} {active : Bool}

/-- The input's record after it accepts a change to `active`. -/
def InputAcq.changed (a : InputAcq) (active : Bool) : InputAcq :=
  { a with accepted := if active then .on else .off, run := 0, lastSample := some active }

theorem exec_countSample_accepted (hrun : s.power.running = true) (hframe : s.awaitsFrame = false)
    (hi : Tab.get s.installed slot = some i)
    (hlevel : (s.input i).accepted = if active then .off else .on)
    (hlast : (s.input i).run + 1 = (s.inputDef i).debounce) :
    exec (.countSample slot active) s = .next (if (s.inputDef i).edge.counts active then
      (s.withInput i ((s.input i).changed active)).countingEdge i
        else s.withInput i ((s.input i).changed active)) := by
  have hother : (s.input i).accepted = if !active then .on else .off := by
    rw [hlevel]
    cases active <;> rfl
  rw [exec_countSample hrun hframe hi,
    InputAcq.sample_accepted hother (by cases active <;> decide) hlast]
  rfl

/-- The edge setting counts the changes in its direction (R23). -/
theorem Edge.counts_of {e : Edge} (h : e = if active then .leading else .trailing) :
    e.counts active = true := by
  rw [h]
  cases active <;> rfl

theorem Edge.counts_not {e : Edge} (h : e = if active then .trailing else .leading) :
    e.counts active = false := by
  rw [h]
  cases active <;> rfl

/-- The state with the raw counter of an input raised. -/
def State.rawRaised (s : State) (i : InputId) : State :=
  s.modInput i fun a => { a with raw := a.raw + 1 }

theorem State.input_rawRaised (s : State) (i : InputId) :
    (s.rawRaised i).input i = { s.input i with raw := (s.input i).raw + 1 } :=
  State.input_modInput_same s i _

/-- An input that accepts a change and counts it. -/
theorem State.rawRaised_withInput (s : State) (i : InputId) (a : InputAcq) :
    (s.withInput i a).rawRaised i = s.withInput i { a with raw := a.raw + 1 } := by
  unfold State.rawRaised State.withInput State.modInput Tab.modify
  dsimp only
  rw [Tab.set_set, Tab.get_set_same]

theorem State.input_withInput_same (s : State) (i : InputId) (a : InputAcq) :
    (s.withInput i a).input i = a := Tab.get_set_same s.inputs i a

theorem State.input_withInput_ne (s : State) {i j : InputId} (h : j ≠ i) (a : InputAcq) :
    (s.withInput i a).input j = s.input j := Tab.get_set_ne s.inputs h a

theorem State.countingEdge_output (hrole : s.roleOf i = .output n) (hs : s.inService n = true) :
    s.countingEdge i = (s.rawRaised i).outputEdge i n := by
  unfold State.countingEdge
  simp only [State.roleOf_modInput, hrole]
  exact if_pos hs

theorem State.countingEdge_reject (hrole : s.roleOf i = .reject n) (hs : s.inService n = true) :
    s.countingEdge i = (s.rawRaised i).rejectEdge i n := by
  unfold State.countingEdge
  simp only [State.roleOf_modInput, hrole]
  exact if_pos hs

end Edge

/-! ### Counting an edge (R125, R126) -/

section Count

variable {s : State} {n : LineId}

theorem State.countReject_planned (h : (s.line n).state = .planned) (stray : Bool) :
    s.countReject n stray = s := if_pos h

theorem State.countReject_counted (h : (s.line n).state ≠ .planned) :
    s.countReject n false = s.modBank n fun b => { b with counts := { b.counts with
      j := min (b.counts.j + 1) 4294967295 } } := if_neg h

theorem State.countReject_stray (h : (s.line n).state ≠ .planned) :
    s.countReject n true = s.modBank n fun b => { b with counts := { b.counts with
      stray := min (b.counts.stray + 1) 4294967295 } } := if_neg h

theorem State.line_modBank_some {b : Bank} (hb : (s.line n).bank = some b) (f : Bank → Bank) :
    (s.modBank n f).line n = { s.line n with bank := some (f b) } := by
  unfold State.modBank
  rw [State.line_modLine_same, hb]
  rfl

end Count

/-! ### Judging a reject edge against the windows (R29) -/

theorem consumeWindow_none {t : Nat} {ws : List Window} (h : ∀ x ∈ ws, x.openAt t = false) :
    consumeWindow t ws = none := by
  induction ws with
  | nil => rfl
  | cons w ws ih =>
    rw [consumeWindow, h w List.mem_cons_self, if_neg Bool.false_ne_true,
      ih fun x hx => h x (List.mem_cons_of_mem w hx)]
    rfl

/-- The oldest open window is consumed. -/
theorem consumeWindow_some {t : Nat} {before rest : List Window} {w : Window}
    (h : ∀ x ∈ before, x.openAt t = false) (hw : w.openAt t = true) :
    consumeWindow t (before ++ w :: rest) = some (before ++ rest) := by
  induction before with
  | nil => exact if_pos hw
  | cons x before ih =>
    rw [List.cons_append, consumeWindow, h x List.mem_cons_self, if_neg Bool.false_ne_true,
      ih fun y hy => h y (List.mem_cons_of_mem x hy)]
    rfl

section Reject

variable {s : State} {i : InputId} {n : LineId} {q : Qualification}

theorem State.rejectEdge_unqualified (h : s.qualified i = none) :
    s.rejectEdge i n = s.countReject n false := by
  unfold State.rejectEdge
  rw [h]

theorem State.rejectEdge_planned (hq : s.qualified i = some q)
    (hst : (s.line n).state = .planned) : s.rejectEdge i n = s := by
  unfold State.rejectEdge
  rw [hq]
  exact if_pos hst

theorem State.rejectEdge_stray (hq : s.qualified i = some q) (hst : (s.line n).state ≠ .planned)
    (h : consumeWindow s.moment (s.input i).windows = none) :
    s.rejectEdge i n = s.countReject n true := by
  unfold State.rejectEdge
  simp only [hq, if_neg hst, h]

theorem State.rejectEdge_consumes (hq : s.qualified i = some q) (hst : (s.line n).state ≠ .planned)
    {rest : List Window} (h : consumeWindow s.moment (s.input i).windows = some rest) :
    s.rejectEdge i n = (s.modInput i fun a => { a with windows := rest }).countReject n false := by
  unfold State.rejectEdge
  simp only [hq, if_neg hst, h]

theorem State.countReject_inputs (s : State) (n : LineId) (stray : Bool) :
    (s.countReject n stray).inputs = s.inputs := by
  unfold State.countReject
  split <;> rfl

/-- A reject edge takes a window at most from its input's record. -/
theorem State.rejectEdge_raw (s : State) (i : InputId) (n : LineId) :
    ((s.rejectEdge i n).input i).raw = (s.input i).raw := by
  have hcount : ∀ (u : State) (stray : Bool), (u.countReject n stray).input i = u.input i :=
    fun u stray => congrArg (fun v => Tab.get v i) (u.countReject_inputs n stray)
  unfold State.rejectEdge
  split
  · rw [hcount]
  · split
    · rfl
    · split
      · rw [hcount, State.input_modInput_same]
      · rw [hcount]

end Reject

/-! ### The windows that an output edge opens (R27, R28) -/

/-- Only the window queues of inputs differ. -/
structure State.OnlyWindows (s t : State) : Prop where
  only : t = { s with inputs := t.inputs }
  kept : ∀ j, t.input j = { s.input j with windows := (t.input j).windows }

namespace State.OnlyWindows

variable {s t u : State}

theorem refl (s : State) : s.OnlyWindows s := ⟨rfl, fun _ => rfl⟩

theorem trans (h : s.OnlyWindows t) (g : t.OnlyWindows u) : s.OnlyWindows u where
  only := by
    have honly := g.only
    rw [h.only] at honly
    exact honly
  kept := fun j => by
    conv_lhs => rw [g.kept j, h.kept j]

theorem qualified (h : s.OnlyWindows t) (j : InputId) : t.qualified j = s.qualified j :=
  State.qualified_congr (by rw [h.only]) (by rw [h.only]) j

theorem moment (h : s.OnlyWindows t) : t.moment = s.moment := by
  rw [h.only]
  rfl

end State.OnlyWindows

/-- The records of a REJECT input after an output edge of its line. -/
def State.windowed (s : State) (j : InputId) : InputAcq :=
  match s.qualified j with
  | some q => (s.input j).appendWindow q s.moment
  | none => s.input j

theorem InputAcq.appendWindow_windows (a : InputAcq) (q : Qualification) (t : Nat) :
    (a.appendWindow q t).windows = (if a.windows.length < 8 then a.windows else a.windows.tail) ++
      [⟨t + q.offset * 32, t + q.offset * 32 + q.width * 32⟩] := by
  have hroom : (if 8 ≤ a.windows.length then a.windows.drop 1 else a.windows) =
      if a.windows.length < 8 then a.windows else a.windows.tail := by
    by_cases h : a.windows.length < 8
    · rw [if_pos h, if_neg (Nat.not_le.mpr h)]
    · rw [if_neg h, if_pos (Nat.not_lt.mp h), List.drop_one]
  exact congrArg (· ++ [⟨t + q.offset * 32, t + q.offset * 32 + q.width * 32⟩]) hroom

/-- One REJECT input takes its window. -/
def State.openWindow (s : State) (j : InputId) : State :=
  match s.qualified j with
  | some q => s.modInput j fun a => a.appendWindow q s.moment
  | none => s

theorem State.openWindows_eq (s : State) (n : LineId) :
    s.openWindows n = (s.lineDef n).rejects.foldl State.openWindow s := rfl

section Windows

variable {s : State}

theorem State.openWindow_spec (s : State) (j : InputId) : s.OnlyWindows (s.openWindow j) ∧
    (s.openWindow j).input j = s.windowed j ∧
    ∀ m, m ≠ j → (s.openWindow j).input m = s.input m := by
  unfold State.openWindow State.windowed
  cases hq : s.qualified j with
  | none => exact ⟨.refl s, rfl, fun _ _ => rfl⟩
  | some q =>
    have hown := State.input_modInput_same s j fun a => a.appendWindow q s.moment
    have hothers : ∀ m, m ≠ j → (s.modInput j fun a => a.appendWindow q s.moment).input m =
        s.input m := fun m hm => State.input_modInput_ne s hm _
    refine ⟨⟨rfl, fun m => ?_⟩, hown, hothers⟩
    by_cases hm : m = j
    · subst hm
      exact hown.trans (congrArg (fun ws => { s.input m with windows := ws })
        (congrArg InputAcq.windows hown).symm)
    · rw [hothers m hm]

theorem State.openWindow_foldl (js : List InputId) (s : State) :
    s.OnlyWindows (js.foldl State.openWindow s) ∧
    (∀ m, m ∉ js → (js.foldl State.openWindow s).input m = s.input m) ∧
    (js.Nodup → ∀ m, m ∈ js → (js.foldl State.openWindow s).input m = s.windowed m) := by
  induction js generalizing s with
  | nil => exact ⟨.refl s, fun _ _ => rfl, fun _ _ hm => absurd hm List.not_mem_nil⟩
  | cons j js ih =>
    obtain ⟨honly, hown, hothers⟩ := s.openWindow_spec j
    obtain ⟨hrest, hkept, htaken⟩ := ih (s.openWindow j)
    refine ⟨honly.trans hrest, fun m hm => ?_, fun hnodup m hm => ?_⟩
    · obtain ⟨hne, hnot⟩ := not_or.mp (List.mem_cons.not.mp hm)
      exact (hkept m hnot).trans (hothers m hne)
    · obtain ⟨hj, hnodup'⟩ := List.nodup_cons.mp hnodup
      rcases List.mem_cons.mp hm with rfl | hin
      · exact (hkept m hj).trans hown
      · have hne : m ≠ j := fun heq => hj (heq ▸ hin)
        refine (htaken hnodup' m hin).trans ?_
        unfold State.windowed
        rw [honly.qualified, honly.moment, hothers m hne]

theorem State.openWindows_onlyWindows (s : State) (n : LineId) :
    s.OnlyWindows (s.openWindows n) := (s.openWindow_foldl _).1

end Windows

/-- A pace edge is no matter of the inputs. -/
theorem State.paceEdge_same (s : State) (k : StationId) : s.SameButLines (s.paceEdge k) := by
  cases hst : (s.station k).state with
  | stalled =>
    obtain ⟨u, hu, -, -, htakes⟩ := State.paceEdge_stalled s k hst
    have hsame := htakes.same
    rw [hu] at hsame
    exact ⟨hsame.settings, hsame.points, hsame.inputs, hsame.installed, hsame.awaitsFrame,
      hsame.clock, hsame.archive, hsame.image, hsame.imageStatus, hsame.guardMode, hsame.power,
      hsame.pins, hsame.pending⟩
  | _ =>
    refine .of_live ?_
    unfold State.paceEdge
    simp only [hst]
    rfl

/-- The state after an output edge, before it paces the constraint. -/
def State.outputCounted (s : State) (n : LineId) : State := (s.countOutput n).openWindows n

theorem State.outputEdge_eq {s : State} {n : LineId} {k : StationId}
    (hk : (s.lineDef n).constraint = some k) (i : InputId) : s.outputEdge i n =
      if s.paceSource k = some i then (s.outputCounted n).paceEdge k else s.outputCounted n := by
  have hsettings : (s.outputCounted n).settings = s.settings := by
    rw [State.outputCounted, (State.openWindows_onlyWindows (s.countOutput n) n).only]
    rfl
  have hconstraint : ((s.outputCounted n).lineDef n).constraint = some k := by
    rw [State.lineDef_of_settings hsettings, hk]
  have hsource : (s.outputCounted n).paceSource k = s.paceSource k := by
    unfold State.paceSource State.stationDef State.lineDef
    rw [hsettings]
  rw [← hsource]
  unfold State.outputEdge
  change (match ((s.outputCounted n).lineDef n).constraint with | some k => _ | none => _) = _
  simp only [hconstraint]
  rfl

/-- The inputs after an output edge. -/
theorem State.input_outputEdge (s : State) {n : LineId} {k : StationId}
    (hk : (s.lineDef n).constraint = some k) (i j : InputId) :
    (s.outputEdge i n).input j = (s.outputCounted n).input j := by
  rw [State.outputEdge_eq hk]
  split
  · exact congrArg (fun v => Tab.get v j) ((s.outputCounted n).paceEdge_same k).inputs
  · rfl

theorem State.outputCounted_windows (s : State) (n : LineId) :
    (∀ m, (s.outputCounted n).input m = { s.input m with
      windows := ((s.outputCounted n).input m).windows }) ∧
    (∀ m, m ∉ (s.lineDef n).rejects → (s.outputCounted n).input m = s.input m) ∧
    ((s.lineDef n).rejects.Nodup → ∀ m, m ∈ (s.lineDef n).rejects →
      (s.outputCounted n).input m = s.windowed m) := by
  obtain ⟨honly, hkept, htaken⟩ :=
    (s.countOutput n).openWindow_foldl ((s.lineDef n).rejects)
  refine ⟨fun m => honly.kept m, fun m hm => hkept m hm, fun hnodup m hm =>
    (htaken hnodup m hm).trans ?_⟩
  have hqualified : (s.countOutput n).qualified m = s.qualified m := by
    have hserved : ∀ l, (s.countOutput n).inService l = s.inService l := fun l => by
      unfold State.inService
      by_cases hl : l = n
      · subst hl
        rw [State.countOutput, State.modBank, State.line_modLine_same]
        rfl
      · rw [State.countOutput, State.modBank, State.line_modLine_ne s hl]
    unfold State.qualified
    rw [show (s.countOutput n).roleOf m = s.roleOf m from rfl]
    simp only [hserved]
    rfl
  unfold State.windowed
  rw [hqualified]
  rfl

/-! ### The obligation -/

/-- Settles O31: a reject edge under qualification and without, and what a counting edge of a REJECT
and of an OUTPUT input does to the window queues. -/
theorem rejectEdgesAreQualified : Obligations.RejectEdgesAreQualified := by
  unfold Obligations.RejectEdgesAreQualified
  refine ⟨fun s i n q b hq hb => ⟨fun hst => State.rejectEdge_planned hq hst, fun hst =>
    ⟨fun w before rest hws hbefore hw => ?consumes, fun hws => ?stray⟩⟩,
    fun s i n b hq hb => ⟨fun hst => ?skips, fun hst => ?plain⟩,
    fun s slot i n b k active hrun hframe hi hlevel hlast hedge hs hb hk hsound =>
      ⟨fun hrole => ?reject, fun hrole => ?output⟩⟩
  case consumes =>
    have hconsume : consumeWindow s.moment (s.input i).windows = some (before ++ rest) := by
      rw [hws, consumeWindow_some hbefore hw]
    rw [State.rejectEdge_consumes hq hst hconsume, State.countReject_counted
      (s := s.modInput i fun a => { a with windows := before ++ rest }) hst]
    refine ⟨congrArg InputAcq.windows (State.input_modInput_same s i _), ?_⟩
    exact congrArg LineLive.bank (State.line_modBank_some hb _)
  case stray =>
    rw [State.rejectEdge_stray hq hst (consumeWindow_none hws), State.countReject_stray hst]
    exact ⟨rfl, congrArg LineLive.bank (State.line_modBank_some hb _)⟩
  case skips => rw [State.rejectEdge_unqualified hq, State.countReject_planned hst]
  case plain =>
    rw [State.rejectEdge_unqualified hq, State.countReject_counted hst]
    refine congrArg (fun l => { s with lines := Tab.set s.lines n l }) ?_
    exact congrArg (fun o => { s.line n with bank := o }) ((congrArg (Option.map _) hb).trans rfl)
  case reject =>
    rw [exec_countSample_accepted hrun hframe hi hlevel hlast, if_pos (Edge.counts_of hedge),
      State.countingEdge_reject (s := s.withInput i ((s.input i).changed active)) hrole hs]
    have hraised : (s.withInput i ((s.input i).changed active)).rawRaised i =
        s.modInput i fun a => { a with
          accepted := if active then .on else .off, run := 0, lastSample := some active
          raw := a.raw + 1 } := State.rawRaised_withInput s i _
    refine ⟨_, rfl, ?_, _, hraised, rfl⟩
    rw [State.rejectEdge_raw, State.rawRaised_withInput, State.input_withInput_same]
    rfl
  case output =>
    rw [exec_countSample_accepted hrun hframe hi hlevel hlast, if_pos (Edge.counts_of hedge),
      State.countingEdge_output (s := s.withInput i ((s.input i).changed active)) hrole hs,
      State.rawRaised_withInput]
    obtain ⟨a, ha⟩ : ∃ a, a = { (s.input i).changed active with
      raw := ((s.input i).changed active).raw + 1 } := ⟨_, rfl⟩
    rw [← ha]
    have hwindows : ∀ j, ((s.withInput i a).input j).windows = (s.input j).windows := fun j => by
      by_cases hj : j = i
      · rw [hj, State.input_withInput_same, ha]
        rfl
      · rw [State.input_withInput_ne s hj]
    obtain ⟨hkept, hothers, htaken⟩ := (s.withInput i a).outputCounted_windows n
    have hinput : ∀ j, ((s.withInput i a).outputEdge i n).input j =
        ((s.withInput i a).outputCounted n).input j :=
      (s.withInput i a).input_outputEdge (n := n) hk i
    refine ⟨_, rfl, fun j q hj hq => ?_, fun j hj => ?_, fun j hj => ?_⟩
    · have hwindowed : (s.withInput i a).windowed j =
          ((s.withInput i a).input j).appendWindow q s.moment := by
        have hq' : (s.withInput i a).qualified j = some q := hq
        unfold State.windowed
        rw [hq']
        rfl
      rw [hinput, htaken (hsound.rejects n) j hj, hwindowed, InputAcq.appendWindow_windows,
        hwindows]
    · rw [hinput, ← hwindows]
      rcases hj with hj | hj
      · rw [hothers j hj]
      · by_cases hin : j ∈ (s.lineDef n).rejects
        · have hq' : (s.withInput i a).qualified j = none := hj
          rw [htaken (hsound.rejects n) j hin, State.windowed, hq']
        · rw [hothers j hin]
    · rw [hinput, hkept, State.input_withInput_ne s hj]

end Sys2Proof.Machine

/-! What the events of members keep of the counts (R24, R52, R53), and a pace edge of a station. -/

namespace Sys2Proof.Machine

/-! ### Turns keep what the inputs count -/

/-- The bank `b'` has the counts of inputs that `b` has (R125, R126). -/
structure Bank.SameOutput (b b' : Bank) : Prop where
  t : b'.counts.t = b.counts.t
  c : b'.counts.c = b.counts.c
  j : b'.counts.j = b.counts.j
  stray : b'.counts.stray = b.counts.stray

/-- The station `w` has the pace count that `v` has (R52). -/
def StationLive.PaceKept (v w : StationLive) : Prop :=
  ∀ y, v.tally = some y → ∃ z, w.tally = some z ∧ z.pace = y.pace

namespace StationLive.PaceKept

theorem of_eq {v w : StationLive} (h : w.tally = v.tally) : v.PaceKept w :=
  fun y hy => ⟨y, h.trans hy, rfl⟩

theorem trans {u v w : StationLive} (h : u.PaceKept v) (g : v.PaceKept w) : u.PaceKept w :=
  fun y hy => by
    obtain ⟨z, hz, hpace⟩ := h y hy
    obtain ⟨x, hx, hpace'⟩ := g z hz
    exact ⟨x, hx, hpace'.trans hpace⟩

end StationLive.PaceKept

namespace Bank.SameOutput

theorem refl (b : Bank) : b.SameOutput b := ⟨rfl, rfl, rfl, rfl⟩

theorem of_counts {b b' : Bank} (h : b'.counts = b.counts) : b.SameOutput b' :=
  ⟨congrArg Counts.t h, congrArg Counts.c h, congrArg Counts.j h, congrArg Counts.stray h⟩

theorem trans {a b c : Bank} (h : a.SameOutput b) (g : b.SameOutput c) : a.SameOutput c :=
  ⟨g.t.trans h.t, g.c.trans h.c, g.j.trans h.j, g.stray.trans h.stray⟩

theorem of_enters {b b' : Bank} {rate t stoppages : Nat} {k : Bucket} {run : Option Nat}
    (h : b.Enters b' rate t k run stoppages) : b.SameOutput b' := by
  have hcounts := h.plainCounts
  constructor <;> rw [hcounts]

theorem enter (b : Bank) (st : LineState) (t rate : Nat) (k : Bucket) :
    b.SameOutput (b.enter st t rate k) := .of_enters (.enter b st t rate k)

end Bank.SameOutput

section Turns

variable {old s : State} {n : LineId} {k : StationId}

/-- The turn of a line changes lines alone, or lets a stopped line run. -/
theorem State.memberNews_cases (old s : State) (n : LineId) (k : StationId) :
    s.OnlyLines (State.memberNews old s n k) ∨
    State.memberNews old s n k = (s.endMicro n s.now).enterLine n .running s.now ∨
    State.memberNews old s n k = (s.closeRecord n .returned s.now).enterLine n .running s.now := by
  by_cases h : old.Moved s k ∧ (s.station k).state = .running
  · obtain ⟨hm, hr⟩ := h
    cases hst : (s.line n).state with
    | pendingStop => exact .inr (.inl (State.memberNews_micro hst hm hr))
    | down => exact .inr (.inr (State.memberNews_returned hst hm hr))
    | resuming =>
      rw [State.memberNews_resuming hst hm (by rw [hr]; exact StationState.noConfusion),
        State.evaluate_eq]
      exact .inl (.modLine s n _)
    | running =>
      refine .inl ?_
      simp only [State.memberNews, hst, hr, bne_self_eq_false, Bool.and_false, Bool.false_eq_true,
        if_false]
      exact .refl s
    | planned =>
      rw [State.memberNews_planned hst]
      exact .inl (.refl s)
    | outOfService =>
      refine .inl ?_
      simp only [State.memberNews, hst]
      exact .refl s
  · exact .inl (State.memberNews_onlyLines h)

/-- The end of a micro-stop keeps the pace counts. -/
theorem State.endMicro_pace (s : State) (n : LineId) (t : Nat) (m : StationId) :
    (s.station m).PaceKept ((s.endMicro n t).station m) := by
  cases hr : (s.line n).slot with
  | none =>
    unfold State.endMicro
    rw [hr]
    exact .of_eq rfl
  | some r =>
    intro y hy
    obtain ⟨z, hz, heq, -⟩ := State.endMicro_credited hr t m y hy
    exact ⟨z, hz, by rw [heq]⟩

theorem State.closeRecord_pace (s : State) (n : LineId) (kind : CloseKind) (t : Nat)
    (m : StationId) : (s.station m).PaceKept ((s.closeRecord n kind t).station m) := by
  cases hr : (s.line n).openRecord with
  | none =>
    unfold State.closeRecord
    rw [hr]
    exact .of_eq rfl
  | some p =>
    intro y hy
    obtain ⟨z, hz, heq, -⟩ := State.closeRecord_credited (r := p.1) (m := p.2) hr kind t m y hy
    exact ⟨z, hz, by rw [heq]⟩

theorem State.OnlyLines.pace {s t : State} (h : s.OnlyLines t) (m : StationId) :
    (s.station m).PaceKept (t.station m) :=
  .of_eq (congrArg (fun v => (Tab.get v m).tally) h.stations)

theorem State.station_enterLine (s : State) (n : LineId) (st : LineState) (t : Nat)
    (m : StationId) : (s.enterLine n st t).station m = s.station m := by
  rw [State.enterLine_eq]
  rfl

theorem State.memberNews_pace (old s : State) (n : LineId) (k m : StationId) :
    (s.station m).PaceKept ((State.memberNews old s n k).station m) := by
  rcases State.memberNews_cases old s n k with h | h | h
  · exact h.pace m
  · rw [h, State.station_enterLine]
    exact s.endMicro_pace n _ m
  · rw [h, State.station_enterLine]
    exact s.closeRecord_pace n _ _ m

theorem State.lineNews_pace (old s : State) (n : LineId) (m : StationId) :
    (s.station m).PaceKept ((State.lineNews old s n).station m) := by
  cases hs : s.inService n with
  | false =>
    rw [State.lineNews_idle hs]
    exact .of_eq rfl
  | true =>
    cases hk : (s.lineDef n).constraint with
    | none =>
      rw [State.lineNews_unconstrained hk]
      exact .of_eq rfl
    | some k =>
      rw [State.lineNews_eq hs hk]
      exact ((State.flagged_onlyLines old s n k).pace m).trans (State.memberNews_pace old _ n k m)

theorem State.settleLines_pace (old s : State) (m : StationId) :
    (s.station m).PaceKept ((State.settleLines old s).station m) := by
  have hall : ∀ (ns : List LineId) (u : State),
      (u.station m).PaceKept ((ns.foldl (fun s n => State.lineNews old s n) u).station m) := by
    intro ns
    induction ns with
    | nil => exact fun u => .of_eq rfl
    | cons n ns ih => exact fun u => (State.lineNews_pace old u n m).trans (ih _)
  exact hall allLines s

/-! ### The bank's counts of inputs -/

theorem State.endMicro_output {b : Bank} (hb : (s.line n).bank = some b) (t : Nat) :
    ∃ b', ((s.endMicro n t).line n).bank = some b' ∧ b.SameOutput b' := by
  cases hr : (s.line n).slot with
  | none =>
    unfold State.endMicro
    rw [hr]
    exact ⟨b, hb, .refl b⟩
  | some r =>
    rw [State.line_endMicro hr, hb]
    exact ⟨b.endMicro t, rfl, rfl, rfl, rfl, rfl⟩

theorem State.closeRecord_output {b : Bank} (hb : (s.line n).bank = some b) (kind : CloseKind)
    (t : Nat) : ∃ b', ((s.closeRecord n kind t).line n).bank = some b' ∧ b.SameOutput b' := by
  cases hr : (s.line n).openRecord with
  | none =>
    unfold State.closeRecord
    rw [hr]
    exact ⟨b, hb, .refl b⟩
  | some p =>
    rw [State.line_closeRecord (r := p.1) (m := p.2) hr]
    exact ⟨b, hb, .refl b⟩

theorem LineLive.enter_output {l : LineLive} {b : Bank} (hb : l.bank = some b) (st : LineState)
    (stamp t rate : Nat) :
    ∃ b', (l.enter st stamp t rate).bank = some b' ∧ b.SameOutput b' := by
  unfold LineLive.enter
  rw [hb]
  exact ⟨_, rfl, .enter b st t rate _⟩

theorem State.enterLine_output {b : Bank} (hb : (s.line n).bank = some b) (st : LineState)
    (t : Nat) : ∃ b', ((s.enterLine n st t).line n).bank = some b' ∧ b.SameOutput b' := by
  rw [State.line_enterLine]
  exact LineLive.enter_output hb st _ t _

theorem LineLive.degrade_output {l : LineLive} {b : Bank} (hb : l.bank = some b) (d : Bool) :
    ∃ b', (l.degrade d).bank = some b' ∧ b.SameOutput b' := by
  unfold LineLive.degrade
  rw [hb]
  exact ⟨_, rfl, .of_counts rfl⟩

theorem State.rewalk_output {b : Bank} (hb : (s.line n).bank = some b) :
    ∃ b', ((s.rewalk n).line n).bank = some b' ∧ b.SameOutput b' := by
  cases hr : (s.line n).slot with
  | none =>
    unfold State.rewalk
    rw [hr]
    exact ⟨b, hb, .refl b⟩
  | some r =>
    have hwalked : ∃ b', ((s.line n).rewalked (s.rewalkedSlot n r) s.now (s.appends n r)).bank =
        some b' ∧ b.SameOutput b' := by
      unfold LineLive.rewalked
      rw [hb]
      cases s.appends n r with
      | true => exact ⟨_, rfl, .of_counts rfl⟩
      | false => exact ⟨b, rfl, .refl b⟩
    obtain ⟨b1, hb1, hsame1⟩ := hwalked
    obtain ⟨b2, hb2, hsame2⟩ := LineLive.degrade_output hb1 (s.walkDegrades n r)
    rw [State.rewalk_eq hr, State.line_modLine_same]
    exact ⟨b2, hb2, hsame1.trans hsame2⟩

theorem State.memberNews_output {b : Bank} (hb : (s.line n).bank = some b) :
    ∃ b', ((State.memberNews old s n k).line n).bank = some b' ∧ b.SameOutput b' := by
  have hkept : ∃ b', (s.line n).bank = some b' ∧ b.SameOutput b' := ⟨b, hb, .refl b⟩
  have hrewalk : ∀ c : Bool, ∃ b', (State.line (if c then s.rewalk n else s) n).bank = some b' ∧
      b.SameOutput b' := fun c => by
    cases c with
    | true => exact State.rewalk_output hb
    | false => exact hkept
  have hresume : ∀ u : State, (∃ b', (u.line n).bank = some b' ∧ b.SameOutput b') →
      ∃ b', ((u.enterLine n .running s.now).line n).bank = some b' ∧ b.SameOutput b' := by
    rintro u ⟨b1, hb1, hsame1⟩
    obtain ⟨b2, hb2, hsame2⟩ := State.enterLine_output hb1 .running s.now
    exact ⟨b2, hb2, hsame1.trans hsame2⟩
  unfold State.memberNews
  cases (s.line n).state with
  | resuming =>
    dsimp only
    split
    · obtain ⟨b', hb', henters⟩ := State.evaluated_bank (s := s) (n := n) hb
      rw [State.evaluate_eq, State.line_modLine_same]
      exact ⟨b', hb', .of_enters henters⟩
    · exact hkept
  | running =>
    dsimp only
    split
    · obtain ⟨b', hb', henters⟩ := s.stopLine_bank n _ hb
      rw [State.line_openCandidate]
      exact ⟨b', hb', .of_enters henters⟩
    · exact hkept
  | pendingStop =>
    dsimp only
    split
    · exact hresume _ (State.endMicro_output hb _)
    · exact hrewalk _
  | down =>
    dsimp only
    split
    · exact hresume _ (State.closeRecord_output hb _ _)
    · exact hrewalk _
  | planned => exact hkept
  | outOfService => exact hkept

theorem State.lineNews_output {b : Bank} (hb : (s.line n).bank = some b) :
    ∃ b', ((State.lineNews old s n).line n).bank = some b' ∧ b.SameOutput b' := by
  cases hs : s.inService n with
  | false =>
    rw [State.lineNews_idle hs]
    exact ⟨b, hb, .refl b⟩
  | true =>
    cases hk : (s.lineDef n).constraint with
    | none =>
      rw [State.lineNews_unconstrained hk]
      exact ⟨b, hb, .refl b⟩
    | some k =>
      have hflagged : ∃ b', ((State.flagged old s n k).line n).bank = some b' ∧
          b.SameOutput b' := by
        rw [State.flagged_eq, State.line_modLine_same]
        have hmarked : ((s.line n).marked (degradedChanged old s k &&
            (s.station k).degraded)).bank = some { b with
              degraded := b.degraded || (degradedChanged old s k && (s.station k).degraded) } := by
          unfold LineLive.marked
          rw [hb]
          rfl
        obtain ⟨b', hb', hsame⟩ := LineLive.degrade_output hmarked
          ((degradedChanged old s k || State.slotFlagMoved old s n) && s.newlyDegraded n)
        exact ⟨b', hb', hsame.t, hsame.c, hsame.j, hsame.stray⟩
      obtain ⟨b1, hb1, hsame1⟩ := hflagged
      obtain ⟨b2, hb2, hsame2⟩ := State.memberNews_output (old := old) (k := k) hb1
      rw [State.lineNews_eq hs hk]
      exact ⟨b2, hb2, hsame1.trans hsame2⟩

theorem State.LinesTake.output {u t : State} (h : State.LinesTake old u t) {b : Bank}
    (hb : (u.line n).bank = some b) : ∃ b', (t.line n).bank = some b' ∧ b.SameOutput b' := by
  obtain ⟨w, hline, -, -, hturn, -⟩ := h.each n
  rw [hturn]
  exact State.lineNews_output (by rw [hline, hb])

end Turns

/-! ### A pace edge (R52, R53) -/

section Pace

variable {s : State} {k : StationId}

/-- The tally of a station with one more pace edge. -/
def StationTally.paced (y : StationTally) : StationTally :=
  { y with pace := min (y.pace + 1) 4294967295 }

/-- The stall timer that a pace edge starts (R53). -/
theorem State.stallStart_of (hserved : s.stationServed k = true) {i : InputId}
    (hsource : s.paceSource k = some i) {d : StationDef} (hd : s.stationDef k = some d) :
    s.stallStart k = if d.stall = 0 then none else some (s.now + d.stall * 100) := by
  unfold State.stallStart State.stallTime
  rw [if_pos hserved, hd, hsource]
  by_cases hz : d.stall = 0
  · rw [if_pos hz]
    simp [hz]
  · rw [if_neg hz]
    simp [hz]

theorem State.paceEdge_running (h : (s.station k).state = .running) :
    s.paceEdge k = s.modStation k fun v => { v with
      tally := v.tally.map StationTally.paced, stallExpiry := s.stallStart k } := by
  unfold State.paceEdge
  simp only [h]
  unfold State.modTally
  rw [State.modStation_modStation]
  rfl

theorem State.paceEdge_waiting (hr : (s.station k).state ≠ .running)
    (hs : (s.station k).state ≠ .stalled) : s.paceEdge k = s.modStation k fun v => { v with
      tally := v.tally.map StationTally.paced } := by
  unfold State.paceEdge
  cases hst : (s.station k).state with
  | running => exact absurd hst hr
  | stalled => exact absurd hst hs
  | _ => rfl

/-- A station that is not STALLED takes a pace edge by itself. -/
theorem State.paceEdge_alone (hs : (s.station k).state ≠ .stalled) :
    s.OnlyStations (s.paceEdge k) ∧ ∀ m, m ≠ k → (s.paceEdge k).station m = s.station m := by
  by_cases hr : (s.station k).state = .running
  · rw [State.paceEdge_running hr]
    exact ⟨rfl, fun m hm => State.station_modStation_ne s hm _⟩
  · rw [State.paceEdge_waiting hr hs]
    exact ⟨rfl, fun m hm => State.station_modStation_ne s hm _⟩

/-- The station that stalled, running again with its edge counted. -/
theorem State.paceEdge_returns (hs : (s.station k).state = .stalled) : ∃ v,
    v = StationLive.change { s.station k with
      tally := (s.station k).tally.map StationTally.paced } .running s.hall s.now
      (s.stallStart k) ∧
    v.SameButTally ((s.paceEdge k).station k) ∧ v.PaceKept ((s.paceEdge k).station k) := by
  have hedge : s.paceEdge k = State.settleLines s
      ((s.modTally k StationTally.paced).changeStation k .running) := by
    unfold State.paceEdge
    simp only [hs]
    rfl
  have hstation : ((s.modTally k StationTally.paced).changeStation k .running).station k =
      StationLive.change { s.station k with tally := (s.station k).tally.map StationTally.paced }
        .running s.hall s.now (s.stallStart k) := by
    rw [State.station_changeStation_same]
    unfold State.modTally
    rw [State.station_modStation_same]
    rfl
  refine ⟨_, rfl, ?_, ?_⟩
  · rw [hedge, ← hstation]
    exact State.settleLines_stations s _ k
  · rw [hedge, ← hstation]
    exact State.settleLines_pace s _ k

/-- A pace edge, in a state that differs in its inputs and lines at most (R24, R52, R53, R60). -/
theorem State.paced_paceEdge {x : State} {i : InputId} (hstations : x.stations = s.stations)
    (hclock : x.clock = s.clock) (hsettings : x.settings = s.settings)
    (hserved : x.stationServed k = true) (hsource : x.paceSource k = some i) :
    s.Paced x (x.paceEdge k) k := by
  have hstation : ∀ m, x.station m = s.station m := fun m =>
    congrArg (fun v => Tab.get v m) hstations
  have hhall : x.hall = s.hall := State.hall_of_clock hclock
  have hnow : x.now = s.clock.count := congrArg Clock.count hclock
  have htimer : ∀ d, s.stationDef k = some d → x.stallStart k =
      if d.stall = 0 then none else some (s.clock.count + d.stall * 100) := fun d hd => by
    have hdef : x.stationDef k = some d := by
      rw [← hd]
      exact congrArg (fun g => Tab.get (Settings.stations g) k) hsettings
    rw [State.stallStart_of hserved hsource hdef, hnow]
  by_cases hstalled : (s.station k).state = .stalled
  · obtain ⟨v, hv, hsame, hpace⟩ := State.paceEdge_returns (s := x) (k := k) (by rw [hstation, hstalled])
    obtain ⟨u, hu, huk, hum, htakes⟩ := State.paceEdge_stalled x k (by rw [hstation, hstalled])
    rw [hstation, hhall, hnow] at hv
    have hstate : v.state = .running := by rw [hv]; rfl
    have hexpiry : v.stallExpiry = x.stallStart k := by rw [hv]; rfl
    have hentered : (s.station k).Entered v s.hall s.clock.count := by
      have h := StationLive.entered_change { s.station k with
        tally := (s.station k).tally.map StationTally.paced } .running s.hall s.clock.count
        (x.stallStart k)
      rw [← hv] at h
      exact ⟨h.stamped, h.running, h.stopped, h.waiting, h.kept⟩
    refine ⟨fun y hy => ?_, fun d hd _ => ⟨hsame.state.trans hstate, ?_⟩, fun _ => ?_,
      fun _ => ⟨u, hu, ?_, fun m hm => (hum m hm).trans (hstation m), htakes⟩,
      fun _ hne => absurd hstalled hne⟩
    · have htally : v.tally = some (y.paced.addTime .stalled (s.clock.count - (s.station k).since)) := by
        rw [hv, (StationLive.change_rest _ _ _ _ _).2.1, StationLive.tallyAt, hy, ← hstalled]
        rfl
      obtain ⟨z, hz, heq⟩ := hpace _ htally
      exact ⟨z, hz, heq⟩
    · rw [hsame.stallExpiry, hexpiry, htimer d hd]
    · exact ⟨hsame.stamp.trans hentered.stamped, by
        rw [hsame.state, hsame.reported, hsame.armed, hsame.memory]
        exact hentered.running, by
        rw [hsame.state, hsame.reported, hsame.armed]
        exact hentered.stopped, by
        rw [hsame.state, hsame.reported, hsame.armed]
        exact hentered.waiting, by
        rw [hsame.state, hsame.memory, hsame.stallExpiry]
        exact hentered.kept⟩
    · rw [huk, hstation, hhall, show x.clock.count = s.clock.count from hnow]
  · have hstalled' : (x.station k).state ≠ .stalled := by rw [hstation]; exact hstalled
    by_cases hrun : (s.station k).state = .running
    · have hk : (x.paceEdge k).station k = { s.station k with
          tally := (s.station k).tally.map StationTally.paced, stallExpiry := x.stallStart k } := by
        rw [State.paceEdge_running (by rw [hstation, hrun]), State.station_modStation_same, hstation]
      refine ⟨fun y hy => ⟨y.paced, ?_, rfl⟩, fun d hd _ => ⟨?_, ?_⟩, fun h => absurd h hstalled,
        fun h => absurd h hstalled, fun h => absurd hrun h⟩
      · rw [hk, hy]
        rfl
      · rw [hk]
        exact hrun
      · rw [hk, ← htimer d hd]
    · have hk : (x.paceEdge k).station k = { s.station k with
          tally := (s.station k).tally.map StationTally.paced } := by
        rw [State.paceEdge_waiting (by rw [hstation]; exact hrun) hstalled',
          State.station_modStation_same, hstation]
      refine ⟨fun y hy => ⟨y.paced, ?_, rfl⟩, fun d hd h => ?_, fun h => absurd h hstalled,
        fun h => absurd h hstalled, fun _ _ => ?_⟩
      · rw [hk, hy]
        rfl
      · exact h.elim (fun h => absurd h hrun) fun h => absurd h hstalled
      · rw [hk]
        exact ⟨rfl, rfl, rfl⟩

end Pace

end Sys2Proof.Machine

/-! Counting edges are handed on by the role of their input (R23, R24, R52, R125). -/

namespace Sys2Proof.Machine

section Hand

variable {s : State} {i : InputId} {n : LineId} {k : StationId}

/-- An edge that no line in service takes raises the raw counter alone (R23). -/
theorem State.countingEdge_unserved (h : s.roleOf i = .none ∨
    (∃ n, (s.roleOf i = .output n ∨ s.roleOf i = .reject n) ∧ s.inService n = false) ∨
    ∃ k, s.roleOf i = .pace k ∧ s.stationServed k = false) :
    s.countingEdge i = s.rawRaised i := by
  have hserves : ∀ {c : Bool}, c = false → ¬ c = true := fun h => Bool.eq_false_iff.mp h
  unfold State.countingEdge
  simp only [State.roleOf_modInput]
  rcases h with hrole | ⟨n, hrole | hrole, hs⟩ | ⟨k, hrole, hs⟩
  · simp only [hrole]
    rfl
  · simp only [hrole]
    exact if_neg (hserves hs)
  · simp only [hrole]
    exact if_neg (hserves hs)
  · simp only [hrole]
    exact if_neg (hserves hs)

theorem State.countingEdge_pace (hrole : s.roleOf i = .pace k)
    (hserved : s.stationServed k = true) : s.countingEdge i = (s.rawRaised i).paceEdge k := by
  unfold State.countingEdge
  simp only [State.roleOf_modInput, hrole]
  exact if_pos hserved

/-- The station of a PACE input is paced by it (R53). -/
theorem State.paceSource_of_role (h : s.roleOf i = .pace k) : s.paceSource k = some i := by
  have hpace : ((Tab.get s.settings.stations k).bind StationDef.pace) = some i := by
    unfold State.roleOf Settings.roleOf at h
    split at h
    · exact nomatch h
    · split at h
      · exact nomatch h
      · split at h
        next m hm =>
          rw [Role.pace.injEq] at h
          have hfound := List.find?_some (p := fun k =>
            (Tab.get s.settings.stations k).bind StationDef.pace == some i) hm
          exact h ▸ beq_iff_eq.mp hfound
        · exact nomatch h
  obtain ⟨d, hd, hdp⟩ := Option.bind_eq_some_iff.mp hpace
  have hdef : s.stationDef k = some d := hd
  unfold State.paceSource
  simp only [hdef, hdp]

/-- The bank of a line that counts an output edge (R125). -/
def Bank.outputCounted (b : Bank) (planned : Bool) : Bank :=
  { b with counts := if planned then { b.counts with c := min (b.counts.c + 1) 4294967295 }
      else { b.counts with t := min (b.counts.t + 1) 4294967295 } }

/-- What an output edge makes of the state before it paces the constraint. -/
theorem State.outputCounted_eq {b : Bank} (hb : (s.line n).bank = some b) :
    s.outputCounted n = { s with
      inputs := (s.outputCounted n).inputs
      lines := Tab.set s.lines n { s.line n with
        bank := some (b.outputCounted (decide ((s.line n).state = .planned))) } } := by
  have hcounted : s.countOutput n = { s with
      lines := Tab.set s.lines n { s.line n with
        bank := some (b.outputCounted (decide ((s.line n).state = .planned))) } } := by
    refine congrArg (fun l => { s with lines := Tab.set s.lines n l }) ?_
    refine congrArg (fun o => { s.line n with bank := o }) ?_
    refine (congrArg (Option.map _) hb).trans (congrArg some ?_)
    by_cases hp : (s.line n).state = .planned
    · simp only [hp, decide_true, if_true]
      rfl
    · simp only [hp, decide_false, if_false]
      rfl
  have honly := (State.openWindows_onlyWindows (s.countOutput n) n).only
  rw [hcounted] at honly
  unfold State.outputCounted
  rw [hcounted]
  exact honly

end Hand

/-! ### An output edge -/

section Output

variable {s x : State} {i : InputId} {n : LineId} {k : StationId} {b : Bank}

/-- The counts of a bank that took an output edge (R125). -/
structure Bank.Outputs (b b' : Bank) (planned : Bool) : Prop where
  t : planned = false → b'.counts.t = min (b.counts.t + 1) 4294967295 ∧ b'.counts.c = b.counts.c
  c : planned = true → b'.counts.c = min (b.counts.c + 1) 4294967295 ∧ b'.counts.t = b.counts.t
  j : b'.counts.j = b.counts.j
  stray : b'.counts.stray = b.counts.stray

theorem Bank.outputs_counted (b : Bank) (planned : Bool) :
    b.Outputs (b.outputCounted planned) planned := by
  cases planned with
  | true => exact ⟨(fun h => nomatch h), fun _ => ⟨rfl, rfl⟩, rfl, rfl⟩
  | false => exact ⟨fun _ => ⟨rfl, rfl⟩, (fun h => nomatch h), rfl, rfl⟩

theorem Bank.Outputs.same {b b' c : Bank} {planned : Bool} (h : b.Outputs b' planned)
    (g : b'.SameOutput c) : b.Outputs c planned where
  t := fun hp => ⟨g.t.trans (h.t hp).1, g.c.trans (h.t hp).2⟩
  c := fun hp => ⟨g.c.trans (h.c hp).1, g.t.trans (h.c hp).2⟩
  j := g.j.trans h.j
  stray := g.stray.trans h.stray

/-- The figures that an output edge leaves in the bank. -/
theorem Bank.outputCounted_rest (b : Bank) (planned : Bool) :
    (b.outputCounted planned).counts.ideal = b.counts.ideal ∧
    (b.outputCounted planned).counts.remainder = b.counts.remainder ∧
    (b.outputCounted planned).counts.micro = b.counts.micro ∧
    (b.outputCounted planned).counts.stoppage = b.counts.stoppage := by
  cases planned <;> exact ⟨rfl, rfl, rfl, rfl⟩

/-- The state in which an output edge of line `n` is counted, and may pace the constraint. -/
structure State.OutputTaken (s x : State) (n : LineId) (b : Bank) : Prop where
  rest : x = { s with
    inputs := x.inputs
    lines := Tab.set s.lines n { s.line n with
      bank := some (b.outputCounted (decide ((s.line n).state = .planned))) } }

theorem State.OutputTaken.line (h : s.OutputTaken x n b) : x.line n = { s.line n with
    bank := some (b.outputCounted (decide ((s.line n).state = .planned))) } := by
  rw [h.rest]
  exact Tab.get_set_same _ _ _

theorem State.OutputTaken.served (h : s.OutputTaken x n b) (k : StationId) :
    x.stationServed k = s.stationServed k := by
  have hserves : ∀ m, x.inService m = s.inService m := fun m => by
    unfold State.inService
    by_cases hm : m = n
    · subst hm
      rw [h.line]
      rfl
    · rw [h.rest]
      exact congrArg LineLive.inService (Tab.get_set_ne s.lines hm _)
  have hlineOf : x.lineOf k = s.lineOf k := by
    rw [h.rest]
    rfl
  unfold State.stationServed
  rw [hlineOf]
  simp only [hserves]

/-- The state after the edge has paced the constraint, where the constraint did not stall. -/
theorem State.OutputTaken.alone (h : s.OutputTaken x n b) {t : State} (ht : x.OnlyStations t) :
    t = { s with inputs := t.inputs, lines := t.lines, stations := t.stations } ∧
    t.lines = Tab.set s.lines n { s.line n with
      bank := some (b.outputCounted (decide ((s.line n).state = .planned))) } := by
  have hrest := h.rest
  unfold State.OnlyStations at ht
  rw [hrest] at ht
  rw [ht]
  exact ⟨rfl, rfl⟩

end Output

/-- The bank after an output edge, paced or not. -/
theorem State.OutputTaken.outputs {s x t : State} {i : InputId} {n : LineId} {k : StationId}
    {b : Bank} (h : s.OutputTaken x n b)
    (ht : t = if s.paceSource k = some i then x.paceEdge k else x) :
    ∃ b', (t.line n).bank = some b' ∧ b.Outputs b' (decide ((s.line n).state = .planned)) := by
  have hbank := congrArg LineLive.bank h.line
  have hcounted := b.outputs_counted (decide ((s.line n).state = .planned))
  by_cases hp : s.paceSource k = some i
  · rw [ht, if_pos hp]
    by_cases hst : (x.station k).state = .stalled
    · obtain ⟨u, hu, -, -, htakes⟩ := State.paceEdge_stalled x k hst
      have huline : (u.line n).bank = (x.line n).bank := by
        rw [hu]
        rfl
      obtain ⟨b', hb', hsame⟩ := htakes.output (huline.trans hbank)
      exact ⟨b', hb', hcounted.same hsame⟩
    · have honly := (State.paceEdge_alone hst).1
      have htline : (x.paceEdge k).line n = x.line n := by
        rw [honly]
        rfl
      exact ⟨_, (congrArg LineLive.bank htline).trans hbank, hcounted⟩
  · rw [ht, if_neg hp]
    exact ⟨_, hbank, hcounted⟩

/-- Settles O30: a change against the edge setting; an edge that no one takes, an output edge and a pace
edge. -/
theorem countingEdgesAreHandedOnByRole : Obligations.CountingEdgesAreHandedOnByRole := by
  unfold Obligations.CountingEdgesAreHandedOnByRole
  intro s slot i active changed sampled hrun hframe hi hlevel hlast hchanged hsampled
  have hedge := exec_countSample_accepted hrun hframe hi hlevel hlast
  have hraised : (s.withInput i changed).rawRaised i = s.withInput i sampled := by
    rw [State.rawRaised_withInput, hsampled, hchanged]
  replace hedge : exec (.countSample slot active) s = .next
      (if (s.inputDef i).edge.counts active then (s.withInput i changed).countingEdge i
        else s.withInput i changed) := by rw [hedge, hchanged]; rfl
  refine ⟨fun hset => ?against, fun hset => ?_⟩
  case against =>
    rw [hedge, if_neg (Bool.eq_false_iff.mp (Edge.counts_not hset))]
    rfl
  rw [hedge, if_pos (Edge.counts_of hset)]
  refine ⟨rfl, fun hnone => ?unserved, fun n b k hrole hs hb hk => ?output,
    fun k hrole hserved => ?pace⟩
  case unserved =>
    rw [State.countingEdge_unserved (s := s.withInput i changed) hnone, hraised]
    rfl
  case output =>
    rw [State.countingEdge_output (s := s.withInput i changed) hrole hs, hraised,
      State.outputEdge_eq (s := s.withInput i sampled) hk]
    have htaken : s.OutputTaken ((s.withInput i sampled).outputCounted n) n b :=
      ⟨(State.outputCounted_eq (s := s.withInput i sampled) (n := n) hb).trans rfl⟩
    have hraw : (((s.withInput i sampled).outputCounted n).input i).raw = (s.input i).raw + 1 := by
      rw [((s.withInput i sampled).outputCounted_windows n).1 i, State.input_withInput_same, hsampled]
    have hsource : (s.withInput i sampled).paceSource k = s.paceSource k := rfl
    rw [hsource]
    generalize (s.withInput i sampled).outputCounted n = x at htaken hraw
    have hrest := htaken.rest
    have hstations : x.stations = s.stations := by rw [hrest]
    have hclock : x.clock = s.clock := by rw [hrest]
    have hsettings : x.settings = s.settings := by rw [hrest]
    have hxline := htaken.line
    obtain ⟨t, ht⟩ : ∃ t, t = if s.paceSource k = some i then x.paceEdge k else x := ⟨_, rfl⟩
    rw [← ht]
    have hsame : x.SameButLines t := by
      rw [ht]
      split
      · exact x.paceEdge_same k
      · exact .of_live rfl
    have hstation : x.station k = s.station k := congrArg (fun v => Tab.get v k) hstations
    have halone : s.paceSource k ≠ some i ∨ (s.station k).state ≠ .stalled →
        x.OnlyStations t := fun hquiet => by
      rw [ht]
      split
      next hp =>
        refine (State.paceEdge_alone ?_).1
        rw [hstation]
        exact hquiet.resolve_left fun hne => hne hp
      next => exact rfl
    obtain ⟨b', hb', houtputs⟩ := htaken.outputs ht
    refine ⟨t, b', rfl, hb', ?_, fun hst => houtputs.t (decide_eq_false hst),
      fun hst => houtputs.c (decide_eq_true hst), houtputs.j, houtputs.stray,
      hsame.settings.trans hsettings, hsame.clock.trans hclock, fun hquiet => ?_, fun hp => ?_,
      fun hp hserved => ⟨fun counts hc => ?_, fun m hm hst => ?_⟩⟩
    · exact (congrArg (fun v => (Tab.get v i).raw) hsame.inputs).trans hraw
    · have honly := halone hquiet
      obtain ⟨hwhole, hlines⟩ := htaken.alone honly
      have hb : b' = b.outputCounted (decide ((s.line n).state = .planned)) := by
        have hline : t.line n = x.line n := by
          rw [honly]
          rfl
        rw [hline, htaken.line] at hb'
        exact (Option.some.inj hb').symm
      obtain ⟨hideal, hremainder, hmicro, hstoppage⟩ :=
        b.outputCounted_rest (decide ((s.line n).state = .planned))
      refine ⟨by rw [hb]; rfl, ?_, ?_, ?_, ?_, ?_, hwhole⟩ <;> rw [hb]
      · exact hideal
      · exact hremainder
      · exact hmicro
      · exact hstoppage
      · exact hlines
    · rw [ht, if_neg hp]
      exact hstations
    · have hbefore : { s with
          inputs := t.inputs
          lines := Tab.set s.lines n
            { s.line n with bank := some { b with counts := counts } } } = x := by
        rw [hsame.inputs, hrest, hc]
        simp only [Bank.outputCounted, decide_eq_true_eq]
      rw [hbefore, ht, if_pos hp]
      refine State.paced_paceEdge (i := i) hstations hclock hsettings ?_ ?_
      · rw [htaken.served, hserved]
      · rw [← hp]
        unfold State.paceSource State.stationDef State.lineDef
        rw [hsettings]
    · rw [ht, if_pos hp]
      refine ((State.paceEdge_alone ?_).2 m hm).trans (congrArg (fun v => Tab.get v m) hstations)
      rw [hstation]
      exact hst
  case pace =>
    rw [State.countingEdge_pace (s := s.withInput i changed) hrole hserved, hraised]
    have hsame := (s.withInput i sampled).paceEdge_same k
    have hpaced : s.Paced (s.withInput i sampled) ((s.withInput i sampled).paceEdge k) k :=
      State.paced_paceEdge rfl rfl rfl hserved (State.paceSource_of_role (i := i) hrole)
    have halone := State.paceEdge_alone (s := s.withInput i sampled) (k := k)
    generalize (s.withInput i sampled).paceEdge k = t at hsame hpaced halone
    have hinputs : t.inputs = Tab.set s.inputs i sampled := hsame.inputs
    refine ⟨t, rfl, ?_, hinputs, hsame.settings, hsame.clock, fun hst => ?_⟩
    · rw [hinputs]
      exact hpaced
    · obtain ⟨honly, hothers⟩ := halone hst
      refine ⟨hothers, ?_⟩
      rw [hinputs]
      exact honly

end Sys2Proof.Machine

/-! New settings of a point (R9 to R14): what SET-POINT-MODE makes of its acquisition. -/

namespace Sys2Proof.Machine

/-! ### The three effects -/

namespace PointAcq

variable {a : PointAcq} {d e : PointSettings}

/-- The effect of a debounce on a point, where it changed (R12). -/
def debounced (a : PointAcq) (d e : PointSettings) : PointAcq × Bool :=
  if e.debounce = d.debounce then (a, false) else a.newDebounce e

/-- The effect of a chatter limit on a point, where it changed (R14). -/
def limited (a : PointAcq) (d e : PointSettings) : PointAcq × Bool :=
  if e.limit = d.limit then (a, false) else a.newLimit e

/-- The effect of a mode on a point, where it changed (R9). -/
def moded (a : PointAcq) (d e : PointSettings) : PointAcq :=
  if e.mode = d.mode then a else a.newMode e

theorem reconfigure_eq (h : e.polarity = d.polarity) : a.reconfigure d e =
    (((a.debounced d e).1.limited d e).1.moded d e,
      (a.debounced d e).2 || ((a.debounced d e).1.limited d e).2) := by
  unfold reconfigure
  simp only [if_pos h]
  rfl

theorem reconfigure_inverted (h : e.polarity ≠ d.polarity) : (a.reconfigure d e).1 =
    (restarted.limited d e).1.moded d e := by
  unfold reconfigure
  simp only [if_neg h]
  rfl

/-! #### The debounce -/

theorem debounced_same (h : e.debounce = d.debounce) : a.debounced d e = (a, false) := if_pos h

theorem debounced_pending (h : a.run < e.debounce) : a.debounced d e = (a, false) := by
  unfold debounced
  split
  · rfl
  · exact if_pos h

/-- A pending level that has held as long is accepted (R12). -/
theorem debounced_accepts (hd : e.debounce ≠ d.debounce) (hr : e.debounce ≤ a.run) {level : Bool}
    (hl : a.accepted = Level.of level) :
    a.debounced d e = bump { a with accepted := Level.of (!level), run := 0 } e := by
  unfold debounced newDebounce
  rw [if_neg hd, if_neg (Nat.not_lt.mpr hr), hl, Level.value?_of]
  rfl

theorem debounced_settles (hd : e.debounce ≠ d.debounce) (hr : e.debounce ≤ a.run)
    (hu : a.accepted = .unsettled) {raw : Bool} (hraw : a.lastRaw = some raw) :
    a.debounced d e = ({ a with accepted := Level.of raw, run := 0 }, false) := by
  unfold debounced newDebounce
  rw [if_neg hd, if_neg (Nat.not_lt.mpr hr), hu, hraw]
  rfl

/-- An unsettled point gets no noisier by a debounce. -/
theorem debounced_unsettled (hu : a.accepted = .unsettled) :
    (a.debounced d e).1.noisy = a.noisy ∧ (a.debounced d e).2 = false := by
  unfold debounced newDebounce
  rw [hu]
  split
  · exact ⟨rfl, rfl⟩
  · split
    · exact ⟨rfl, rfl⟩
    · change (match a.lastRaw with | some raw => _ | none => _ : PointAcq × Bool).1.noisy = _ ∧ _
      cases a.lastRaw <;> exact ⟨rfl, rfl⟩

/-- Away from the chatter limit a debounce makes nothing noisy (R5, R12). -/
theorem debounced_quiet (h : e.debounce = d.debounce ∨ a.run < e.debounce ∨
    a.accepted = .unsettled ∨ 255 ≤ a.activity ∨ e.limit ≠ a.activity + 1) :
    (a.debounced d e).1.noisy = a.noisy ∧ (a.debounced d e).2 = false := by
  by_cases hd : e.debounce = d.debounce
  · rw [debounced_same hd]
    exact ⟨rfl, rfl⟩
  by_cases hr : a.run < e.debounce
  · rw [debounced_pending hr]
    exact ⟨rfl, rfl⟩
  obtain hu | ⟨level, hl⟩ := a.accepted_cases
  · exact debounced_unsettled hu
  have hfar : 255 ≤ a.activity ∨ e.limit ≠ a.activity + 1 := by
    rcases h with h | h | h | h
    · exact absurd h hd
    · exact absurd h hr
    · rw [hl] at h
      cases level <;> exact nomatch h
    · exact h
  rw [debounced_accepts hd (Nat.not_lt.mp hr) hl,
    bump_quiet (a := { a with accepted := Level.of (!level), run := 0 }) hfar.symm]
  exact ⟨rfl, rfl⟩

/-! #### The limit -/

theorem limited_same (h : e.limit = d.limit) : a.limited d e = (a, false) := if_pos h

theorem limited_off (h : e.limit ≠ d.limit) (hz : e.limit = 0) :
    a.limited d e = (a.clearNoisy, false) := by
  unfold limited newLimit
  rw [if_neg h, if_pos hz]

theorem limited_reached (h : e.limit ≠ d.limit) (hz : e.limit ≠ 0) (hle : e.limit ≤ a.activity) :
    a.limited d e = (a.becomeNoisy e, true) := by
  unfold limited newLimit
  rw [if_neg h, if_neg hz, if_pos hle]

theorem limited_below (hlt : a.activity < e.limit) : a.limited d e = (a, false) := by
  unfold limited newLimit
  rw [if_neg (Nat.not_le.mpr hlt), if_neg (show ¬ e.limit = 0 by omega), ite_self]

/-- A limit does not touch the level and its run. -/
theorem limited_rest (a : PointAcq) (d e : PointSettings) :
    (a.limited d e).1.accepted = a.accepted ∧ (a.limited d e).1.run = a.run ∧
      (a.limited d e).1.activity = a.activity := by
  obtain ⟨hacc, hrun, hact, -⟩ := becomeNoisy_rest a e
  unfold limited newLimit
  split
  · exact ⟨rfl, rfl, rfl⟩
  · split
    · exact ⟨rfl, rfl, rfl⟩
    · split
      · exact ⟨hacc, hrun, hact⟩
      · exact ⟨rfl, rfl, rfl⟩

/-! #### The mode -/

theorem moded_same (h : e.mode = d.mode) : a.moded d e = a := if_pos h

/-- A mode touches the held level alone. -/
theorem moded_rest (a : PointAcq) (d e : PointSettings) :
    a.moded d e = { a with held := (a.moded d e).held } := by
  unfold moded newMode
  split
  · rfl
  · split
    · split <;> rfl
    · rfl

theorem moded_released (h : e.mode ≠ d.mode) (hm : e.mode ≠ .holdOnNoise) :
    (a.moded d e).held = none := by
  unfold moded newMode
  rw [if_neg h, if_neg hm]

theorem moded_holds (h : e.mode ≠ d.mode) (hm : e.mode = .holdOnNoise) (hn : a.noisy = true)
    (hh : a.held = none) : (a.moded d e).held = a.accepted.value? := by
  unfold moded newMode
  rw [if_neg h, if_pos hm, hn, hh]
  rfl

/-- A mode leaves a point that is not noisy, and holds nothing, as it is. -/
theorem moded_quiet (hn : a.noisy = false) (hh : a.held = none) : a.moded d e = a := by
  have hnone : { a with held := none } = a := by rw [← hh]
  have hcond : (a.noisy && a.held.isNone) = false := by rw [hn, Bool.false_and]
  unfold moded newMode
  rw [hcond, if_neg Bool.false_ne_true, hnone, ite_self, ite_self]

/-! ### All three at once (R11) -/

/-- A changed polarity restarts the acquisition (R13). -/
theorem reconfigure_restarts (h : e.polarity ≠ d.polarity) :
    (a.reconfigure d e).1 = restarted := by
  rw [reconfigure_inverted h]
  have hlimited : (restarted.limited d e).1 = restarted := by
    by_cases hz : e.limit = 0
    · unfold limited newLimit
      rw [if_pos hz]
      split <;> rfl
    · rw [limited_below (a := restarted) (Nat.pos_of_ne_zero hz)]
  rw [hlimited, moded_quiet (a := restarted) rfl rfl]

/-- Settings that do not change have no effect. -/
theorem reconfigure_same (a : PointAcq) (d : PointSettings) : a.reconfigure d d = (a, false) := by
  rw [reconfigure_eq rfl, debounced_same rfl, limited_same rfl, moded_same rfl]
  rfl

/-- The level, the run and the activity are the matter of the debounce alone. -/
theorem reconfigure_level (h : e.polarity = d.polarity) :
    (a.reconfigure d e).1.accepted = (a.debounced d e).1.accepted ∧
    (a.reconfigure d e).1.run = (a.debounced d e).1.run ∧
    (a.reconfigure d e).1.activity = (a.debounced d e).1.activity := by
  obtain ⟨hacc, hrun, hact⟩ := limited_rest (a.debounced d e).1 d e
  rw [reconfigure_eq h, moded_rest]
  exact ⟨hacc, hrun, hact⟩

theorem reconfigure_noisy (h : e.polarity = d.polarity) :
    (a.reconfigure d e).1.noisy = ((a.debounced d e).1.limited d e).1.noisy := by
  rw [reconfigure_eq h, moded_rest]

theorem reconfigure_flag (h : e.polarity = d.polarity) :
    (a.reconfigure d e).2 = ((a.debounced d e).2 || ((a.debounced d e).1.limited d e).2) := by
  rw [reconfigure_eq h]

end PointAcq

end Sys2Proof.Machine

/-! SET-POINT-MODE (R9 to R14): the request. -/

namespace Sys2Proof.Machine

/-! ### The quantities taken (R11) -/

theorem Polarity.ofByte_above {b : Byte} (h : 1 < b.toNat) : Polarity.ofByte b = none := by
  refine List.find?_eq_none.mpr fun p _ => ?_
  rw [beq_iff_eq]
  rintro rfl
  cases p <;> simp [Polarity.code] at h

theorem PointMode.ofByte_above {b : Byte} (h : 3 < b.toNat) : PointMode.ofByte b = none := by
  refine List.find?_eq_none.mpr fun m _ => ?_
  rw [beq_iff_eq]
  rintro rfl
  cases m <;> simp [PointMode.code] at h

theorem Polarity.ofByte_code (p : Polarity) : Polarity.ofByte p.code = some p := by cases p <;> rfl

theorem PointMode.ofByte_code (m : PointMode) : PointMode.ofByte m.code = some m := by
  cases m <;> rfl

theorem Polarity.exists_code {b : Byte} (h : b.toNat ≤ 1) : ∃ p : Polarity, p.code = b := by
  rcases (by omega : b.toNat = 0 ∨ b.toNat = 1) with hb | hb
  · exact ⟨.normal, BitVec.eq_of_toNat_eq hb.symm⟩
  · exact ⟨.inverted, BitVec.eq_of_toNat_eq hb.symm⟩

theorem PointMode.exists_code {b : Byte} (h : b.toNat ≤ 3) : ∃ m : PointMode, m.code = b := by
  rcases (by omega : b.toNat = 0 ∨ b.toNat = 1 ∨ b.toNat = 2 ∨ b.toNat = 3) with hb | hb | hb | hb
  · exact ⟨.live, BitVec.eq_of_toNat_eq hb.symm⟩
  · exact ⟨.holdOnNoise, BitVec.eq_of_toNat_eq hb.symm⟩
  · exact ⟨.forceOn, BitVec.eq_of_toNat_eq hb.symm⟩
  · exact ⟨.forceOff, BitVec.eq_of_toNat_eq hb.symm⟩

section Request

variable {s : State} {point polarity debounce mode limit : Byte}

theorem exec_setPointMode_refused (h : s.Takes .setPointMode) {r : Refused}
    (hr : pointModeRefusal polarity mode s = some r) :
    exec (.setPointMode point polarity debounce mode limit) s =
      .next (s.owe (some ⟨0xFF, [0x22, r.reason.code, r.detail]⟩)) :=
  congrArg Host.Outcome.next (h.refused rfl hr _)

theorem exec_setPointMode_done (h : s.Takes .setPointMode)
    (hr : pointModeRefusal polarity mode s = none) {e : PointSettings}
    (he : e = pointSettingsTaken polarity debounce mode limit) {t : State}
    (ht : t = s.setPoint (pointOfByte point) e) :
    exec (.setPointMode point polarity debounce mode limit) s = .next (t.owe (some ⟨0xA2,
      [point, e.polarity.code, BitVec.ofNat 8 e.debounce, e.mode.code,
        BitVec.ofNat 8 e.limit]⟩)) := by
  refine congrArg Host.Outcome.next ((h.done rfl hr _).trans ?_)
  simp only [← he, ← ht]
  rfl

/-- The settings that a request within the enumerations carries. -/
theorem pointSettingsTaken_eq {p : Polarity} {m : PointMode} (hp : p.code = polarity)
    (hm : m.code = mode) : pointSettingsTaken polarity debounce mode limit =
      ⟨p, max 1 (min 250 debounce.toNat), m, limit.toNat⟩ := by
  subst hp hm
  unfold pointSettingsTaken
  rw [Polarity.ofByte_code, PointMode.ofByte_code]
  rfl

end Request

/-! ### The point -/

/-- What new settings make of a point whose polarity stands (R9, R12, R14); `flag` says whether the
point became noisy. -/
theorem PointAcq.reconfigure_table {a a' : PointAcq} {d e : PointSettings} {flag : Bool}
    (ha : (a', flag) = a.reconfigure d e) (hp : e.polarity = d.polarity) :
    (e.debounce ≠ d.debounce → a.run < e.debounce →
      a'.accepted = a.accepted ∧ a'.run = a.run ∧ a'.activity = a.activity) ∧
    (e.debounce ≠ d.debounce → e.debounce ≤ a.run →
      (∀ level : Bool, a.accepted = (if level then .on else .off) →
        a'.accepted = (if level then .off else .on) ∧ a'.run = 0 ∧
        a'.activity = if a.activity < 255 then a.activity + 1 else a.activity) ∧
      (∀ raw : Bool, a.accepted = .unsettled → a.lastRaw = some raw →
        a'.accepted = (if raw then .on else .off) ∧ a'.run = 0 ∧
        a'.activity = a.activity)) ∧
    (e.debounce = d.debounce → a'.accepted = a.accepted ∧ a'.run = a.run ∧
      a'.activity = a.activity ∧
      (e.limit ≠ d.limit → e.limit = 0 → a'.noisy = false) ∧
      (e.limit ≠ d.limit → e.limit ≠ 0 → e.limit ≤ a.activity →
        a'.noisy = true ∧ flag = true ∧
        (a.noisy = false → e.mode = .holdOnNoise → d.mode = .holdOnNoise →
          ∀ level : Bool, a.accepted = (if level then .on else .off) →
            a'.held = some level)) ∧
      (e.limit ≠ d.limit → a.activity < e.limit → a'.noisy = a.noisy) ∧
      (e.limit = d.limit → a'.noisy = a.noisy ∧
        (e.mode ≠ d.mode → e.mode = .holdOnNoise → a.noisy = true → a.held = none →
          ∀ level : Bool, a.accepted = (if level then .on else .off) →
            a'.held = some level))) ∧
    (e.mode ≠ d.mode → e.mode ≠ .holdOnNoise → a'.held = none) ∧
    (e.limit = d.limit → e.debounce ≠ d.debounce → e.debounce ≤ a.run →
      a.accepted ≠ .unsettled → a.activity < 255 → e.limit = a.activity + 1 →
      a'.noisy = true ∧ flag = true) ∧
    (e.limit = d.limit → (e.debounce = d.debounce ∨ a.run < e.debounce ∨
        a.accepted = .unsettled ∨ 255 ≤ a.activity ∨ e.limit ≠ a.activity + 1) →
      a'.noisy = a.noisy ∧ flag = false) ∧
    (e.debounce = d.debounce → (e.limit = 0 ∨ a.activity < e.limit) → flag = false) := by
  have hacq : a' = (a.reconfigure d e).1 := congrArg Prod.fst ha
  have hflag : flag = ((a.debounced d e).2 || ((a.debounced d e).1.limited d e).2) :=
    (congrArg Prod.snd ha).trans (reconfigure_flag hp)
  obtain ⟨hacc, hrun, hact⟩ := reconfigure_level (a := a) hp
  have hnoisy := reconfigure_noisy (a := a) hp
  rw [← hacq] at hacc hrun hact hnoisy
  have hmoded : a' = ((a.debounced d e).1.limited d e).1.moded d e := by
    rw [hacq, reconfigure_eq hp]
  have hvalue : ∀ level : Bool, a.accepted = (if level then .on else .off) →
      a.accepted.value? = some level := fun level h => by
    rw [h]
    cases level <;> rfl
  refine ⟨fun hd hlt => ?pending, fun hd hle => ⟨fun level hl => ?accepts, fun raw hu hraw => ?settles⟩,
    fun hd => ?same, fun hm hn => ?released, fun hl hd hle hs hlt hlim => ?reaches,
    fun hl hq => ?quiet, fun hd hfar => ?unlatched⟩
  case pending =>
    rw [hacc, hrun, hact, debounced_pending hlt]
    exact ⟨rfl, rfl, rfl⟩
  case accepts =>
    obtain ⟨hbacc, hbrun, hbact⟩ :=
      bump_rest { a with accepted := Level.of (!level), run := 0 } e
    rw [hacc, hrun, hact, debounced_accepts hd hle (hl.trans (Level.of_eq level).symm)]
    refine ⟨hbacc.trans ?_, hbrun, hbact⟩
    cases level <;> rfl
  case settles =>
    rw [hacc, hrun, hact, debounced_settles hd hle hu hraw]
    exact ⟨rfl, rfl, rfl⟩
  case same =>
    rw [debounced_same hd] at hacc hrun hact hnoisy hflag hmoded
    refine ⟨hacc, hrun, hact, fun hl hz => ?_, fun hl hz hle => ⟨?_, ?_, fun hn hm hm' level hlev => ?_⟩,
      fun hl hlt => ?_, fun hl => ⟨?_, fun hm hhold hn hh level hlev => ?_⟩⟩
    · rw [hnoisy, limited_off hl hz]
      rfl
    · rw [hnoisy, limited_reached hl hz hle]
      exact (becomeNoisy_rest a e).2.2.2
    · rw [hflag, limited_reached hl hz hle]
      rfl
    · rw [hmoded, limited_reached hl hz hle, moded_same (hm.trans hm'.symm),
        becomeNoisy_held hn hm, hvalue level hlev]
    · rw [hnoisy, limited_below hlt]
    · rw [hnoisy, limited_same hl]
    · rw [hmoded, limited_same hl, moded_holds hm hhold hn hh, hvalue level hlev]
  case released => rw [hmoded, moded_released hm hn]
  case reaches =>
    obtain hu | ⟨level, hlev⟩ := a.accepted_cases
    · exact absurd hu hs
    obtain ⟨hbn, hbf, -⟩ := bump_noisy
      (a := { a with accepted := Level.of (!level), run := 0 }) hlt hlim
    rw [hnoisy, hflag, limited_same hl, debounced_accepts hd hle hlev]
    exact ⟨hbn, by rw [hbf, Bool.true_or]⟩
  case quiet =>
    obtain ⟨hqn, hqf⟩ := debounced_quiet (a := a) (d := d) (e := e) hq
    rw [hnoisy, hflag, limited_same hl]
    exact ⟨hqn, by rw [hqf, Bool.false_or]⟩
  case unlatched =>
    rw [hflag, debounced_same hd]
    rcases hfar with hz | hlt
    · by_cases hl : e.limit = d.limit
      · rw [limited_same hl]; rfl
      · rw [limited_off hl hz]; rfl
    · rw [limited_below hlt]; rfl

/-! ### The state -/

/-- The state after a point's settings are written, before the stations follow. -/
def State.pointSet (s : State) (p : PointId) (d : PointSettings) : State :=
  (s.modSettings fun g => { g with points := Tab.set g.points p d }).putPoint p
    ((s.point p).reconfigure (s.pointDef p) d)

theorem State.pointSet_eq (s : State) (p : PointId) (d : PointSettings) : s.pointSet p d = { s with
    settings := { s.settings with points := Tab.set s.settings.points p d }
    points := Tab.set s.points p ((s.point p).reconfigure (s.pointDef p) d).1
    alerts := if ((s.point p).reconfigure (s.pointDef p) d).2 then s.alerts ||| 0x01
      else s.alerts } := by
  unfold State.pointSet State.putPoint State.latchIf
  cases ((s.point p).reconfigure (s.pointDef p) d).2 <;> rfl

/-- Settles O28: the refusals; and the settings, the point, the stations and the lines of a request that
is taken. -/
theorem setPointModeWritesOnePoint : Obligations.SetPointModeWritesOnePoint := by
  unfold Obligations.SetPointModeWritesOnePoint
  refine fun s point polarity debounce mode limit h => ⟨fun hp => ?_, fun hp hm => ?_,
    fun hp hm => ?_⟩
  · refine exec_setPointMode_refused (r := ⟨.malformed, 1⟩) h ?_
    rw [pointModeRefusal, Polarity.ofByte_above hp]
    rfl
  · obtain ⟨p, hcode⟩ := Polarity.exists_code hp
    refine exec_setPointMode_refused (r := ⟨.malformed, 3⟩) h ?_
    rw [pointModeRefusal, PointMode.ofByte_above hm, ← hcode, Polarity.ofByte_code]
    rfl
  · obtain ⟨pol, hpol⟩ := Polarity.exists_code hp
    obtain ⟨md, hmd⟩ := PointMode.exists_code hm
    have hnone : pointModeRefusal polarity mode s = none := by
      rw [pointModeRefusal, ← hpol, ← hmd, Polarity.ofByte_code, PointMode.ofByte_code]
      rfl
    have htaken := pointSettingsTaken_eq (debounce := debounce) (limit := limit) hpol hmd
    obtain ⟨e, he⟩ : ∃ e, e = pointSettingsTaken polarity debounce mode limit := ⟨_, rfl⟩
    rw [← he] at htaken
    obtain ⟨p, hpoint⟩ : ∃ p, p = pointOfByte point := ⟨_, rfl⟩
    obtain ⟨t, ht⟩ : ∃ t, t = s.setPoint p e := ⟨_, rfl⟩
    have hexec := exec_setPointMode_done (point := point) h hnone he (hpoint ▸ ht)
    have hsettle : t = State.settlePoints s (s.pointSet p e) := ht
    have hset := s.pointSet_eq p e
    have hsame := State.settlePoints_same s (s.pointSet p e)
    obtain ⟨hqueue, -, hlink⟩ := State.settlePoints_books s (s.pointSet p e)
    have hlatch := State.latched_settlePoints (a := .pointNoisy) (by decide) s (s.pointSet p e)
    obtain ⟨a', ha'⟩ : ∃ a', a' = ((s.point p).reconfigure (s.pointDef p) e).1 := ⟨_, rfl⟩
    obtain ⟨flag, hflag⟩ : ∃ flag, flag = ((s.point p).reconfigure (s.pointDef p) e).2 := ⟨_, rfl⟩
    obtain ⟨u, hu, hmove, htakes⟩ := State.settlePoints_moves s (s.pointSet p e)
      (by rw [hset]) (by rw [hset]) (by rw [hset]) (by rw [hset]) (by rw [hset])
    rw [← hsettle] at htakes hsame hqueue hlink hlatch
    rw [hset, ← ha', ← hflag] at hsame hqueue hlink hlatch hu
    rw [hexec, ← hpoint]
    clear hexec ht hsettle hset
    have halerts : u.alerts = if flag then s.alerts ||| 0x01 else s.alerts :=
      congrArg State.alerts hu
    have hown : t.point p = a' :=
      (congrArg (fun v => Tab.get v p) hsame.points).trans (Tab.get_set_same _ _ _)
    have hdef : t.pointDef p = e :=
      (congrArg (fun g => Tab.get (Settings.points g) p) hsame.settings).trans
        (Tab.get_set_same _ _ _)
    have hnoisy : flag = true → t.latched .pointNoisy = true := fun hf => by
      rw [hlatch]
      refine State.latched_or_pointNoisy _ s.alerts ?_
      rw [hf]
      rfl
    have hplain : flag = false → t.latched .pointNoisy = s.latched .pointNoisy := fun hf => by
      rw [hlatch]
      refine State.latched_congr ?_
      rw [hf]
      rfl
    refine ⟨_, u, rfl, ?_, ?_, hmove, ?_, ?_, ?_, ?_, ?_, fun hp => ?_, fun hd => ?_,
      fun d e' a a'' hd he' ha ha'' hpol' => ?_, fun q hq => ⟨?_, ?_⟩, ?_⟩
    · have hsettings := hsame.settings
      have hpoints := hsame.points
      rw [show ∀ r, (t.owe r).settings = t.settings from fun _ => rfl,
        show ∀ r, (t.owe r).points = t.points from fun _ => rfl, hsettings, hpoints, halerts]
      exact hu
    · rw [halerts]
      cases flag with
      | true => exact .inr rfl
      | false => exact .inl rfl
    · have hkept : ∀ r, { t.owe r with link := s.link } = t := fun r => by
        rw [← show t.link = s.link from hlink]
        rfl
      rw [hkept]
      exact htakes
    · refine (congrArg (fun d => d.polarity.code) hdef).trans ?_
      rw [htaken]
      exact hpol
    · exact (congrArg PointSettings.debounce hdef).trans (by rw [htaken])
    · refine (congrArg (fun d => d.mode.code) hdef).trans ?_
      rw [htaken]
      exact hmd
    · exact (congrArg PointSettings.limit hdef).trans (by rw [htaken])
    · have hrestarted : t.point p = PointAcq.restarted := by
        rw [hown, ha']
        refine PointAcq.reconfigure_restarts fun heq => hp ?_
        rw [← heq, htaken]
        exact hpol
      refine ⟨congrArg PointAcq.accepted hrestarted, congrArg PointAcq.run hrestarted,
        congrArg PointAcq.activity hrestarted, congrArg PointAcq.noisy hrestarted,
        congrArg PointAcq.held hrestarted⟩
    · refine hown.trans ?_
      rw [ha', ← hdef.symm.trans hd, PointAcq.reconfigure_same]
    · subst hd ha
      rw [show e' = e from he'.trans hdef] at hpol' ⊢
      rw [show a'' = a' from ha''.trans hown]
      obtain ⟨hpending, haccepts, hsame', hreleased, hreaches, hquiet, hunlatched⟩ :=
        PointAcq.reconfigure_table (a := s.point p) (a' := a') (flag := flag) (by rw [ha', hflag]) hpol'
      refine ⟨hpending, haccepts, fun hd => ?_, hreleased, fun h1 h2 h3 h4 h5 h6 => ?_,
        fun h1 h2 => ?_, fun h1 h2 => hplain (hunlatched h1 h2)⟩
      · obtain ⟨hacc, hrun, hact, hoff, hover, hunder, hlimit⟩ := hsame' hd
        refine ⟨hacc, hrun, hact, hoff, fun h1 h2 h3 => ?_, hunder, hlimit⟩
        obtain ⟨hn, hf, hh⟩ := hover h1 h2 h3
        exact ⟨hn, hnoisy hf, hh⟩
      · obtain ⟨hn, hf⟩ := hreaches h1 h2 h3 h4 h5 h6
        exact ⟨hn, hnoisy hf⟩
      · obtain ⟨hn, hf⟩ := hquiet h1 h2
        exact ⟨hn, hplain hf⟩
    · exact (congrArg (fun g => Tab.get (Settings.points g) q) hsame.settings).trans
        (Tab.get_set_ne _ hq _)
    · exact (congrArg (fun v => Tab.get v q) hsame.points).trans (Tab.get_set_ne _ hq _)
    · refine ⟨(congrArg Settings.stations hsame.settings :), (congrArg Settings.lines hsame.settings :),
        (congrArg Settings.inputs hsame.settings :), (congrArg Settings.causes hsame.settings :),
        hsame.inputs, hsame.installed, hsame.clock, hsame.archive, hqueue, hsame.guardMode,
        hsame.power, ?_⟩
      rw [show s.link = t.link from hlink.symm, htaken, ← hpol, ← hmd]
      have hbyte : BitVec.ofNat 8 limit.toNat = limit := by simp
      rw [hbyte]
      rfl

end Sys2Proof.Machine

/-! New settings of a count input (R31, R32): what SET-COUNT-INPUT makes of the input, step by step. -/

namespace Sys2Proof.Machine

/-! ### An edge that is handed on -/

/-- What handing an edge on leaves alone: of the inputs, it changes the window queues only. -/
structure State.Handed (u t : State) : Prop where
  settings : t.settings = u.settings
  points : t.points = u.points
  installed : t.installed = u.installed
  awaitsFrame : t.awaitsFrame = u.awaitsFrame
  clock : t.clock = u.clock
  link : t.link = u.link
  inputs : ∀ j, t.input j = { u.input j with windows := (t.input j).windows }

namespace State.Handed

variable {s t u : State}

theorem refl (s : State) : s.Handed s := ⟨rfl, rfl, rfl, rfl, rfl, rfl, fun _ => rfl⟩

theorem trans (h : s.Handed t) (g : t.Handed u) : s.Handed u where
  settings := g.settings.trans h.settings
  points := g.points.trans h.points
  installed := g.installed.trans h.installed
  awaitsFrame := g.awaitsFrame.trans h.awaitsFrame
  clock := g.clock.trans h.clock
  link := g.link.trans h.link
  inputs := fun j => by conv_lhs => rw [g.inputs j, h.inputs j]

theorem of_windows (h : s.OnlyWindows t) : s.Handed t := by
  have honly := h.only
  exact ⟨by rw [honly], by rw [honly], by rw [honly], by rw [honly], by rw [honly], by rw [honly],
    h.kept⟩

theorem paceEdge (s : State) (k : StationId) : s.Handed (s.paceEdge k) := by
  have hsame := s.paceEdge_same k
  refine ⟨hsame.settings, hsame.points, hsame.installed, hsame.awaitsFrame, hsame.clock, ?_,
    fun j => ?_⟩
  · by_cases hst : (s.station k).state = .stalled
    · have hedge : s.paceEdge k = State.settleLines s
          ((s.modTally k fun y => { y with pace := saturate (y.pace + 1) }).changeStation k
            .running) := by
        unfold State.paceEdge
        simp only [hst]
      rw [hedge, State.settleLines_link]
      rfl
    · rw [(State.paceEdge_alone hst).1]
  · rw [show (s.paceEdge k).input j = s.input j from
      congrArg (fun v => Tab.get v j) hsame.inputs]

theorem countReject (s : State) (n : LineId) (stray : Bool) : s.Handed (s.countReject n stray) := by
  unfold State.countReject
  split
  · exact .refl s
  · exact ⟨rfl, rfl, rfl, rfl, rfl, rfl, fun _ => rfl⟩

theorem rejectEdge (s : State) (i : InputId) (n : LineId) : s.Handed (s.rejectEdge i n) := by
  unfold State.rejectEdge
  split
  · exact .countReject s n false
  · split
    · exact .refl s
    · split
      next rest _ =>
        refine State.Handed.trans (t := s.modInput i fun a => { a with windows := rest })
          ⟨rfl, rfl, rfl, rfl, rfl, rfl, fun j => ?_⟩ (.countReject _ n false)
        by_cases hj : j = i
        · rw [hj, State.input_modInput_same]
        · rw [State.input_modInput_ne s hj]
      next => exact .countReject s n true

theorem outputEdge (s : State) (i : InputId) (n : LineId) : s.Handed (s.outputEdge i n) := by
  have hcounted : s.Handed (s.outputCounted n) :=
    State.Handed.trans (t := s.countOutput n) ⟨rfl, rfl, rfl, rfl, rfl, rfl, fun _ => rfl⟩
      (.of_windows (State.openWindows_onlyWindows _ n))
  cases hk : (s.lineDef n).constraint with
  | some k =>
    rw [State.outputEdge_eq hk]
    split
    · exact hcounted.trans (.paceEdge _ k)
    · exact hcounted
  | none =>
    have hconstraint : ((s.outputCounted n).lineDef n).constraint = none := by
      rw [State.lineDef_of_settings hcounted.settings, hk]
    unfold State.outputEdge
    change s.Handed (match ((s.outputCounted n).lineDef n).constraint with
      | some k => _
      | none => _)
    simp only [hconstraint]
    exact hcounted

/-- A counting edge raises the raw counter, and is handed on. -/
theorem countingEdge (s : State) (i : InputId) : (s.rawRaised i).Handed (s.countingEdge i) := by
  change (s.rawRaised i).Handed (match (s.rawRaised i).roleOf i with
    | .none => s.rawRaised i
    | .output n => if (s.rawRaised i).inService n then (s.rawRaised i).outputEdge i n
      else s.rawRaised i
    | .reject n => if (s.rawRaised i).inService n then (s.rawRaised i).rejectEdge i n
      else s.rawRaised i
    | .pace k => if (s.rawRaised i).stationServed k then (s.rawRaised i).paceEdge k
      else s.rawRaised i)
  generalize s.rawRaised i = u
  split
  · exact .refl u
  · split
    · exact .outputEdge u i _
    · exact .refl u
  · split
    · exact .rejectEdge u i _
    · exact .refl u
  · split
    · exact .paceEdge u _
    · exact .refl u

end State.Handed

/-! ### The debounce (R31) -/

section Debounce

variable {s : State} {i : InputId}

/-- A run that has not lasted, or an input that has no sample, stays as it is. -/
theorem InputAcq.newDebounce_pending {a : InputAcq} {e : InputSettings} (h : a.run < e.debounce) :
    a.newDebounce e = ⟨a, false, none⟩ := if_pos h

theorem InputAcq.newDebounce_settles {a : InputAcq} {e : InputSettings} (h : e.debounce ≤ a.run)
    (hu : a.accepted = .unsettled) {raw : Bool} (hraw : a.lastSample = some raw) :
    a.newDebounce e = ⟨{ a with accepted := Level.of raw, run := 0 }, false, none⟩ := by
  unfold InputAcq.newDebounce
  rw [if_neg (Nat.not_lt.mpr h), hu, hraw]
  rfl

theorem InputAcq.newDebounce_unsampled {a : InputAcq} {e : InputSettings}
    (hu : a.accepted = .unsettled) (hraw : a.lastSample = none) :
    a.newDebounce e = ⟨a, false, none⟩ := by
  unfold InputAcq.newDebounce
  rw [hu, hraw, show Level.value? .unsettled = none from rfl, ite_self]

theorem InputAcq.newDebounce_accepts {a : InputAcq} {e : InputSettings} (h : e.debounce ≤ a.run)
    {level : Bool} (hl : a.accepted = Level.of level) : a.newDebounce e =
      ⟨{ a with accepted := Level.of (!level), run := 0 }, false, some (!level)⟩ := by
  unfold InputAcq.newDebounce
  rw [if_neg (Nat.not_lt.mpr h), hl, Level.value?_of]

theorem InputAcq.accepted_cases (a : InputAcq) :
    a.accepted = .unsettled ∨ ∃ level, a.accepted = Level.of level := by
  cases a.accepted with
  | unsettled => exact .inl rfl
  | on => exact .inr ⟨true, rfl⟩
  | off => exact .inr ⟨false, rfl⟩

theorem State.withInput_self (s : State) (i : InputId) : s.withInput i (s.input i) = s := by
  unfold State.withInput State.input
  rw [Tab.set_get]

theorem State.withInput_withInput (s : State) (i : InputId) (a b : InputAcq) :
    (s.withInput i a).withInput i b = s.withInput i b := by
  unfold State.withInput
  rw [Tab.set_set]

/-- The state `u` after the debounce of input `i` took effect where it is not the `same`, the settings
of the input being written in `s`. -/
structure State.Debounced (s u : State) (i : InputId) (same : Bool) : Prop where
  handed : ∃ a, u.settings = s.settings ∧ (s.withInput i a).Handed u ∧
    a = { s.input i with accepted := a.accepted, run := a.run, raw := a.raw }
  pending : (same = true ∨ (s.input i).run < (s.inputDef i).debounce) → u = s
  settles : ∀ raw : Bool, same = false → (s.inputDef i).debounce ≤ (s.input i).run →
    (s.input i).accepted = .unsettled → (s.input i).lastSample = some raw →
    u = s.withInput i { s.input i with accepted := Level.of raw, run := 0 }
  accepts : ∀ level : Bool, same = false → (s.inputDef i).debounce ≤ (s.input i).run →
    (s.input i).accepted = Level.of level →
    u = if (s.inputDef i).edge.counts (!level) then
        (s.withInput i { s.input i with accepted := Level.of (!level), run := 0 }).countingEdge i
      else s.withInput i { s.input i with accepted := Level.of (!level), run := 0 }
  unsampled : (s.input i).accepted = .unsettled → (s.input i).lastSample = none → u = s

/-- The state after a debounce, changed or not. -/
def State.debounce (s : State) (i : InputId) (same : Bool) : State :=
  if same then s else s.changeInputDebounce i

theorem State.debounced (s : State) (i : InputId) (same : Bool) :
    s.Debounced (s.debounce i same) i same := by
  have hplain : ∀ a, s.putSample i ⟨a, false, none⟩ = s.withInput i a := s.putSample_plain i
  have hpending : (same = true ∨ (s.input i).run < (s.inputDef i).debounce) →
      s.debounce i same = s := fun h => by
    unfold State.debounce State.changeInputDebounce
    cases same with
    | true => rfl
    | false =>
      rw [InputAcq.newDebounce_pending (h.resolve_left Bool.false_ne_true), hplain,
        State.withInput_self]
      rfl
  have hsettles : ∀ raw : Bool, same = false → (s.inputDef i).debounce ≤ (s.input i).run →
      (s.input i).accepted = .unsettled → (s.input i).lastSample = some raw →
      s.debounce i same = s.withInput i { s.input i with accepted := Level.of raw, run := 0 } :=
    fun raw hsame hle hu hraw => by
      subst hsame
      unfold State.debounce State.changeInputDebounce
      rw [if_neg Bool.false_ne_true, InputAcq.newDebounce_settles hle hu hraw, hplain]
  have hunsampled : (s.input i).accepted = .unsettled → (s.input i).lastSample = none →
      s.debounce i same = s := fun hu hraw => by
    unfold State.debounce State.changeInputDebounce
    rw [InputAcq.newDebounce_unsampled hu hraw, hplain, State.withInput_self, ite_self]
  have haccepts : ∀ level : Bool, same = false → (s.inputDef i).debounce ≤ (s.input i).run →
      (s.input i).accepted = Level.of level →
      s.debounce i same = if (s.inputDef i).edge.counts (!level) then
          (s.withInput i { s.input i with accepted := Level.of (!level), run := 0 }).countingEdge i
        else s.withInput i { s.input i with accepted := Level.of (!level), run := 0 } :=
    fun level hsame hle hl => by
      subst hsame
      unfold State.debounce State.changeInputDebounce
      rw [if_neg Bool.false_ne_true, InputAcq.newDebounce_accepts hle hl]
      rfl
  refine ⟨?_, hpending, hsettles, haccepts, hunsampled⟩
  have hkept : s.debounce i same = s → ∃ a, (s.debounce i same).settings = s.settings ∧
      (s.withInput i a).Handed (s.debounce i same) ∧
      a = { s.input i with accepted := a.accepted, run := a.run, raw := a.raw } := fun h => by
    rw [h]
    refine ⟨s.input i, rfl, ?_, rfl⟩
    rw [State.withInput_self]
    exact .refl s
  by_cases hp : same = true ∨ (s.input i).run < (s.inputDef i).debounce
  · exact hkept (hpending hp)
  obtain ⟨hdiffers, hlasts⟩ := not_or.mp hp
  have hsame : same = false := Bool.eq_false_iff.mpr hdiffers
  have hle := Nat.not_lt.mp hlasts
  obtain hu | ⟨level, hl⟩ := (s.input i).accepted_cases
  · cases hraw : (s.input i).lastSample with
    | none => exact hkept (hunsampled hu hraw)
    | some raw =>
      rw [hsettles raw hsame hle hu hraw]
      exact ⟨_, rfl, .refl _, rfl⟩
  · rw [haccepts level hsame hle hl]
    split
    · have hhanded := State.Handed.countingEdge
        (s.withInput i { s.input i with accepted := Level.of (!level), run := 0 }) i
      rw [State.rawRaised_withInput] at hhanded
      exact ⟨_, hhanded.settings, hhanded, rfl⟩
    · exact ⟨_, rfl, .refl _, rfl⟩

end Debounce

end Sys2Proof.Machine

/-! SET-COUNT-INPUT and SET-SLOTS (R30 to R33). -/

namespace Sys2Proof.Machine

/-! ### The glitch limit and the qualification (R31, R32) -/

section Limit

variable {s : State} {i : InputId}

/-- The state after a glitch limit, changed or not. -/
def State.limitInput (s : State) (i : InputId) (same : Bool) : State :=
  if same then s else s.changeInputLimit i

/-- The state `v` after the glitch limit of input `i` took effect where it is not the `same`. -/
structure State.LimitedInput (s v : State) (i : InputId) (same : Bool) : Prop where
  rest : v = { s with
    inputs := Tab.set s.inputs i { s.input i with noisy := (v.input i).noisy }
    lines := v.lines
    alerts := v.alerts }
  quiet : (same = true ∨ (s.inputDef i).limit = 0 ∨ (s.input i).glitches < (s.inputDef i).limit) →
    v.lines = s.lines ∧ v.alerts = s.alerts
  cleared : same = false → (s.inputDef i).limit = 0 → (v.input i).noisy = false
  kept : (same = true ∨ (s.input i).glitches < (s.inputDef i).limit) →
    (v.input i).noisy = (s.input i).noisy
  reached : same = false → (s.inputDef i).limit ≠ 0 →
    (s.inputDef i).limit ≤ (s.input i).glitches →
    (v.input i).noisy = true ∧ v.alerts = s.alerts ||| 0x02 ∧
    ((s.servedLine i = none ∨ (s.input i).noisy = true) → v.lines = s.lines) ∧
    ∀ n, s.servedLine i = some n → (s.input i).noisy = false →
      v.lines = Tab.set s.lines n { s.line n with
        bank := (s.line n).bank.map fun b => { b with countNoisy := true } }

/-- A record that differs in its noisy flag at most, put in its place. -/
theorem State.withInput_noisy (s : State) (i : InputId) (noisy : Bool) :
    s.withInput i { s.input i with noisy } = { s with
      inputs := Tab.set s.inputs i { s.input i with
        noisy := ((s.withInput i { s.input i with noisy }).input i).noisy } } := by
  rw [State.input_withInput_same]
  rfl

theorem State.limitedInput (s : State) (i : InputId) (same : Bool) :
    s.LimitedInput (s.limitInput i same) i same := by
  have hself : s = { s with inputs := Tab.set s.inputs i { s.input i with
      noisy := (s.input i).noisy } } := (s.withInput_self i).symm
  cases same with
  | true =>
    exact ⟨hself, fun _ => ⟨rfl, rfl⟩, (fun h => nomatch h), fun _ => rfl, (fun h => nomatch h)⟩
  | false =>
    have hlimit : s.limitInput i false = s.changeInputLimit i := rfl
    unfold State.changeInputLimit at hlimit
    by_cases hz : (s.inputDef i).limit = 0
    · have hnew : (s.input i).newLimit (s.inputDef i) = ({ s.input i with noisy := false }, false) :=
        if_pos hz
      rw [hnew] at hlimit
      have hput : s.limitInput i false = s.withInput i { s.input i with noisy := false } := hlimit
      rw [hput]
      refine ⟨s.withInput_noisy i false, fun _ => ⟨rfl, rfl⟩, fun _ _ => ?_, fun h => ?_,
        fun _ h => absurd hz h⟩
      · rw [State.input_withInput_same]
      · rcases h with h | h
        · exact nomatch h
        · omega
    · by_cases hle : (s.inputDef i).limit ≤ (s.input i).glitches
      · have hnew : (s.input i).newLimit (s.inputDef i) = ({ s.input i with noisy := true }, true) :=
          (if_neg hz).trans (if_pos hle)
        rw [hnew] at hlimit
        have hput : s.limitInput i false =
            (s.withInput i { s.input i with noisy := true }).handNoisy i (s.input i).noisy := hlimit
        obtain ⟨lines, heq, hquiet, hmark⟩ := State.handNoisy_spec
          (s.withInput i { s.input i with noisy := true }) i (s.input i).noisy
        rw [hput, heq]
        have hnoisy : ((s.withInput i { s.input i with noisy := true }).input i).noisy = true := by
          rw [State.input_withInput_same]
        refine ⟨?_, fun h => ?_, fun _ h => absurd h hz, fun h => ?_, fun _ _ _ => ⟨hnoisy, rfl,
          hquiet, hmark⟩⟩
        · refine congrArg (fun u : State => { u with alerts := s.alerts ||| 0x02, lines := lines })
            (s.withInput_noisy i true)
        · rcases h with h | h | h
          · exact nomatch h
          · exact absurd h hz
          · omega
        · rcases h with h | h
          · exact nomatch h
          · omega
      · have hnew : (s.input i).newLimit (s.inputDef i) = (s.input i, false) :=
          (if_neg hz).trans (if_neg hle)
        rw [hnew] at hlimit
        have hput : s.limitInput i false = s.withInput i (s.input i) := hlimit
        rw [hput, State.withInput_self]
        exact ⟨hself, fun _ => ⟨rfl, rfl⟩, fun _ h => absurd h hz, fun _ => rfl,
          fun _ _ h => absurd h hle⟩

/-- The state after a qualification, changed or not. -/
def State.qualifyInput (s : State) (i : InputId) (same : Bool) : State :=
  if same then s else s.modInput i fun a => { a with windows := [] }

theorem State.qualifyInput_eq (s : State) (i : InputId) (same : Bool) :
    s.qualifyInput i same = s.withInput i { s.input i with
      windows := if same then (s.input i).windows else [] } := by
  cases same with
  | true => exact (s.withInput_self i).symm
  | false => rfl

theorem State.setInput_eq (s : State) (i : InputId) (e : InputSettings) : s.setInput i e =
    (((s.modSettings fun g => { g with inputs := Tab.set g.inputs i e }).debounce i
      (decide (e.debounce = (s.inputDef i).debounce))).limitInput i
        (decide (e.limit = (s.inputDef i).limit))).qualifyInput i
          (decide (e.qual = (s.inputDef i).qual)) := by
  have hite : ∀ {α : Type} (c : Prop) [Decidable c] (x y : α),
      (if c then x else y) = if decide c then x else y := fun c _ x y => by
    by_cases hc : c <;> simp [hc]
  unfold State.setInput State.qualifyInput State.limitInput State.debounce
  dsimp only
  rw [hite (e.debounce = _), hite (e.limit = _), hite (e.qual = _)]

end Limit

end Sys2Proof.Machine

/-! SET-COUNT-INPUT and SET-SLOTS (R30 to R33): the requests. -/

namespace Sys2Proof.Machine

/-! ### The three effects together (R31, R32) -/

/-- The settings of an input are written. -/
def State.inputDefined (s : State) (i : InputId) (e : InputSettings) : State :=
  s.modSettings fun g => { g with inputs := Tab.set g.inputs i e }

/-- The states `u`, `v` and `t` after the debounce, the limit and the qualification. -/
structure State.InputSteps (s u v t : State) (i : InputId) (e : InputSettings) : Prop where
  debounced : (s.inputDefined i e).Debounced u i (decide (e.debounce = (s.inputDef i).debounce))
  limited : u.LimitedInput v i (decide (e.limit = (s.inputDef i).limit))
  qualified : t = v.withInput i { v.input i with
    windows := if e.qual = (s.inputDef i).qual then (v.input i).windows else [] }

theorem State.inputSteps (s : State) (i : InputId) (e : InputSettings) :
    ∃ u v, s.InputSteps u v (s.setInput i e) i e := by
  refine ⟨_, _, State.debounced _ i _, State.limitedInput _ i _, ?_⟩
  rw [State.setInput_eq, State.qualifyInput_eq]
  simp only [decide_eq_true_eq]
  rfl

theorem State.inputDef_inputDefined (s : State) (i : InputId) (e : InputSettings) :
    (s.inputDefined i e).inputDef i = e := Tab.get_set_same s.settings.inputs i e

namespace State.InputSteps

variable {s u v t : State} {i : InputId} {e : InputSettings} (h : s.InputSteps u v t i e)
include h

/-- The settings, and what no step touches. -/
theorem rest : t.settings = { s.settings with inputs := Tab.set s.settings.inputs i e } ∧
    t.points = s.points ∧ t.installed = s.installed ∧ t.awaitsFrame = s.awaitsFrame ∧
    t.clock = s.clock ∧ t.link = s.link ∧
    ∀ j, j ≠ i → t.input j = { s.input j with windows := (t.input j).windows } := by
  obtain ⟨a, -, hhanded, -⟩ := h.debounced.handed
  have hrest := h.limited.rest
  have hqualified := h.qualified
  have hinputs : ∀ j, j ≠ i → t.input j = u.input j := fun j hj => by
    have hv : v.input j = u.input j := by
      rw [hrest]
      exact Tab.get_set_ne _ hj _
    rw [hqualified, State.input_withInput_ne v hj, hv]
  refine ⟨?_, ?_, ?_, ?_, ?_, ?_, fun j hj => ?_⟩
  · rw [hqualified, hrest]
    exact hhanded.settings
  · rw [hqualified, hrest]
    exact hhanded.points
  · rw [hqualified, hrest]
    exact hhanded.installed
  · rw [hqualified, hrest]
    exact hhanded.awaitsFrame
  · rw [hqualified, hrest]
    exact hhanded.clock
  · rw [hqualified, hrest]
    exact hhanded.link
  · have hkept := hhanded.inputs j
    rw [State.input_withInput_ne _ hj] at hkept
    rw [hinputs j hj]
    exact hkept

theorem inputDef : t.inputDef i = e :=
  (congrArg (fun g => Tab.get (Settings.inputs g) i) h.rest.1).trans (Tab.get_set_same _ _ _)

theorem inputDef_first : u.inputDef i = e := by
  obtain ⟨a, hsettings, -, -⟩ := h.debounced.handed
  exact (congrArg (fun g => Tab.get (Settings.inputs g) i) hsettings).trans
    (s.inputDef_inputDefined i e)

/-- The record after the limit is that after the debounce but for the noisy flag. -/
theorem limited_input : v.input i = { u.input i with noisy := (v.input i).noisy } := by
  conv_lhs => rw [h.limited.rest]
  exact Tab.get_set_same _ _ _

/-- The record after the qualification is that after the limit but for the windows. -/
theorem input : t.input i = { v.input i with
    windows := if e.qual = (s.inputDef i).qual then (v.input i).windows else [] } := by
  rw [h.qualified, State.input_withInput_same]

/-- The records after the qualification and the debounce. -/
theorem input_first : (t.input i).accepted = (u.input i).accepted ∧
    (t.input i).run = (u.input i).run ∧ (t.input i).raw = (u.input i).raw ∧
    (t.input i).noisy = (v.input i).noisy := by
  have hv := h.limited_input
  rw [h.input]
  exact ⟨(congrArg InputAcq.accepted hv :), (congrArg InputAcq.run hv :),
    (congrArg InputAcq.raw hv :), rfl⟩

/-- What no step changes in the record. -/
theorem first : (u.input i).glitches = (s.input i).glitches ∧
    (u.input i).lastSample = (s.input i).lastSample ∧ (u.input i).noisy = (s.input i).noisy := by
  obtain ⟨a, -, hhanded, ha⟩ := h.debounced.handed
  have hu := hhanded.inputs i
  rw [State.input_withInput_same] at hu
  rw [hu, ha]
  exact ⟨rfl, rfl, rfl⟩

theorem kept : (t.input i).glitches = (s.input i).glitches ∧
    (t.input i).lastSample = (s.input i).lastSample := by
  obtain ⟨hglitches, hlast, -⟩ := h.first
  have hv := h.limited_input
  rw [h.input]
  exact ⟨(congrArg InputAcq.glitches hv).trans hglitches,
    (congrArg InputAcq.lastSample hv).trans hlast⟩

theorem unqualified (hq : e.qual ≠ (s.inputDef i).qual) : (t.input i).windows = [] := by
  rw [h.input]
  exact if_neg hq

theorem cleared (hl : e.limit ≠ (s.inputDef i).limit) (hz : e.limit = 0) :
    (t.input i).noisy = false := by
  rw [h.input_first.2.2.2]
  exact h.limited.cleared (decide_eq_false hl) (by rw [h.inputDef_first, hz])

theorem reached (hl : e.limit ≠ (s.inputDef i).limit) (hz : e.limit ≠ 0)
    (hle : e.limit ≤ (s.input i).glitches) :
    (t.input i).noisy = true ∧ t.latched .countNoisy = true := by
  obtain ⟨hnoisy, halerts, -, -⟩ := h.limited.reached (decide_eq_false hl)
    (by rw [h.inputDef_first]; exact hz) (by rw [h.inputDef_first, h.first.1]; exact hle)
  refine ⟨h.input_first.2.2.2.trans hnoisy, ?_⟩
  have hlatched : ∀ x : BitVec 8, decide ((x ||| 0x02) &&& Alert.bit .countNoisy ≠ 0) = true := by
    decide
  have ht : t.alerts = v.alerts := by
    rw [h.qualified]
    rfl
  unfold State.latched
  rw [ht, halerts]
  exact hlatched _

theorem noisy_kept (hl : e.limit = (s.inputDef i).limit ∨ (s.input i).glitches < e.limit) :
    (t.input i).noisy = (s.input i).noisy := by
  rw [h.input_first.2.2.2, ← h.first.2.2]
  refine h.limited.kept (hl.imp (fun heq => decide_eq_true heq) fun hlt => ?_)
  rw [h.inputDef_first, h.first.1]
  exact hlt

theorem pending (hd : e.debounce = (s.inputDef i).debounce ∨ (s.input i).run < e.debounce) :
    u = s.inputDefined i e := by
  refine h.debounced.pending (hd.imp (fun heq => decide_eq_true heq) fun hlt => ?_)
  rw [s.inputDef_inputDefined]
  exact hlt

theorem pending_level (hd : e.debounce = (s.inputDef i).debounce ∨ (s.input i).run < e.debounce) :
    (t.input i).accepted = (s.input i).accepted ∧ (t.input i).run = (s.input i).run := by
  obtain ⟨hacc, hrun, -, -⟩ := h.input_first
  rw [hacc, hrun, h.pending hd]
  exact ⟨rfl, rfl⟩

theorem settles {raw : Bool} (hd : e.debounce ≠ (s.inputDef i).debounce)
    (hle : e.debounce ≤ (s.input i).run) (hu : (s.input i).accepted = .unsettled)
    (hraw : (s.input i).lastSample = some raw) : u = (s.inputDefined i e).withInput i
      { s.input i with accepted := if raw then .on else .off, run := 0 } :=
  h.debounced.settles raw (decide_eq_false hd) (by rw [s.inputDef_inputDefined]; exact hle) hu hraw

theorem accepts {level : Bool} (hd : e.debounce ≠ (s.inputDef i).debounce)
    (hle : e.debounce ≤ (s.input i).run)
    (hl : (s.input i).accepted = if level then .on else .off) :
    u = if e.edge.counts (!level) then
        ((s.inputDefined i e).withInput i { s.input i with
          accepted := if level then .off else .on, run := 0 }).countingEdge i
      else (s.inputDefined i e).withInput i { s.input i with
        accepted := if level then .off else .on, run := 0 } := by
  have hflip : Level.of (!level) = if level then .off else .on := by cases level <;> rfl
  have hu := h.debounced.accepts level (decide_eq_false hd)
    (by rw [s.inputDef_inputDefined]; exact hle) (hl.trans (Level.of_eq level).symm)
  rw [s.inputDef_inputDefined, hflip] at hu
  exact hu

/-- A level that is accepted, and counted where it goes with the edge setting (R31). -/
theorem accepts_level {level : Bool} (hd : e.debounce ≠ (s.inputDef i).debounce)
    (hle : e.debounce ≤ (s.input i).run)
    (hl : (s.input i).accepted = if level then .on else .off) :
    (t.input i).accepted = (if level then .off else .on) ∧ (t.input i).run = 0 ∧
    (e.edge = (if level then .trailing else .leading) →
      (t.input i).raw = (s.input i).raw + 1) := by
  obtain ⟨hacc, hrun, hraw, -⟩ := h.input_first
  have hu := h.accepts hd hle hl
  have hhanded := (State.Handed.countingEdge ((s.inputDefined i e).withInput i { s.input i with
    accepted := if level then .off else .on, run := 0 }) i).inputs i
  rw [State.rawRaised_withInput, State.input_withInput_same] at hhanded
  rw [hacc, hrun, hraw, hu]
  cases hc : e.edge.counts (!level) with
  | true =>
    rw [if_pos rfl, hhanded]
    exact ⟨rfl, rfl, fun _ => rfl⟩
  | false =>
    rw [if_neg Bool.false_ne_true, State.input_withInput_same]
    refine ⟨rfl, rfl, fun hedge => ?_⟩
    rw [hedge] at hc
    cases level <;> exact nomatch hc

/-- Where neither the limit nor the qualification changes, the debounce is all. -/
theorem alone (hl : e.limit = (s.inputDef i).limit) (hq : e.qual = (s.inputDef i).qual) :
    t = u := by
  have hkept := h.limited.kept (.inl (decide_eq_true hl))
  obtain ⟨hlines, halerts⟩ := h.limited.quiet (.inl (decide_eq_true hl))
  have hv : v = u := by
    have hrest := h.limited.rest
    rw [hkept, hlines, halerts] at hrest
    exact hrest.trans (u.withInput_self i)
  rw [h.qualified, if_pos hq]
  exact (v.withInput_self i).trans hv

/-- Where the debounce counts no edge, it changes the level and the run alone. -/
theorem quiet (hd : e.debounce = (s.inputDef i).debounce ∨ (s.input i).run < e.debounce ∨
    (s.input i).accepted = .unsettled ∨
    (s.input i).accepted = if e.edge = .leading then .on else .off) :
    ∃ accepted run, u = (s.inputDefined i e).withInput i { s.input i with accepted, run } := by
  have hself : ∀ w : State, w = s.inputDefined i e → ∃ accepted run,
      w = (s.inputDefined i e).withInput i { s.input i with accepted, run } := fun w hw =>
    ⟨(s.input i).accepted, (s.input i).run, hw.trans ((s.inputDefined i e).withInput_self i).symm⟩
  by_cases hp : e.debounce = (s.inputDef i).debounce ∨ (s.input i).run < e.debounce
  · exact hself u (h.pending hp)
  obtain ⟨hdiffers, hlasts⟩ := not_or.mp hp
  have hle := Nat.not_lt.mp hlasts
  obtain hu | ⟨level, hlevel⟩ := (s.input i).accepted_cases
  · cases hraw : (s.input i).lastSample with
    | none => exact hself u (h.debounced.unsampled hu hraw)
    | some raw => exact ⟨_, _, h.settles hdiffers hle hu hraw⟩
  · have hside : (s.input i).accepted = if e.edge = .leading then .on else .off := by
      rcases hd with hd | hd | hd | hd
      · exact absurd hd hdiffers
      · exact absurd hd hlasts
      · rw [hlevel] at hd
        cases level <;> exact nomatch hd
      · exact hd
    have hcounts : e.edge.counts (!level) = false := by
      rw [hlevel] at hside
      cases hedge : e.edge with
      | leading =>
        rw [hedge, if_pos rfl] at hside
        cases level with
        | true => rfl
        | false => exact nomatch hside
      | trailing =>
        rw [hedge, if_neg Edge.noConfusion] at hside
        cases level with
        | true => exact nomatch hside
        | false => rfl
    have hu := h.accepts hdiffers hle (hlevel.trans (Level.of_eq level))
    rw [hcounts, if_neg Bool.false_ne_true] at hu
    exact ⟨_, _, hu⟩

/-- What such a request leaves of the state. -/
theorem quiet_rest (hd : e.debounce = (s.inputDef i).debounce ∨ (s.input i).run < e.debounce ∨
    (s.input i).accepted = .unsettled ∨
    (s.input i).accepted = if e.edge = .leading then .on else .off) :
    (t.input i).raw = (s.input i).raw ∧
    (e.qual = (s.inputDef i).qual → (t.input i).windows = (s.input i).windows) ∧
    t = { s with
      settings := t.settings, inputs := Tab.set s.inputs i (t.input i), lines := t.lines
      alerts := t.alerts } ∧
    ((e.limit = (s.inputDef i).limit ∨ e.limit = 0 ∨ (s.input i).glitches < e.limit) →
      t.lines = s.lines ∧ t.alerts = s.alerts) ∧
    (e.limit ≠ (s.inputDef i).limit → e.limit ≠ 0 → e.limit ≤ (s.input i).glitches →
      t.alerts = s.alerts ||| 0x02 ∧
      ((s.servedLine i = none ∨ (s.input i).noisy = true) → t.lines = s.lines) ∧
      ∀ n, s.servedLine i = some n → (s.input i).noisy = false →
        t.lines = Tab.set s.lines n { s.line n with
          bank := (s.line n).bank.map fun b => { b with countNoisy := true } }) := by
  obtain ⟨accepted, run, hu⟩ := h.quiet hd
  have hui : u.input i = { s.input i with accepted, run } := by
    rw [hu, State.input_withInput_same]
  have hdef := h.inputDef_first
  have hglitches := h.first.1
  have hnoisy := h.first.2.2
  have htl : t.lines = v.lines := by
    rw [h.qualified]
    rfl
  have hta : t.alerts = v.alerts := by
    rw [h.qualified]
    rfl
  have hul : u.lines = s.lines := by rw [hu]; rfl
  have hua : u.alerts = s.alerts := by rw [hu]; rfl
  have huline : ∀ n, u.line n = s.line n := fun n => congrArg (fun w => Tab.get w n) hul
  have huserved : u.servedLine i = s.servedLine i := by
    rw [hu]
    rfl
  refine ⟨?_, fun hq => ?_, ?_, fun hl => ?_, fun hl hz hle => ?_⟩
  · rw [h.input_first.2.2.1, hui]
  · have hv := congrArg InputAcq.windows h.limited_input
    rw [h.input, if_pos hq, hv, hui]
  · have hrest := h.limited.rest
    have hqualified := h.qualified
    have hti := h.input
    rw [← hti] at hqualified
    rw [hu] at hrest
    have hv : v = { s with
        settings := v.settings, inputs := v.inputs, lines := v.lines, alerts := v.alerts } := by
      rw [hrest]
      rfl
    have hvi : Tab.set v.inputs i (t.input i) = Tab.set s.inputs i (t.input i) := by
      have hinputs := congrArg State.inputs hrest
      have hchain : v.inputs = Tab.set (Tab.set s.inputs i { s.input i with accepted, run }) i
          (v.input i) := by
        rw [h.limited_input, hu]
        exact hinputs
      rw [hchain, Tab.set_set, Tab.set_set]
    rw [htl, hta, ← hvi, h.rest.1]
    have hsettings : v.settings = { s.settings with
        inputs := Tab.set s.settings.inputs i e } := by
      rw [hrest]
      rfl
    rw [← hsettings]
    refine hqualified.trans ?_
    unfold State.withInput
    conv_lhs => rw [hv]
  · obtain ⟨hlines, halerts⟩ := h.limited.quiet (hl.imp (fun heq => decide_eq_true heq)
      fun hl => hl.imp (fun hz => by rw [hdef]; exact hz)
        fun hlt => by rw [hdef, hglitches]; exact hlt)
    exact ⟨htl.trans (hlines.trans hul), hta.trans (halerts.trans hua)⟩
  · obtain ⟨-, halerts, hkept, hmark⟩ := h.limited.reached (decide_eq_false hl)
      (by rw [hdef]; exact hz) (by rw [hdef, hglitches]; exact hle)
    refine ⟨hta.trans (halerts.trans (by rw [hua])), fun hno => ?_, fun n hn hfalse => ?_⟩
    · refine htl.trans ((hkept ?_).trans hul)
      rw [huserved, hnoisy]
      exact hno
    · rw [htl, hmark n (huserved.trans hn) (hnoisy.trans hfalse), hul, huline]

end State.InputSteps

end Sys2Proof.Machine

/-! SET-COUNT-INPUT and SET-SLOTS (R30 to R33): the requests and their replies. -/

namespace Sys2Proof.Machine

/-! ### SET-COUNT-INPUT (R30) -/

theorem Edge.ofByte_above {b : Byte} (h : 1 < b.toNat) : Edge.ofByte b = none := by
  refine List.find?_eq_none.mpr fun e _ => ?_
  rw [beq_iff_eq]
  rintro rfl
  cases e <;> simp [Edge.code] at h

theorem Edge.ofByte_code (e : Edge) : Edge.ofByte e.code = some e := by cases e <;> rfl

theorem Edge.exists_code {b : Byte} (h : b.toNat ≤ 1) : ∃ e : Edge, e.code = b := by
  rcases (by omega : b.toNat = 0 ∨ b.toNat = 1) with hb | hb
  · exact ⟨.leading, BitVec.eq_of_toNat_eq hb.symm⟩
  · exact ⟨.trailing, BitVec.eq_of_toNat_eq hb.symm⟩

section Request

variable {s : State} {input edge debounce limit : Byte} {qual : Carried QualField}

theorem exec_setCountInput_refused (h : s.Takes .setCountInput) (hi : input.toNat ≤ 15)
    {r : Refused} (hr : countInputRefusal input edge qual s = some r) :
    exec (.setCountInput input edge debounce limit qual) s =
      .next (s.owe (some ⟨0xFF, [0x23, r.reason.code, r.detail]⟩)) :=
  congrArg Host.Outcome.next (h.refused (above_none hi) hr _)

theorem exec_setCountInput_done (h : s.Takes .setCountInput) (hi : input.toNat ≤ 15)
    (hr : countInputRefusal input edge qual s = none) {e : InputSettings}
    (he : e = inputSettingsTaken edge debounce limit qual) {t : State}
    (ht : t = s.setInput (inputOfByte input) e) :
    exec (.setCountInput input edge debounce limit qual) s =
      .next (t.owe (some ⟨0xA3, input :: e.bytes⟩)) := by
  refine congrArg Host.Outcome.next ((h.done (above_none hi) hr _).trans ?_)
  simp only [← he, ← ht]
  rfl

theorem countInputRefusal_edge (h : 1 < edge.toNat) :
    countInputRefusal input edge qual s = some ⟨.malformed, 1⟩ := by
  unfold countInputRefusal
  rw [Edge.ofByte_above h]
  rfl

theorem countInputRefusal_presence (he : edge.toNat ≤ 1) (h : 1 < qual.presence.toNat) :
    countInputRefusal input edge qual s = some ⟨.malformed, 4⟩ := by
  obtain ⟨e, rfl⟩ := Edge.exists_code he
  unfold countInputRefusal
  rw [Edge.ofByte_code, presenceBad_some h]
  rfl

/-- An input of a line in service keeps its edge (R30). -/
theorem countInputRefusal_served (he : edge.toNat ≤ 1) (hq : qual.presence.toNat ≤ 1) {n : LineId}
    (hn : s.servedLine (inputOfByte input) = some n)
    (hne : edge ≠ (s.inputDef (inputOfByte input)).edge.code) :
    countInputRefusal input edge qual s = some ⟨.inService, idByte n⟩ := by
  obtain ⟨e, rfl⟩ := Edge.exists_code he
  have hdiffers : (some e != some (s.inputDef (inputOfByte input)).edge) = true :=
    bne_iff_ne.mpr fun heq => hne (congrArg Edge.code (Option.some.inj heq))
  unfold countInputRefusal
  simp only [Edge.ofByte_code, presenceBad_none hq, hn, hdiffers]
  rfl

theorem countInputRefusal_none (he : edge.toNat ≤ 1) (hq : qual.presence.toNat ≤ 1)
    (h : ∀ n, s.servedLine (inputOfByte input) = some n →
      edge = (s.inputDef (inputOfByte input)).edge.code) :
    countInputRefusal input edge qual s = none := by
  obtain ⟨e, rfl⟩ := Edge.exists_code he
  unfold countInputRefusal
  cases hn : s.servedLine (inputOfByte input) with
  | none =>
    simp only [Edge.ofByte_code, presenceBad_none hq, hn]
    rfl
  | some n =>
    have hedge : e = (s.inputDef (inputOfByte input)).edge := by
      have hsome := congrArg Edge.ofByte (h n hn)
      rw [Edge.ofByte_code, Edge.ofByte_code] at hsome
      exact Option.some.inj hsome
    have hsame : (some e != some (s.inputDef (inputOfByte input)).edge) = false := by
      rw [← hedge]
      exact bne_self_eq_false _
    simp only [Edge.ofByte_code, presenceBad_none hq, hn, hsame]
    rfl

/-- The settings that a request within the enumerations carries. -/
theorem inputSettingsTaken_eq {e : Edge} (he : e.code = edge) :
    inputSettingsTaken edge debounce limit qual = ⟨e, max 1 (min 15 debounce.toNat), limit.toNat,
      if qual.presence = 0 then none
      else some ⟨min 4095 qual.value.offset.toNat, max 1 (min 4095 qual.value.width.toNat)⟩⟩ := by
  subst he
  unfold inputSettingsTaken
  rw [Edge.ofByte_code]
  simp only [clamp, Nat.zero_max]
  rfl

/-- The settings of an input as the reply carries them (R179). -/
theorem InputSettings.bytes_taken (e : Edge) (d offset width : Nat) (limit : Byte) (presence : Byte) :
    InputSettings.bytes ⟨e, d, limit.toNat,
      if presence = 0 then none else some ⟨offset, width⟩⟩ =
      [e.code, BitVec.ofNat 8 d, limit] ++ if presence = 0 then [0] else
        1 :: field 2 offset ++ field 2 width := by
  have hlimit : BitVec.ofNat 8 limit.toNat = limit := by simp
  unfold InputSettings.bytes
  rw [hlimit]
  by_cases hp : presence = 0
  · rw [if_pos hp, if_pos hp]
    rfl
  · rw [if_neg hp, if_neg hp]
    rfl

end Request

/-! ### SET-SLOTS (R33) -/

section Slots

variable {s : State} {entries : List Byte}

theorem exec_setSlots_within (s : State) (hlen : entries.length = 32)
    (hr : ∀ b ∈ entries, b = 0xFF ∨ b.toNat ≤ 15) :
    exec (.setSlots entries) s = .next (s.serve .setSlots none none
      (checked (slotsRefusal entries) fun s =>
        (s.modSettings fun g => { g with slots := slotsOf entries }, entries))) := by
  have hlength : slotsLength entries = none :=
    refuseIf_eq_none (decide_eq_false fun hne => hne hlen) _ _
  have hrange : firstRefusal (entries.map fun b => aboveOrNone b 15) = none := by
    refine firstRefusal_eq_none_iff.mpr fun c hc => ?_
    obtain ⟨b, hb, rfl⟩ := List.mem_map.mp hc
    exact aboveOrNone_none (hr b hb)
  change Host.Outcome.next (s.serve _ _ _ _) = _
  rw [hlength, hrange]

/-- An input has a slot when its number is an entry of the table. -/
theorem slotCount_slotsOf (hlen : entries.length = 32)
    (hr : ∀ b ∈ entries, b = 0xFF ∨ b.toNat ≤ 15) (i : InputId) :
    slotCount (slotsOf entries) i = 0 ↔ idByte i ∉ entries := by
  have hmember : ∀ j : Fin 32, entries.getD j.val 0xFF ∈ entries := fun j => by
    rw [List.getD_eq_getElem _ _ (by rw [hlen]; exact j.isLt)]
    exact List.getElem_mem _
  have hnamed : ∀ b ∈ entries, b ≠ 0xFF → (inputOfByte b = i ↔ b = idByte i) := fun b hb hne => by
    have hle := (hr b hb).resolve_left hne
    exact ⟨fun heq => heq ▸ (idByte_inputOfByte hle).symm, fun heq => by
      rw [heq, (by decide : ∀ i : InputId, inputOfByte (idByte i) = i) i]⟩
  have hnone : idByte i ≠ 0xFF := (by decide : ∀ i : InputId, idByte i ≠ 0xFF) i
  have hslot : ∀ j : Fin 32, (slotsOf entries)[j] = some i ↔
      entries.getD j.val 0xFF = idByte i := fun j => by
    have heq : (slotsOf entries)[j] = if entries.getD j.val 0xFF = 0xFF then none
        else some (inputOfByte (entries.getD j.val 0xFF)) := by
      unfold slotsOf
      exact Vector.getElem_ofFn j.isLt
    rw [heq]
    by_cases hff : entries.getD j.val 0xFF = 0xFF
    · rw [if_pos hff, hff]
      exact ⟨(fun h => nomatch h), fun h => absurd h.symm hnone⟩
    · rw [if_neg hff, Option.some.injEq]
      exact hnamed _ (hmember j) hff
  rw [slotCount, List.countP_eq_zero]
  refine ⟨fun hcount hmem => ?_, fun hnot e he heq => ?_⟩
  · obtain ⟨j, hj, hentry⟩ := List.getElem_of_mem hmem
    have hslotj := (hslot ⟨j, hlen ▸ hj⟩).mpr ((List.getD_eq_getElem _ _ hj).trans hentry)
    refine hcount _ (Vector.mem_toList_iff.mpr (Vector.getElem_mem (hlen ▸ hj))) ?_
    exact beq_iff_eq.mpr hslotj
  · obtain ⟨j, hj, hentry⟩ := Vector.getElem_of_mem (Vector.mem_toList_iff.mp he)
    have hslotj := (hslot ⟨j, hj⟩).mp (hentry.trans (beq_iff_eq.mp heq))
    exact hnot (hslotj ▸ hmember ⟨j, hj⟩)

theorem slotsRefusal_none (hlen : entries.length = 32)
    (hr : ∀ b ∈ entries, b = 0xFF ∨ b.toNat ≤ 15)
    (h : ∀ i n, s.servedLine i = some n → idByte i ∈ entries) : slotsRefusal entries s = none := by
  have hfind : allInputs.find? (s.losesSlots (slotsOf entries)) = none := by
    refine List.find?_eq_none.mpr fun i _ hloses => ?_
    obtain ⟨hserved, hcount⟩ := Bool.and_eq_true_iff.mp hloses
    obtain ⟨n, hn⟩ := Option.isSome_iff_exists.mp hserved
    exact (slotCount_slotsOf hlen hr i).mp (of_decide_eq_true hcount) (h i n hn)
  rw [slotsRefusal, hfind]
  rfl

/-- The first input that would be left without a slot (R33). -/
theorem slotsRefusal_some (hlen : entries.length = 32)
    (hr : ∀ b ∈ entries, b = 0xFF ∨ b.toNat ≤ 15) {i : InputId} {n : LineId}
    (hn : s.servedLine i = some n) (hi : idByte i ∉ entries)
    (hfirst : ∀ j m, j < i → s.servedLine j = some m → idByte j ∈ entries) :
    slotsRefusal entries s = some ⟨.inUse, idByte i⟩ := by
  have hfind : allInputs.find? (s.losesSlots (slotsOf entries)) = some i := by
    rw [allInputs, ← Fin.find?_eq_find?_finRange, Fin.find?_eq_some_iff]
    refine ⟨?_, fun j hj => ?_⟩
    · rw [State.losesSlots, hn, decide_eq_true ((slotCount_slotsOf hlen hr i).mpr hi)]
      rfl
    · cases hserved : s.servedLine j with
      | none =>
        rw [State.losesSlots, hserved]
        rfl
      | some m =>
        have hslot : ¬ slotCount (slotsOf entries) j = 0 := fun hz =>
          (slotCount_slotsOf hlen hr j).mp hz (hfirst j m hj hserved)
        rw [State.losesSlots, decide_eq_false hslot, Bool.and_false]
  rw [slotsRefusal, hfind]
  rfl

end Slots

/-- Settles O33: the refusals and the effects of SET-COUNT-INPUT; and SET-SLOTS. -/
theorem inputSettingsAreWritten : Obligations.InputSettingsAreWritten := by
  unfold Obligations.InputSettingsAreWritten
  intro s hrun hready hguard
  have htakes : s.Takes .setCountInput := ⟨hrun, hready, fun _ => hguard⟩
  have hslots : s.Takes .setSlots := ⟨hrun, hready, fun _ => hguard⟩
  refine ⟨fun input edge debounce limit qual i hi hin => ⟨fun he => ?edge, fun he hq => ?presence,
    fun n he hq hn hne => ?served, fun he hq hsame => ?taken⟩,
    fun entries hlen hr => ⟨fun h => ?slots, fun i n hn hi hfirst => ?inUse⟩⟩
  case edge =>
    exact exec_setCountInput_refused (r := ⟨.malformed, 1⟩) htakes hi (countInputRefusal_edge he)
  case presence =>
    exact exec_setCountInput_refused (r := ⟨.malformed, 4⟩) htakes hi
      (countInputRefusal_presence he hq)
  case served =>
    subst hin
    exact exec_setCountInput_refused (r := ⟨.inService, idByte n⟩) htakes hi
      (countInputRefusal_served he hq hn hne)
  case slots =>
    rw [exec_setSlots_within s hlen hr, hslots.done rfl (slotsRefusal_none hlen hr h)]
    rfl
  case inUse =>
    rw [exec_setSlots_within s hlen hr,
      hslots.refused rfl (slotsRefusal_some hlen hr hn hi hfirst)]
    rfl
  case taken =>
    have hnone := countInputRefusal_none (input := input) he hq (hin ▸ hsame)
    obtain ⟨g, hg⟩ := Edge.exists_code he
    have htaken := inputSettingsTaken_eq (debounce := debounce) (limit := limit) (qual := qual) hg
    obtain ⟨e, he'⟩ : ∃ e, e = inputSettingsTaken edge debounce limit qual := ⟨_, rfl⟩
    obtain ⟨t, ht⟩ : ∃ t, t = s.setInput i e := ⟨_, rfl⟩
    obtain ⟨u, v, hsteps⟩ := s.inputSteps i e
    rw [exec_setCountInput_done htakes hi hnone he' (hin ▸ ht)]
    rw [← ht] at hsteps
    rw [← he'] at htaken
    clear ht he'
    obtain ⟨hsettings, hpoints, hinstalled, hframe, hclock, hlink, hothers⟩ := hsteps.rest
    have hdef := hsteps.inputDef
    obtain ⟨r, hr⟩ : ∃ r, r = (some ⟨0xA3, input :: e.bytes⟩ : Option Reply) := ⟨_, rfl⟩
    rw [← hr]
    have hdef' : (t.owe r).inputDef i = e := hdef
    refine ⟨t.owe r, rfl, ?_, ?_, ?_, fun hp => ?_, fun hp => ?_, ?_, hothers, hpoints, hinstalled,
      hframe, hclock, ?_, fun d e' a a' hd hee ha haa => ?_⟩
    · rw [hdef', htaken]
      exact hg
    · rw [hdef', htaken]
    · rw [hdef', htaken]
    · rw [hdef', htaken]
      exact if_pos hp
    · rw [hdef', htaken]
      refine if_neg ?_
      rw [hp]
      decide
    · rw [hdef']
      exact hsettings
    · rw [hr, ← hlink, htaken, InputSettings.bytes_taken, hg]
      rfl
    · subst hd ha
      rw [show e' = e from hee.trans hdef'] at *
      rw [show a' = t.input i from haa]
      refine ⟨fun hsame => ?_, hsteps.kept.1, hsteps.kept.2, hsteps.unqualified, hsteps.cleared,
        hsteps.reached, hsteps.noisy_kept, hsteps.pending_level,
        fun raw hd hle hu hraw => ?_, fun level hd hle hl => ?_, fun hquiet => ?_⟩
      · have hfirst := hsteps.pending (.inl (congrArg InputSettings.debounce hsame))
        have halone := hsteps.alone (congrArg InputSettings.limit hsame)
          (congrArg InputSettings.qual hsame)
        have hdefined : s.inputDefined i e = s := by
          rw [hsame]
          unfold State.inputDefined State.modSettings State.inputDef
          dsimp only
          rw [Tab.set_get]
        rw [← hdefined, ← hfirst, ← halone]
        rfl
      · obtain ⟨hacc, hrun', -, -⟩ := hsteps.input_first
        rw [hacc, hrun', hsteps.settles hd hle hu hraw, State.input_withInput_same]
        exact ⟨rfl, rfl⟩
      · obtain ⟨hacc, hrun', hraw⟩ := hsteps.accepts_level hd hle hl
        refine ⟨hacc, hrun', fun hedge => ⟨hraw hedge, fun hlimit hqual => ?_⟩⟩
        have hcounts : e.edge.counts (!level) = true := by
          rw [hedge]
          cases level <;> rfl
        have hu := hsteps.accepts hd hle hl
        rw [hcounts, if_pos rfl] at hu
        have hfirst : ({ s with
            settings := (t.owe r).settings
            inputs := Tab.set s.inputs i { s.input i with
              accepted := if level then .off else .on, run := 0 } } : State) =
            (s.inputDefined i e).withInput i { s.input i with
              accepted := if level then .off else .on, run := 0 } := by
          rw [show (t.owe r).settings = t.settings from rfl, hsettings]
          rfl
        rw [hfirst, ← hu, hsteps.alone hlimit hqual]
        rfl
      · obtain ⟨hraw, hwindows, hrest, hplain, hreached⟩ := hsteps.quiet_rest hquiet
        have howed : (t.owe r).link = { s.link with serving := .serving, reply := r } := by
          rw [← hlink]
          rfl
        refine ⟨hraw, hwindows, ?_, hplain, hreached⟩
        rw [howed]
        exact (congrArg (fun w : State => w.owe r) hrest).trans rfl

end Sys2Proof.Machine

/-! DEFINE-STATION (R49, R50): the refusals in their order, and the definition taken. -/

namespace Sys2Proof.Machine

/-! ### A station rebuilt (R50) -/

/-- The state `t` after the live state of station `k` is rebuilt. -/
structure State.Rebuilds (s t : State) (k : StationId) : Prop where
  only : s.OnlyStations t
  station : t.station k = { s.station k with
    state := t.derivedState k, stamp := s.hall, reported := none, armed := none, memory := none
    stallExpiry := none, degraded := t.degradedNow k }
  others : ∀ m, m ≠ k → t.station m = s.station m

theorem State.rebuilds (s : State) (k : StationId) : s.Rebuilds (s.rebuildStation k) k := by
  obtain ⟨u, hu⟩ : ∃ u, u = s.modStation k fun v => v.rebuilt s.hall := ⟨_, rfl⟩
  obtain ⟨v, hv⟩ : ∃ v, v = u.modStation k fun l => { l with degraded := u.degradedNow k } := ⟨_, rfl⟩
  have hrebuild : s.rebuildStation k =
      v.modStation k fun l => { l with state := v.derivedState k } := by
    rw [hv, hu]
    rfl
  obtain ⟨w, hw⟩ : ∃ w, w = v.modStation k fun l => { l with state := v.derivedState k } := ⟨_, rfl⟩
  rw [hrebuild, ← hw]
  have hvw : v.OnlyStations w := by rw [hw]; rfl
  have honly : s.OnlyStations w := by
    rw [hw, hv, hu]
    rfl
  have hwk : w.station k = { v.station k with state := v.derivedState k } := by
    rw [hw, State.station_modStation_same]
  have hvk : v.station k = { s.station k with
      state := .unmonitored, stamp := s.hall, reported := none, armed := none, memory := none
      stallExpiry := none, degraded := u.degradedNow k } := by
    rw [hv, State.station_modStation_same, hu, State.station_modStation_same]
    rfl
  have hdegraded : w.degradedNow k = u.degradedNow k := by
    rw [hw, hv]
    rfl
  have hderived : w.derivedState k = v.derivedState k :=
    State.derivedState_fix hvw (by rw [hwk])
  refine ⟨honly, ?_, fun m hm => ?_⟩
  · rw [hwk, hvk, hderived, hdegraded]
  · rw [hw, State.station_modStation_ne _ hm, hv, State.station_modStation_ne _ hm, hu,
      State.station_modStation_ne _ hm]

/-! ### The fields (R49, R178) -/

section Fields

variable {s : State} {b : StationField} {k : StationId} {n : LineId}

theorem fieldTarget_none (h : b.defined = 0 ∨ b.line = 0xFF) : fieldTarget b = none := if_pos h

theorem fieldTarget_placed (hd : b.defined ≠ 0) (hl : b.line.toNat = n.val) :
    fieldTarget b = some n := by
  rw [fieldTarget_some hd (lineByte_le hl), lineOfByte_eq hl]

theorem fieldRange_outside (hk : b.station.toNat ≤ 63) (h : b.defined = 0 ∨ b.line = 0xFF) :
    fieldRange b = none := by
  have hline : (if b.defined = 0 then none else aboveOrNone b.line 7) = none := by
    rcases h with h | h
    · rw [if_pos h]
    · rw [h]
      exact ite_self none
  rw [fieldRange, above_none hk, hline, fieldTarget_none h]
  rfl

theorem fieldRange_placed (hk : b.station.toNat ≤ 63) (hd : b.defined ≠ 0)
    (hl : b.line.toNat ≤ 7) (hp : b.position.toNat ≤ 15)
    (hpace : b.pace.presence = 0 ∨ b.pace.value.toNat ≤ 15) : fieldRange b = none := by
  rw [fieldRange, above_none hk, if_neg hd, aboveOrNone_none (.inr hl), fieldTarget_some hd hl,
    above_none hp, carriedAbove_none hpace]
  rfl

/-- The station's present line is in service (R49). -/
def State.presentBusy (s : State) (k : StationId) : Option Refused :=
  match s.lineOf k with
  | some n => s.lineBusyService n
  | none => none

theorem State.lineBusyService_some (h : s.inService n = true) :
    s.lineBusyService n = some ⟨.inService, idByte n⟩ := refuseIf_eq_some h _ _

theorem State.lineBusyService_none (h : s.inService n = false) : s.lineBusyService n = none :=
  refuseIf_eq_none h _ _

theorem State.presentBusy_some (hk : s.lineOf k = some n) (h : s.inService n = true) :
    s.presentBusy k = some ⟨.inService, idByte n⟩ := by
  rw [State.presentBusy, hk]
  exact State.lineBusyService_some h

theorem State.presentBusy_none (h : ∀ n, s.lineOf k = some n → s.inService n = false) :
    s.presentBusy k = none := by
  unfold State.presentBusy
  split
  next n hn => exact State.lineBusyService_none (h n hn)
  next => rfl

theorem fieldRefusal_outside (hk : b.station.toNat = k.val)
    (h : b.defined = 0 ∨ b.line = 0xFF) : fieldRefusal b s = s.presentBusy k := by
  unfold fieldRefusal
  rw [fieldTarget_none h, stationOfByte_eq hk]
  rfl

theorem fieldRefusal_placed (hk : b.station.toNat = k.val) (hn : fieldTarget b = some n) :
    fieldRefusal b s = firstRefusal
      [fieldPresence b, s.presentBusy k, s.lineBusyService n, fieldInUse b k n s] := by
  unfold fieldRefusal
  rw [hn, stationOfByte_eq hk]
  rfl

/-- The place of the field after one that is carried. -/
theorem ofNat_carriedSize {p : Byte} {m : Nat} (hp : BitVec.ofNat 8 m = p) (c : Carried Byte) :
    BitVec.ofNat 8 (m + carriedSize c) = p + if c.presence = 0 then 1 else 2 := by
  rw [BitVec.ofNat_add, hp, carriedSize]
  split <;> rfl

theorem fieldPresence_none (hrun : b.run.presence.toNat ≤ 1) (hfault : b.fault.presence.toNat ≤ 1)
    (hblock : b.block.presence.toNat ≤ 1) (hstarve : b.starve.presence.toNat ≤ 1)
    (hpace : b.pace.presence.toNat ≤ 1) : fieldPresence b = none := by
  rw [fieldPresence, presenceBad_none hrun, presenceBad_none hfault, presenceBad_none hblock,
    presenceBad_none hstarve, presenceBad_none hpace]
  rfl

/-! ### What is in use (R49) -/

theorem State.pointHeld_iff {p : PointId} : s.pointHeld k p = true ↔
    ∃ m e, m ≠ k ∧ s.stationDef m = some e ∧ p ∈ e.points := by
  unfold State.pointHeld
  rw [List.any_eq_true]
  constructor
  · rintro ⟨m, -, hm⟩
    obtain ⟨hne, hheld⟩ := Bool.and_eq_true_iff.mp hm
    cases he : s.stationDef m with
    | none =>
      rw [he] at hheld
      exact nomatch hheld
    | some e =>
      rw [he] at hheld
      exact ⟨m, e, bne_iff_ne.mp hne, he, List.contains_iff_mem.mp hheld⟩
  · rintro ⟨m, e, hne, he, hp⟩
    refine ⟨m, List.mem_finRange m, Bool.and_eq_true_iff.mpr ⟨bne_iff_ne.mpr hne, ?_⟩⟩
    rw [he]
    exact List.contains_iff_mem.mpr hp

theorem State.pointTaken_true {ps : List PointId} {p : PointId} (h : 2 ≤ ps.count p ∨
    ∃ m e, m ≠ k ∧ s.stationDef m = some e ∧ p ∈ e.points) : s.pointTaken k ps p = true := by
  unfold State.pointTaken
  rcases h with h | h
  · rw [decide_eq_true h, Bool.true_or]
  · rw [State.pointHeld_iff.mpr h, Bool.or_true]

theorem State.pointTaken_false {ps : List PointId} {p : PointId} (hone : ps.count p ≤ 1)
    (hfree : ∀ m e, m ≠ k → s.stationDef m = some e → p ∉ e.points) :
    s.pointTaken k ps p = false := by
  have hheld : s.pointHeld k p = false := Bool.eq_false_iff.mpr fun heq => by
    obtain ⟨m, e, hne, he, hp⟩ := State.pointHeld_iff.mp heq
    exact hfree m e hne he hp
  rw [State.pointTaken, hheld, decide_eq_false (by omega)]
  rfl

/-- The first point that cannot be taken. -/
theorem find_pointTaken {ps before after : List PointId} {p : PointId} (hps : ps = before ++ p :: after)
    (hp : p ∈ after ∨ ∃ m e, m ≠ k ∧ s.stationDef m = some e ∧ p ∈ e.points)
    (hbefore : ∀ x ∈ before, ps.count x = 1 ∧
      ∀ m e, m ≠ k → s.stationDef m = some e → x ∉ e.points) :
    ps.find? (fun q => s.pointTaken k ps q) = some p := by
  have htaken : s.pointTaken k ps p = true := State.pointTaken_true (hp.imp (fun hin => by
    have hcount := List.count_pos_iff.mpr hin
    rw [hps, List.count_append, List.count_cons_self]
    omega) id)
  have hfree : ∀ x ∈ before, ¬ s.pointTaken k ps x = true := fun x hx => by
    obtain ⟨hone, hfree⟩ := hbefore x hx
    rw [State.pointTaken_false (by omega) hfree]
    exact Bool.false_ne_true
  conv_lhs => rw [hps]
  rw [List.find?_append, List.find?_eq_none.mpr fun x hx => hps ▸ hfree x hx]
  exact List.find?_cons_of_pos (hps ▸ htaken)

theorem find_pointTaken_none {ps : List PointId} (hnodup : ps.Nodup)
    (hfree : ∀ p ∈ ps, ∀ m e, m ≠ k → s.stationDef m = some e → p ∉ e.points) :
    ps.find? (fun q => s.pointTaken k ps q) = none :=
  List.find?_eq_none.mpr fun p hp => by
    rw [State.pointTaken_false (List.nodup_iff_count_le_one.mp hnodup p) (hfree p hp)]
    exact Bool.false_ne_true

theorem State.inputTaken_false {i : InputId} (h : s.roleOf i = .none ∨ s.roleOf i = .pace k) :
    s.inputTaken k i = false := by
  unfold State.inputTaken
  rcases h with h | h
  · rw [h]
  · rw [h]
    exact bne_self_eq_false k

theorem State.inputTaken_true {i : InputId} (hnone : s.roleOf i ≠ .none)
    (hpace : s.roleOf i ≠ .pace k) : s.inputTaken k i = true := by
  unfold State.inputTaken
  cases h : s.roleOf i with
  | none => exact absurd h hnone
  | pace m => exact bne_iff_ne.mpr fun heq => hpace (h.trans (congrArg Role.pace heq))
  | output _ => rfl
  | reject _ => rfl

/-- The other members of a line. -/
def State.othersOf (s : State) (n : LineId) (k : StationId) : List StationId :=
  (s.members n).filter (· != k)

/-- What is in use, check by check. -/
theorem fieldInUse_eq (b : StationField) (k : StationId) (n : LineId) (s : State) :
    fieldInUse b k n s = firstRefusal
      [refuseIf (12 ≤ (s.othersOf n k).length) .inUse b.line,
        refuseIf ((s.othersOf n k).any fun m =>
          s.positionIn n m == some (Fin.ofNat 16 b.position.toNat)) .inUse b.position,
        ((fieldPoints b).find? fun p => s.pointTaken k (fieldPoints b) p).map fun p =>
          ⟨.inUse, idByte p⟩,
        ((carriedInput b.pace).filter (s.inputTaken k)).map fun i => ⟨.inUse, idByte i⟩] := rfl

theorem State.position_taken {m : StationId} {p : Fin 16} (hm : m ∈ s.members n) (hne : m ≠ k)
    (hp : s.positionIn n m = some p) :
    ((s.othersOf n k).any fun m => s.positionIn n m == some p) = true :=
  List.any_eq_true.mpr ⟨m, List.mem_filter.mpr ⟨hm, bne_iff_ne.mpr hne⟩, beq_iff_eq.mpr hp⟩

theorem State.position_free {p : Fin 16}
    (h : ∀ m ∈ s.members n, m ≠ k → s.positionIn n m ≠ some p) :
    ((s.othersOf n k).any fun m => s.positionIn n m == some p) = false :=
  Bool.eq_false_iff.mpr fun heq => by
    obtain ⟨m, hm, hp⟩ := List.any_eq_true.mp heq
    obtain ⟨hin, hne⟩ := List.mem_filter.mp hm
    exact h m hin (bne_iff_ne.mp hne) (beq_iff_eq.mp hp)

end Fields

end Sys2Proof.Machine

/-! DEFINE-STATION (R49, R50): the request and its replies. -/

namespace Sys2Proof.Machine

section Request

variable {s : State} {b : StationField} {k : StationId} {n : LineId}

theorem exec_defineStation_refused (h : s.Takes .defineStation) (hrange : fieldRange b = none)
    {r : Refused} (hr : fieldRefusal b s = some r) :
    exec (.defineStation b) s = .next (s.owe (some ⟨0xFF, [0x20, r.reason.code, r.detail]⟩)) :=
  congrArg Host.Outcome.next (h.refused hrange hr _)

theorem exec_defineStation_done (h : s.Takes .defineStation) (hk : b.station.toNat = k.val)
    (hrange : fieldRange b = none) (hr : fieldRefusal b s = none) {t : State}
    (ht : t = s.defineStation k (fieldTaken b)) : exec (.defineStation b) s =
      .next (t.owe (some ⟨0xA0, t.definedBytes k (fieldTaken b)⟩)) := by
  refine congrArg Host.Outcome.next ((h.done hrange hr _).trans ?_)
  simp only [stationOfByte_eq hk, ← ht]
  rfl

/-- The refusals of a placement, in their order (R49). -/
theorem exec_defineStation_placed (h : s.Takes .defineStation) (hk : b.station.toNat = k.val)
    (hd : b.defined ≠ 0) (hl : b.line.toNat = n.val) (hp : b.position.toNat ≤ 15)
    (hpace : b.pace.presence = 0 ∨ b.pace.value.toNat ≤ 15) {r : Refused}
    (hr : firstRefusal [fieldPresence b, s.presentBusy k, s.lineBusyService n,
      fieldInUse b k n s] = some r) :
    exec (.defineStation b) s = .next (s.owe (some ⟨0xFF, [0x20, r.reason.code, r.detail]⟩)) :=
  exec_defineStation_refused h
    (fieldRange_placed (stationByte_le hk) hd (lineByte_le hl) hp hpace)
    ((fieldRefusal_placed hk (fieldTarget_placed hd hl)).trans hr)

/-- The bytes of a definition that a request carries (R50, R179). -/
theorem State.definedBytes_some {t : State} {e : StationDef} (hk : b.station.toNat = k.val) :
    t.definedBytes k (some e) = [b.station, 1, (match e.place with
      | none => 0xFF
      | some p => idByte p.line), t.positionByte k e] ++
      optional (fun p => [idByte p]) e.run ++ optional (fun p => [idByte p]) e.fault ++
      optional (fun p => [idByte p]) e.block ++ optional (fun p => [idByte p]) e.starve ++
      optional (fun i => [idByte i]) e.pace ++ field 2 e.stall := by
  have hbyte : idByte k = b.station := by
    rw [← stationOfByte_eq hk, idByte_stationOfByte (stationByte_le hk)]
  unfold State.definedBytes
  simp only [State.stationDefBytes_eq, hbyte, List.cons_append, List.nil_append] <;> rfl

end Request

/-- The definition that a request carries, in each of its forms (R49, R50). -/
inductive FieldCarries (b : StationField) : Option StationDef → Prop
  | undefined : b.defined = 0 → FieldCarries b none
  | unplaced : b.defined ≠ 0 → b.line = 0xFF → FieldCarries b (some
      { place := none, run := none, fault := none, block := none, starve := none, pace := none
        stall := min 600 b.stall.toNat })
  | placed (n : LineId) : b.defined ≠ 0 → b.line.toNat = n.val → b.position.toNat ≤ 15 →
      FieldCarries b (some
        { place := some ⟨n, Fin.ofNat 16 b.position.toNat⟩
          run := carriedPoint b.run, fault := carriedPoint b.fault, block := carriedPoint b.block
          starve := carriedPoint b.starve, pace := carriedInput b.pace
          stall := min 600 b.stall.toNat })

theorem FieldCarries.taken {b : StationField} {d : Option StationDef} (h : FieldCarries b d) :
    fieldTaken b = d := by
  have hstall : clamp 0 600 b.stall.toNat = min 600 b.stall.toNat := Nat.zero_max _
  cases h with
  | undefined hd => exact if_pos hd
  | unplaced hd hl =>
    unfold fieldTaken
    rw [if_neg hd, fieldTarget_none (.inr hl), hstall]
  | placed n hd hl hp =>
    unfold fieldTaken
    rw [if_neg hd, fieldTarget_placed hd hl, hstall]

/-- What a definition makes of the state (R50). -/
theorem State.defineStation_spec (s : State) (k : StationId) (d : Option StationDef) {t : State}
    (ht : t = s.defineStation k d) : t.stationDef k = d ∧
    (t.station k).reported = none ∧ (t.station k).armed = none ∧
    (t.station k).memory = none ∧ (t.station k).stallExpiry = none ∧
    (t.station k).stamp = s.hall ∧ (t.station k).state = t.derivedState k ∧
    (t.station k).degraded = t.degradedNow k ∧ (t.station k).tally = (s.station k).tally ∧
    (∀ m, m ≠ k → t.stationDef m = s.stationDef m ∧ t.station m = s.station m) ∧
    t = { s with settings := t.settings, stations := t.stations } ∧
    t.settings = { s.settings with stations := t.settings.stations } := by
  obtain ⟨u, hu⟩ : ∃ u, u = s.modSettings fun g => { g with stations := Tab.set g.stations k d } :=
    ⟨_, rfl⟩
  have hrebuilds : u.Rebuilds t k := by
    rw [ht, State.defineStation, ← hu]
    exact u.rebuilds k
  have honly := hrebuilds.only
  unfold State.OnlyStations at honly
  have hsettings : t.settings = { s.settings with
      stations := Tab.set s.settings.stations k d } := by
    rw [honly, hu]
    rfl
  have hown := hrebuilds.station
  have hhall : u.hall = s.hall := by
    rw [hu]
    rfl
  have hstation : ∀ m, u.station m = s.station m := fun m => by
    rw [hu]
    rfl
  rw [hhall, hstation] at hown
  refine ⟨?_, congrArg StationLive.reported hown, congrArg StationLive.armed hown,
    congrArg StationLive.memory hown, congrArg StationLive.stallExpiry hown,
    congrArg StationLive.stamp hown, congrArg StationLive.state hown,
    congrArg StationLive.degraded hown, (congrArg StationLive.tally hown :),
    fun m hm => ⟨?_, (hrebuilds.others m hm).trans (hstation m)⟩, ?_, ?_⟩
  · unfold State.stationDef
    rw [hsettings]
    exact Tab.get_set_same _ _ _
  · unfold State.stationDef
    rw [hsettings]
    exact Tab.get_set_ne _ hm _
  · rw [hsettings]
    refine honly.trans ?_
    rw [hu]
    rfl
  · rw [hsettings]

/-- Settles O40: the refusals of DEFINE-STATION in their order, and the definition taken. -/
theorem stationsAreDefined : Obligations.StationsAreDefined := by
  unfold Obligations.StationsAreDefined
  intro s b k h hk
  have hk63 := stationByte_le hk
  refine ⟨fun n hout hn hs => ?present, fun p1 p2 p3 p4 hd hl hp hpace hp1 hp2 hp3 hp4 => ?presence,
    fun n hd hl hp hrun hfault hblock hstarve hpp hpace => ?placed, fun d hfree hform => ?taken⟩
  case present =>
    refine exec_defineStation_refused (r := ⟨.inService, idByte n⟩) h (fieldRange_outside hk63 hout) ?_
    rw [fieldRefusal_outside hk hout, State.presentBusy_some hn hs]
  case presence =>
    obtain ⟨n, hn⟩ : ∃ n : LineId, b.line.toNat = n.val :=
      ⟨lineOfByte b.line, toNat_lineOfByte hl⟩
    have hpace' : b.pace.presence = 0 ∨ b.pace.value.toNat ≤ 15 := by
      by_cases hz : b.pace.presence = 0
      · exact .inl hz
      · exact .inr (hpace hz)
    have hbad : ∀ place : Byte, fieldPresence b = some ⟨.malformed, place⟩ →
        exec (.defineStation b) s = .next (s.owe (some ⟨0xFF, [0x20, 0x02, place]⟩)) :=
      fun place hplace => exec_defineStation_placed (r := ⟨.malformed, place⟩) h hk hd hn hp hpace'
        (by rw [hplace, firstRefusal_some])
    have h1 := (ofNat_carriedSize (m := 4) rfl b.run).trans hp1.symm
    have h2 := (ofNat_carriedSize h1 b.fault).trans hp2.symm
    have h3 := (ofNat_carriedSize h2 b.block).trans hp3.symm
    have h4 := (ofNat_carriedSize h3 b.starve).trans hp4.symm
    refine ⟨fun hrun => hbad _ ?_, fun hrun => ⟨fun hfault => hbad _ ?_, fun hfault =>
      ⟨fun hblock => hbad _ ?_, fun hblock => ⟨fun hstarve => hbad _ ?_,
        fun hstarve hpp => hbad _ ?_⟩⟩⟩⟩
    · rw [fieldPresence, presenceBad_some hrun, firstRefusal_some]
      rfl
    · rw [fieldPresence, presenceBad_none hrun, firstRefusal_none, presenceBad_some hfault,
        firstRefusal_some, h1]
    · rw [fieldPresence, presenceBad_none hrun, firstRefusal_none, presenceBad_none hfault,
        firstRefusal_none, presenceBad_some hblock, firstRefusal_some, h2]
    · rw [fieldPresence, presenceBad_none hrun, firstRefusal_none, presenceBad_none hfault,
        firstRefusal_none, presenceBad_none hblock, firstRefusal_none, presenceBad_some hstarve,
        firstRefusal_some, h3]
    · rw [fieldPresence, presenceBad_none hrun, firstRefusal_none, presenceBad_none hfault,
        firstRefusal_none, presenceBad_none hblock, firstRefusal_none, presenceBad_none hstarve,
        firstRefusal_none, presenceBad_some hpp, firstRefusal_some, h4]
  case placed =>
    have hpace' : b.pace.presence = 0 ∨ b.pace.value.toNat ≤ 15 :=
      (presence_zero_or_one hpp).imp id hpace
    have hpresence := fieldPresence_none hrun hfault hblock hstarve hpp
    have hbad : ∀ r : Refused, firstRefusal [s.presentBusy k, s.lineBusyService n,
        fieldInUse b k n s] = some r → exec (.defineStation b) s =
          .next (s.owe (some ⟨0xFF, [0x20, r.reason.code, r.detail]⟩)) := fun r hr =>
      exec_defineStation_placed h hk hd hl hp hpace' (by
        rw [hpresence, firstRefusal_none]
        exact hr)
    have hline : idByte n = b.line := by
      rw [← lineOfByte_eq hl, idByte_lineOfByte (lineByte_le hl)]
    refine ⟨fun m hm hs => hbad ⟨.inService, idByte m⟩ ?_, fun hfree =>
      ⟨fun hs => hbad ⟨.inService, b.line⟩ ?_, fun hs => ?_⟩⟩
    · rw [State.presentBusy_some hm hs, firstRefusal_some]
    · rw [State.presentBusy_none hfree, firstRefusal_none, State.lineBusyService_some hs,
        firstRefusal_some, hline]
    have hused : ∀ r : Refused, fieldInUse b k n s = some r → exec (.defineStation b) s =
        .next (s.owe (some ⟨0xFF, [0x20, r.reason.code, r.detail]⟩)) := fun r hr => hbad r (by
      rw [State.presentBusy_none hfree, firstRefusal_none, State.lineBusyService_none hs,
        firstRefusal_none, hr, firstRefusal_some])
    refine ⟨fun hfull => hused ⟨.inUse, b.line⟩ ?_, fun hroom =>
      ⟨fun m hm hne hpos => hused ⟨.inUse, b.position⟩ ?_, fun hpos =>
        ⟨fun p before after hps hp hbefore => hused ⟨.inUse, idByte p⟩ ?_,
          fun hnodup hpoints hone hnone hother => hused ⟨.inUse, b.pace.value⟩ ?_⟩⟩⟩
    · have hcrowded : refuseIf (12 ≤ (s.othersOf n k).length) .inUse b.line =
          some ⟨.inUse, b.line⟩ := refuseIf_eq_some (decide_eq_true hfull) _ _
      rw [fieldInUse_eq, hcrowded, firstRefusal_some]
    all_goals
      have hcount : refuseIf (12 ≤ (s.othersOf n k).length) .inUse b.line = none :=
        refuseIf_eq_none (decide_eq_false (Nat.not_le.mpr (Nat.lt_succ_of_le hroom))) _ _
    · rw [fieldInUse_eq, hcount, firstRefusal_none,
        refuseIf_eq_some (State.position_taken hm hne hpos), firstRefusal_some]
    · rw [fieldInUse_eq, hcount, firstRefusal_none,
        refuseIf_eq_none (State.position_free hpos), firstRefusal_none,
        find_pointTaken hps hp hbefore]
      rfl
    · have hinput : carriedInput b.pace = some (inputOfByte b.pace.value) := by
        refine if_neg ?_
        rw [hone]
        decide
      rw [fieldInUse_eq, hcount, firstRefusal_none,
        refuseIf_eq_none (State.position_free hpos), firstRefusal_none,
        find_pointTaken_none hnodup hpoints, hinput, Option.filter_some,
        State.inputTaken_true hnone hother]
      exact congrArg (fun x => some (⟨.inUse, x⟩ : Refused)) (idByte_inputOfByte (hpace hone))
  case taken =>
    have hpresent := State.presentBusy_none hfree
    obtain ⟨hcarries, hrange, hnone⟩ : FieldCarries b d ∧ fieldRange b = none ∧
        fieldRefusal b s = none := by
      rcases hform with ⟨hd, rfl⟩ | ⟨hd, hl, rfl⟩ | ⟨n, hd, hl, hp, hs, hrun, hfault, hblock,
        hstarve, hpp, hpace, hroom, hpos, hnodup, hpoints, rfl⟩
      · exact ⟨.undefined hd, fieldRange_outside hk63 (.inl hd),
          (fieldRefusal_outside hk (.inl hd)).trans hpresent⟩
      · exact ⟨.unplaced hd hl, fieldRange_outside hk63 (.inr hl),
          (fieldRefusal_outside hk (.inr hl)).trans hpresent⟩
      · have hcount : refuseIf (12 ≤ (s.othersOf n k).length) .inUse b.line = none :=
          refuseIf_eq_none (decide_eq_false (Nat.not_le.mpr (Nat.lt_succ_of_le hroom))) _ _
        have hinput : (carriedInput b.pace).filter (s.inputTaken k) = none := by
          rcases presence_zero_or_one hpp with hz | hone
          · rw [carriedInput, if_pos hz]
            rfl
          · rw [carriedInput, hone, if_neg (by decide), Option.filter_some,
              State.inputTaken_false (hpace hone).2]
            rfl
        refine ⟨.placed n hd hl hp, fieldRange_placed hk63 hd (lineByte_le hl) hp
          ((presence_zero_or_one hpp).imp id fun hone => (hpace hone).1), ?_⟩
        rw [fieldRefusal_placed hk (fieldTarget_placed hd hl),
          fieldPresence_none hrun hfault hblock hstarve hpp, firstRefusal_none, hpresent,
          firstRefusal_none, State.lineBusyService_none hs, firstRefusal_none, fieldInUse_eq, hcount,
          firstRefusal_none, refuseIf_eq_none (State.position_free hpos), firstRefusal_none,
          find_pointTaken_none hnodup hpoints, hinput]
        rfl
    have htaken := hcarries.taken
    obtain ⟨t, ht⟩ : ∃ t, t = s.defineStation k d := ⟨_, rfl⟩
    have hexec := exec_defineStation_done (t := t) h hk hrange hnone (by rw [htaken]; exact ht)
    rw [htaken] at hexec
    obtain ⟨hdef, hreported, harmed, hmemory, hexpiry, hstamp, hstate, hdegraded, htally, hothers,
      hrest, hsettings⟩ := State.defineStation_spec s k d ht
    have hlink : t.link = s.link := by rw [hrest]
    refine ⟨_, hexec, hdef, hreported, harmed, hmemory, hexpiry, hstamp, hstate, hdegraded, htally,
      hothers, ?_, hsettings, fun hd => ?_, fun e he => ?_⟩
    · rw [← htaken]
      exact (congrArg (fun u : State => u.owe _) hrest).trans (by rw [← hlink]; rfl)
    · have hbyte : idByte k = b.station := by
        rw [← stationOfByte_eq hk, idByte_stationOfByte hk63]
      refine ⟨t.unstated k 0, t.unstated k 1, t.unstated k 2, ?_⟩
      rw [hd, ← hbyte, ← hlink]
      rfl
    · have hplaced : (∀ p, e.place = some p → t.positionByte k e = b.position) ∧
          (match e.place with
            | none => 0xFF
            | some p => idByte p.line) = if e.place = none then 0xFF else b.line := by
        rw [he] at hcarries
        cases hcarries with
        | unplaced _ _ => exact ⟨(fun p hp => nomatch hp), rfl⟩
        | placed n hd hl hp =>
          refine ⟨fun p hpl => ?_, ?_⟩
          · exact idByte_inputOfByte hp
          · rw [← lineOfByte_eq hl]
            exact idByte_lineOfByte (lineByte_le hl)
      refine ⟨t.positionByte k e, hplaced.1, ?_⟩
      rw [he, State.definedBytes_some hk, hplaced.2, ← hlink]
      rfl

end Sys2Proof.Machine

/-! RECALL-SETTINGS (R173), and the rebuilding of all stations at a start (R36, R67). -/

namespace Sys2Proof.Machine

/-! ### The stations rebuilt -/

/-- What a station's entry makes of a record just rebuilt. -/
theorem StationLive.change_rebuilt {v : StationLive} (hreported : v.reported = none)
    (harmed : v.armed = none) (hmemory : v.memory = none) (hst : v.state = .unmonitored)
    (st : StationState) (stamp count : Nat) (timer : Option Nat) :
    (v.change st stamp count timer).reported = none ∧
    (v.change st stamp count timer).armed = none ∧
    (v.change st stamp count timer).memory = none := by
  have hleft : v.memoryLeft stamp count = none := by
    unfold StationLive.memoryLeft
    rw [hst]
  unfold StationLive.change
  cases st with
  | running => exact ⟨rfl, harmed, hleft⟩
  | faulted =>
    simp only [harmed]
    exact ⟨hreported, harmed, hmemory⟩
  | halted =>
    simp only [harmed]
    exact ⟨hreported, harmed, hmemory⟩
  | _ => exact ⟨hreported, harmed, hmemory⟩

/-- The state `t` after the live states of all stations are rebuilt. -/
structure State.RebuildsAll (s t : State) : Prop where
  only : s.OnlyStations t
  state : ∀ k, (t.station k).state = t.derivedState k
  reported : ∀ k, (t.station k).reported = none
  armed : ∀ k, (t.station k).armed = none
  memory : ∀ k, (t.station k).memory = none
  stallExpiry : ∀ k, (t.station k).stallExpiry =
    if (t.station k).state = .running then s.stallStart k else none
  tally : ∀ k, ∃ e, (t.station k).tally =
    (s.station k).tally.map fun y => y.addTime .unmonitored e

theorem StationTally.addTime_zero (y : StationTally) (st : StationState) : y.addTime st 0 = y := by
  have htimes : Tab.modify y.times st.index (· + 0) = y.times := Tab.set_get y.times st.index
  unfold StationTally.addTime
  rw [htimes]

theorem State.rebuildsAll (s : State) : s.RebuildsAll s.rebuildStations := by
  obtain ⟨u, hu⟩ : ∃ u : State, u =
      { s with stations := Tab.mapAll (fun _ v => v.rebuilt s.hall) s.stations } := ⟨_, rfl⟩
  obtain ⟨v, hv⟩ : ∃ v, v = allStations.foldl (fun s k => s.refreshDegraded k) u := ⟨_, rfl⟩
  obtain ⟨t, ht⟩ : ∃ t, t = allStations.foldl (fun s k => s.derive k) v := ⟨_, rfl⟩
  have hrebuild : s.rebuildStations = t := by
    rw [ht, hv, hu]
    rfl
  rw [hrebuild]
  have hnodup : allStations.Nodup := List.nodup_finRange 64
  have hall : ∀ k, k ∈ allStations := List.mem_finRange
  obtain ⟨hvonly, hvk⟩ := State.stations_refresh allStations hnodup u
  obtain ⟨htonly, htk⟩ := State.stations_derive allStations hnodup v
  rw [← hv] at hvonly hvk
  rw [← ht] at htonly htk
  have huonly : s.OnlyStations u := by rw [hu]; rfl
  have huk : ∀ k, u.station k = (s.station k).rebuilt s.hall := fun k => by
    rw [hu]
    exact Tab.get_mapAll (fun _ (v : StationLive) => v.rebuilt s.hall) s.stations k
  have hvstation : ∀ k, v.station k =
      { (s.station k).rebuilt s.hall with degraded := u.degradedNow k } := fun k => by
    rw [hvk, if_pos (hall k), huk]
  have hvstate : ∀ k, (v.station k).state = .unmonitored := fun k => by
    rw [hvstation]
    rfl
  have htstation : ∀ k, t.station k = if v.derivedState k ≠ .unmonitored then
      (v.station k).change (v.derivedState k) v.hall v.now (v.stallStart k)
        else v.station k := fun k => by
    have h := htk k
    rw [hvstate] at h
    by_cases hne : v.derivedState k ≠ .unmonitored
    · rw [if_pos ⟨hall k, hne⟩] at h
      rw [if_pos hne, h]
    · rw [if_neg fun hand => hne hand.2] at h
      rw [if_neg hne, h]
  have hreported : ∀ k, (v.station k).reported = none := fun k => by rw [hvstation]; rfl
  have harmed : ∀ k, (v.station k).armed = none := fun k => by rw [hvstation]; rfl
  have hmemory : ∀ k, (v.station k).memory = none := fun k => by rw [hvstation]; rfl
  have hexpiry : ∀ k, (v.station k).stallExpiry = none := fun k => by rw [hvstation]; rfl
  have htally : ∀ k, (v.station k).tally = (s.station k).tally := fun k => by rw [hvstation]; rfl
  have hderived : ∀ k, (t.station k).state = v.derivedState k := fun k => by
    rw [htstation]
    by_cases hne : v.derivedState k ≠ .unmonitored
    · rw [if_pos hne, (StationLive.change_rest _ _ _ _ _).1]
    · rw [if_neg hne, hvstate, not_not.mp hne]
  have hstart : ∀ k, v.stallStart k = s.stallStart k := fun k => by
    rw [hvonly, huonly]
    rfl
  refine ⟨huonly.trans (hvonly.trans htonly), fun k => ?_, fun k => ?_, fun k => ?_, fun k => ?_,
    fun k => ?_, fun k => ?_⟩
  · rw [hderived, State.derivedState_fix htonly (hderived k)]
  all_goals
    obtain ⟨hcreported, hcarmed, hcmemory⟩ := StationLive.change_rebuilt (hreported k) (harmed k)
      (hmemory k) (hvstate k) (v.derivedState k) v.hall v.now (v.stallStart k)
    obtain ⟨-, hctally, -, -, hcexpiry⟩ := StationLive.change_rest (v.station k) (v.derivedState k)
      v.hall v.now (v.stallStart k)
  · rw [htstation]
    split
    · exact hcreported
    · exact hreported k
  · rw [htstation]
    split
    · exact hcarmed
    · exact harmed k
  · rw [htstation]
    split
    · exact hcmemory
    · exact hmemory k
  · rw [hderived, ← hstart, htstation]
    by_cases hne : v.derivedState k ≠ .unmonitored
    · rw [if_pos hne, hcexpiry]
    · rw [if_neg hne, hexpiry, not_not.mp hne]
      exact (if_neg StationState.noConfusion).symm
  · rw [htstation]
    split
    · refine ⟨v.now - (v.station k).since, ?_⟩
      rw [hctally, StationLive.tallyAt, hvstate, htally]
    · refine ⟨0, ?_⟩
      rw [htally]
      cases (s.station k).tally with
      | none => rfl
      | some y => exact congrArg some (StationTally.addTime_zero y .unmonitored).symm

/-! ### The refusals of a recall (R173) -/

section Recall

variable {s : State}

theorem recallOwner_inService {n : LineId} (hn : s.inService n = true)
    (hfirst : ∀ m, m < n → s.inService m = false) :
    recallOwner s = (s, .refused ⟨.inService, idByte n⟩) := by
  have hany : allLines.any s.inService = true :=
    List.any_eq_true.mpr ⟨n, (by decide : ∀ n, n ∈ allLines) n, hn⟩
  have hfind : allLines.find? s.inService = some n := by
    rw [(by decide : allLines = List.finRange 8), ← Fin.find?_eq_find?_finRange,
      Fin.find?_eq_some_iff]
    exact ⟨hn, hfirst⟩
  have hrefusal : recallRefusal s = some ⟨.inService, idByte n⟩ := by
    rw [recallRefusal, hfind]
    rfl
  unfold recallOwner
  rw [if_pos hany]
  unfold checked
  rw [hrefusal]

theorem anyInService_false (h : ∀ n, s.inService n = false) : allLines.any s.inService = false :=
  List.any_eq_false.mpr fun n _ => by
    rw [h n]
    exact Bool.false_ne_true

/-- The state in which the image was examined. -/
def State.examined (s : State) : State := { s with imageStatus := imageExamined s.image }

/-- Where no line is in service the image is examined (R173). -/
theorem recallRefusal_examined (h : ∀ n, s.inService n = false) : recallRefusal s.examined =
    refuseIf (imageExamined s.image ≠ .good) .notFound 0 := by
  have hfind : allLines.find? s.examined.inService = none :=
    List.find?_eq_none.mpr fun n _ => by
      rw [show s.examined.inService n = s.inService n from rfl, h n]
      exact Bool.false_ne_true
  rw [recallRefusal, hfind]
  change firstRefusal [none, refuseIf (imageExamined s.image ≠ .good) .notFound 0] = _
  rw [firstRefusal_none]
  cases refuseIf (imageExamined s.image ≠ .good) .notFound 0 <;> rfl

theorem recallOwner_notFound (h : ∀ n, s.inService n = false) (hbad : imageExamined s.image ≠ .good) :
    recallOwner s = (s.examined, .refused ⟨.notFound, 0⟩) := by
  have hrefusal : recallRefusal s.examined = some ⟨.notFound, 0⟩ := by
    rw [recallRefusal_examined h]
    exact refuseIf_eq_some (decide_eq_true hbad) _ _
  unfold recallOwner
  rw [anyInService_false h, if_neg Bool.false_ne_true]
  change checked recallRefusal _ s.examined = _
  unfold checked
  rw [hrefusal]

theorem recallOwner_done (h : ∀ n, s.inService n = false) {i : Image} (hi : s.image = some i)
    (hgood : imageExamined s.image = .good) :
    recallOwner s = (s.examined.recall i.contents, .done [1]) := by
  have hrefusal : recallRefusal s.examined = none := by
    rw [recallRefusal_examined h]
    exact refuseIf_eq_none (decide_eq_false fun hne => hne hgood) _ _
  have himage : s.examined.image = some i := hi
  have hstatus : s.examined.imageStatus = .good := hgood
  unfold recallOwner
  rw [anyInService_false h, if_neg Bool.false_ne_true]
  change checked recallRefusal _ s.examined = _
  unfold checked
  simp only [hrefusal, himage, hstatus]
  rfl

theorem exec_recallSettings_refused (h : s.Takes .recallSettings) {u : State} {r : Refused}
    (hr : recallOwner s = (u, .refused r)) : exec .recallSettings s =
      .next (u.owe (some ⟨0xFF, [0x29, r.reason.code, r.detail]⟩)) := by
  refine congrArg Host.Outcome.next ((State.serve_owner h.receives (h.commonRefusal none none) _).trans ?_)
  rw [hr]
  rfl

theorem exec_recallSettings_done (h : s.Takes .recallSettings) {u : State} {body : List Byte}
    (hr : recallOwner s = (u, .done body)) : exec .recallSettings s =
      .next (u.owe (some ⟨0xA9, body⟩)) := by
  refine congrArg Host.Outcome.next ((State.serve_owner h.receives (h.commonRefusal none none) _).trans ?_)
  rw [hr]
  rfl

end Recall

/-! ### The recall (R173, R36) -/

/-- The state before the stations are rebuilt and the next boundary is formed. -/
def State.recalled (s : State) (g : Settings) : State :=
  { s with
    settings := g
    guardMode := g.storedGuard.mode
    points := Tab.mapAll (fun _ _ => PointAcq.restarted) s.points
    installed := g.slots
    awaitsFrame := true
    inputs := Tab.mapAll (fun _ a => a.restart) s.inputs
    clock := { s.clock with windowEnd := windowEndAfter g.window s.now } }

theorem State.recall_eq (s : State) (g : Settings) :
    s.recall g = (s.recalled g).rebuildStations.formBoundary := rfl

/-- Settles O37: the refusals of a recall, and what it takes from a good image. -/
theorem settingsAreRecalled : Obligations.SettingsAreRecalled := by
  unfold Obligations.SettingsAreRecalled
  refine fun s h => ⟨fun n hn hfirst => ?served, fun hidle => ⟨fun hnone => ?blank,
    fun g check himage hcheck => ?damaged, fun g himage => ?good⟩⟩
  case served => exact exec_recallSettings_refused h (recallOwner_inService hn hfirst)
  case blank =>
    have hbad : imageExamined s.image ≠ .good := by
      rw [hnone]
      exact ImageStatus.noConfusion
    refine (exec_recallSettings_refused h (recallOwner_notFound hidle hbad)).trans ?_
    rw [State.examined, hnone]
    rfl
  case damaged =>
    have hdamaged : imageExamined s.image = .damaged := by
      rw [himage]
      exact imageExamined_damaged hcheck
    have hbad : imageExamined s.image ≠ .good := by
      rw [hdamaged]
      exact ImageStatus.noConfusion
    refine (exec_recallSettings_refused h (recallOwner_notFound hidle hbad)).trans ?_
    rw [State.examined, hdamaged]
    rfl
  case good =>
    have hgood : imageExamined s.image = .good := by
      rw [himage]
      exact imageExamined_good g
    rw [exec_recallSettings_done h (recallOwner_done hidle himage hgood)]
    have hrecall := s.examined.recall_eq g
    obtain ⟨u, hu⟩ : ∃ u, u = (s.examined.recalled g).rebuildStations := ⟨_, rfl⟩
    have hbuilt : (s.examined.recalled g).RebuildsAll u := by
      rw [hu]
      exact State.rebuildsAll _
    rw [← hu] at hrecall
    have honly := hbuilt.only
    unfold State.OnlyStations at honly
    have hstart : ∀ k, (s.examined.recalled g).stallStart k = none := fun k => by
      refine if_neg (Bool.eq_false_iff.mp ?_)
      unfold State.stationServed
      split
      next n _ => exact hidle n
      next => rfl
    refine ⟨_, rfl, ?_⟩
    dsimp only
    rw [hrecall]
    clear hrecall hu
    have hlines : u.lines = s.lines := by rw [honly]; rfl
    have hpoint : ∀ p, u.point p = PointAcq.restarted := fun p => by
      rw [honly]
      exact Tab.get_mapAll (fun _ (_ : PointAcq) => PointAcq.restarted) s.points p
    have hinput : ∀ i, u.input i = (s.input i).restart := fun i => by
      rw [honly]
      exact Tab.get_mapAll (fun _ (a : InputAcq) => a.restart) s.inputs i
    have hderived : ∀ r k, (u.formBoundary.owe r).derivedState k = u.derivedState k :=
      fun _ _ => rfl
    have hexpiry : ∀ k, (u.station k).stallExpiry = none := fun k => by
      rw [hbuilt.stallExpiry, hstart, ite_self]
    refine ⟨by rw [honly]; rfl, ?_, by rw [honly]; rfl, by rw [honly]; rfl, by rw [honly]; rfl,
      fun p => ?_, fun i => ?_, fun k => ⟨hbuilt.reported k, hbuilt.armed k, hbuilt.memory k,
        hexpiry k, hbuilt.state k⟩, hlines, by rw [honly]; rfl, by rw [honly]; rfl,
      by rw [honly]; rfl, by rw [honly]; rfl, by rw [honly]; rfl, by rw [honly]; rfl,
      by rw [honly]; rfl, by rw [honly]; rfl, by rw [honly]; rfl, by rw [honly]; rfl⟩
    · rw [honly]
      exact hgood
    · have hp : (u.formBoundary.owe (some ⟨0xA9, [1]⟩)).point p = PointAcq.restarted := hpoint p
      rw [hp]
      exact ⟨rfl, rfl, rfl, rfl⟩
    · have hi : (u.formBoundary.owe (some ⟨0xA9, [1]⟩)).input i = (s.input i).restart := hinput i
      rw [hi]
      exact ⟨rfl, rfl, rfl, rfl⟩

end Sys2Proof.Machine

/-! COLD-START (R151, R155, R171, R172): what it finds, and the state it begins with. -/

namespace Sys2Proof.Machine

/-! ### The archive (R151, R155) -/

section Archive

variable {es passed rest : List Stored} {e : Stored}

theorem Stored.damaged_iff : e.damaged = true ↔ e.check ≠ crc16 e.bank.contents :=
  decide_eq_true_iff

theorem Stored.damaged_false (h : e.check = crc16 e.bank.contents) : e.damaged = false :=
  decide_eq_false fun hne => hne h

/-- The serial is that of the first undamaged entry (R155). -/
theorem recover_serial (hp : ∀ x ∈ passed, x.check ≠ crc16 x.bank.contents)
    (he : e.check = crc16 e.bank.contents) : (recover (passed ++ e :: rest)).1 = e.bank.serial := by
  induction passed with
  | nil =>
    rw [List.nil_append, recover, Stored.damaged_false he, if_neg Bool.false_ne_true]
  | cons x passed ih =>
    rw [List.cons_append, recover, Stored.damaged_iff.mpr (hp x List.mem_cons_self), if_pos rfl]
    exact ih fun y hy => hp y (List.mem_cons_of_mem x hy)

theorem recover_none (h : ∀ x ∈ es, x.check ≠ crc16 x.bank.contents) : (recover es).1 = 0 := by
  induction es with
  | nil => rfl
  | cons x es ih =>
    rw [recover, Stored.damaged_iff.mpr (h x List.mem_cons_self), if_pos rfl]
    exact ih fun y hy => h y (List.mem_cons_of_mem x hy)

/-- A damaged entry is passed over when it is the newest (R155). -/
theorem recover_passes : (recover es).2 = true ↔ ∃ e rest, es = e :: rest ∧
    e.check ≠ crc16 e.bank.contents := by
  cases es with
  | nil => exact ⟨(fun h => nomatch h), fun ⟨_, _, h, _⟩ => nomatch h⟩
  | cons x es =>
    rw [recover]
    cases hx : x.damaged with
    | true =>
      rw [if_pos rfl]
      exact ⟨fun _ => ⟨x, es, rfl, Stored.damaged_iff.mp hx⟩, fun _ => rfl⟩
    | false =>
      rw [if_neg Bool.false_ne_true]
      refine ⟨(fun h => nomatch h), fun ⟨e, rest, heq, hbad⟩ => ?_⟩
      obtain ⟨rfl, -⟩ := List.cons.inj heq
      rw [Stored.damaged_iff.mpr hbad] at hx
      exact nomatch hx

theorem tearOldest_room {count : Nat} (h : es.length < 8) : tearOldest count es = es := if_pos h

/-- The oldest of eight entries is torn (R151). -/
theorem tearOldest_full {count : Nat} (h : 7 ≤ es.length) :
    tearOldest count (es ++ [e]) = es ++ [e.torn count] := by
  have hlong : ¬ (es ++ [e]).length < 8 := by
    rw [List.length_append, List.length_singleton]
    omega
  refine (if_neg hlong).trans ?_
  rw [List.dropLast_concat, List.getLast?_concat]
  rfl

variable {s : State}

theorem State.archiveFound_whole (h : ∀ n rest, s.queue ≠ .bank n :: rest) :
    s.archiveFound = s.archive := by
  unfold State.archiveFound
  split
  next n rest hq => exact absurd hq (h n rest)
  next => rfl
  next => rfl

theorem State.archiveFound_torn {n : LineId} {rest : List WriteItem} (h : s.queue = .bank n :: rest) :
    s.archiveFound = Tab.modify s.archive n (tearOldest s.now) := by
  simp only [State.archiveFound, h]

theorem State.imageFound_whole (h : ∀ rest, s.queue ≠ .settings :: rest) :
    s.imageFound = s.image := by
  unfold State.imageFound
  split
  next rest hq => exact absurd hq (h rest)
  next => rfl
  next => rfl

end Archive

/-! ### The alerts (R164, R172, R155) -/

theorem coldAlerts_latched : ∀ settings archive : Bool,
    decide (coldAlerts settings archive &&& Alert.bit .clockLost ≠ 0) = true ∧
    decide (coldAlerts settings archive &&& Alert.bit .outage ≠ 0) = false ∧
    decide (coldAlerts settings archive &&& Alert.bit .settingsDamaged ≠ 0) = settings ∧
    decide (coldAlerts settings archive &&& Alert.bit .archiveDamaged ≠ 0) = archive := by
  decide

/-- Some line's newest entry is damaged. -/
theorem anyPassed_iff {archive : Vector (List Stored) 8} :
    (archive.toList.any fun es => (recover es).2) = true ↔
      ∃ n e rest, Tab.get archive n = e :: rest ∧ e.check ≠ crc16 e.bank.contents := by
  rw [List.any_eq_true]
  constructor
  · rintro ⟨es, hes, hpassed⟩
    obtain ⟨j, hj, rfl⟩ := Vector.getElem_of_mem (Vector.mem_toList_iff.mp hes)
    obtain ⟨e, rest, heq, hbad⟩ := recover_passes.mp hpassed
    exact ⟨⟨j, hj⟩, e, rest, heq, hbad⟩
  · rintro ⟨n, e, rest, heq, hbad⟩
    exact ⟨Tab.get archive n, Vector.mem_toList_iff.mpr (Vector.getElem_mem n.isLt),
      recover_passes.mpr ⟨e, rest, heq, hbad⟩⟩

/-! ### The start -/

theorem exec_coldStart {s : State} (hmain : s.power.main = false) (hreset : s.power.reset = false) :
    exec .coldStart s = .next s.cold.rebuildStations := by
  refine congrArg Host.Outcome.next (if_pos ?_)
  rw [hmain, hreset]
  rfl

/-- Settles O60: the state a cold start makes; the archive, the image and the alerts it finds. -/
theorem coldStartsBeginAfresh : Obligations.ColdStartsBeginAfresh := by
  unfold Obligations.ColdStartsBeginAfresh
  intro s hmain hreset
  rw [exec_coldStart hmain hreset]
  have hbuilt := State.rebuildsAll s.cold
  generalize s.cold.rebuildStations = t at hbuilt
  have honly := hbuilt.only
  unfold State.OnlyStations at honly
  have harchive : t.archive = s.archiveFound := by rw [honly]; rfl
  have himage : t.image = s.imageFound := by rw [honly]; rfl
  have hstatus : t.imageStatus = imageExamined s.imageFound := by rw [honly]; rfl
  have hsettings : t.settings = settingsFound s.imageFound := by rw [honly]; rfl
  have hline : ∀ n, t.line n = LineLive.cold (recover (Tab.get t.archive n)).1 := fun n => by
    rw [harchive, honly]
    exact Tab.get_mapAll (fun _ es => LineLive.cold (recover es).1) s.archiveFound n
  have halerts : t.alerts = coldAlerts (decide (t.imageStatus = .damaged))
      (t.archive.toList.any fun es => (recover es).2) := by
    rw [hstatus, harchive, honly]
    rfl
  obtain ⟨hclock, houtage, hdamaged, hpassed⟩ := coldAlerts_latched
    (decide (t.imageStatus = .damaged)) (t.archive.toList.any fun es => (recover es).2)
  rw [← halerts] at hclock houtage hdamaged hpassed
  refine ⟨t, rfl, by rw [honly]; rfl, by rw [honly]; rfl, by rw [honly]; rfl, by rw [honly]; rfl,
    by rw [honly]; rfl, by rw [honly]; rfl, by rw [honly]; rfl, by rw [honly]; rfl, hclock, houtage,
    by rw [honly]; rfl, by rw [honly]; rfl, by rw [honly]; rfl, by rw [honly]; rfl,
    by rw [honly]; rfl, fun p => ?point, fun i => ?input, fun k => ?station, fun n => ?line,
    by rw [honly]; rfl, by rw [honly]; rfl, by rw [honly]; rfl, by rw [honly]; rfl,
    by rw [honly]; rfl, fun hwhole => ?whole, fun n rest hq => ?torn,
    fun n passed e rest hes hbad hgood => ?serial, fun n hbad => ?noSerial, ?passedOver, ?settings,
    fun rest hq => ?image, fun hwhole => ?kept⟩
  case point =>
    have hp : t.point p = PointAcq.restarted := by
      rw [honly]
      exact Tab.get_replicate PointAcq.restarted p
    rw [hp]
    rfl
  case input =>
    have hi : t.input i = InputAcq.cold := by
      rw [honly]
      exact Tab.get_replicate InputAcq.cold i
    rw [hi]
    exact ⟨rfl, rfl⟩
  case station =>
    obtain ⟨e, he⟩ := hbuilt.tally k
    have hcold : (s.cold.station k).tally = none :=
      congrArg StationLive.tally (Tab.get_replicate StationLive.cold k)
    rw [hcold] at he
    exact ⟨hbuilt.state k, he, hbuilt.memory k⟩
  case line =>
    rw [hline]
    exact ⟨rfl, rfl, rfl, rfl, rfl⟩
  case whole => rw [harchive, State.archiveFound_whole hwhole]
  case torn =>
    rw [harchive, State.archiveFound_torn hq]
    refine ⟨fun m hm => Tab.get_modify_ne _ hm _, fun hroom => ?_, fun es e hes hfull => ?_⟩
    · unfold Tab.modify
      rw [tearOldest_room hroom, Tab.set_get]
    · refine ⟨e.torn s.now, ?_, Stored.damaged_iff.mp (Stored.torn_damaged e s.now)⟩
      rw [Tab.get_modify_same, hes, tearOldest_full hfull]
  case serial =>
    rw [hline, hes]
    exact recover_serial hbad hgood
  case noSerial =>
    rw [hline]
    exact recover_none hbad
  case passedOver =>
    rw [State.latched, hpassed]
    exact anyPassed_iff
  case settings =>
    rw [State.latched, hdamaged]
    exact decide_eq_true_iff
  case image =>
    have hfound := State.imageFound_interrupted hq
    have hbad := tornImage_damaged (s.settingsCopy.getD s.settings) s.image s.now
    refine ⟨?_, ?_, (tornImage (s.settingsCopy.getD s.settings) s.image s.now).contents,
      (tornImage (s.settingsCopy.getD s.settings) s.image s.now).check, ?_, ?_,
      fun new old hnew hold => ?_⟩
    · rw [hstatus, hfound]
      exact if_pos hbad
    · rw [hsettings, hfound]
      exact if_pos hbad
    · rw [himage, hfound]
    · exact of_decide_eq_true hbad
    · rw [hnew, hold]
      exact tornImage_partOf _ old s.now
  case kept =>
    rw [himage, hstatus, hsettings, State.imageFound_whole hwhole]
    refine ⟨rfl, fun hnone => ?_, fun g hg => ?_, fun g check hg hcheck => ?_⟩
    · rw [hnone]
      exact ⟨rfl, rfl⟩
    · rw [hg]
      exact ⟨imageExamined_good g, settingsFound_good g⟩
    · rw [hg]
      exact ⟨imageExamined_damaged hcheck, settingsFound_damaged hcheck⟩

end Sys2Proof.Machine

/-! What the operations of a warm start on one line leave of the other lines (R93, R154), and the operations
of all the lines one after another. -/

namespace Sys2Proof.Machine

/-! ### The operations on one line -/

section Turns

variable (s : State) (n : LineId)

theorem State.LineTurn.modLine (f : LineLive → LineLive) : s.LineTurn (s.modLine n f) n :=
  ⟨.modLine s n f, fun _ => id, .refl n _, fun _ _ _ => rfl⟩

theorem JournalTurn.enter {j : List JournalRecord} {r : JournalRecord} (hr : r.line = n) :
    JournalTurn n j ((if j.length < 192 then j else j.tail) ++ [r]) :=
  ⟨_, id, .inr ⟨r, hr, rfl⟩, (List.map_id _).symm, fun _ => ⟨rfl, fun _ => rfl⟩⟩

theorem State.closeRecord_none {s : State} {n : LineId} (h : (s.line n).openRecord = none)
    (kind : CloseKind) (t : Nat) : s.closeRecord n kind t = s := by
  unfold State.closeRecord
  rw [h]

theorem LineLive.slot_of_openRecord {l : LineLive} {r : Stoppage} {m : Nat}
    (h : l.openRecord = some (r, m)) : l.slot = some r ∧ r.kind = .record m := by
  unfold LineLive.openRecord at h
  split at h
  next q hq =>
    split at h
    next i hk =>
      obtain ⟨rfl, rfl⟩ := Prod.mk.inj (Option.some.inj h)
      exact ⟨hq, hk⟩
    next => exact nomatch h
  next => exact nomatch h

theorem State.LineTurn.closeRecord (kind : CloseKind) (t : Nat) :
    s.LineTurn (s.closeRecord n kind t) n := by
  cases h : (s.line n).openRecord with
  | none =>
    rw [State.closeRecord_none h]
    exact .refl s n
  | some q =>
    obtain ⟨r, m⟩ := q
    have hslot := (LineLive.slot_of_openRecord h).1
    refine ⟨.closeRecord s n kind t, fun w hw => ?_, ?_, fun k hk _ =>
      State.station_closeRecord_ne h (fun c hc => hk r c hslot hc) kind t⟩
    · rw [(State.closeRecord_queue h kind t).1]
      exact hw
    · rw [State.closeRecord_journal h]
      exact .enter n rfl

theorem State.endMicro_none {s : State} {n : LineId} (h : (s.line n).slot = none) (t : Nat) :
    s.endMicro n t = s := by
  unfold State.endMicro
  rw [h]

theorem State.station_endMicro_ne {s : State} {n : LineId} {r : Stoppage}
    (h : (s.line n).slot = some r) {k : StationId} (hk : ∀ c ∈ r.contributors, c.station ≠ k)
    (t : Nat) : (s.endMicro n t).station k = s.station k := by
  rw [State.endMicro_eq h, State.station_creditRoots_ne fun c hc => ?_]
  · rfl
  · obtain ⟨d, hd, hst⟩ := sealLast_stations hc
    exact hst ▸ hk d hd

theorem State.LineTurn.endMicro (t : Nat) : s.LineTurn (s.endMicro n t) n := by
  cases h : (s.line n).slot with
  | none =>
    rw [State.endMicro_none h]
    exact .refl s n
  | some r =>
    have hrest := State.endMicro_rest h t
    refine ⟨.endMicro s n t, fun w hw => ?_, ?_, fun k hk _ =>
      State.station_endMicro_ne h (fun c hc => hk r c h hc) t⟩
    · rw [hrest]
      exact hw
    · rw [hrest]
      exact .refl n _

/-- A turn goes on with the line's own record and the tallies of its members. -/
theorem State.LineTurn.andThen {s u t : State} {n : LineId} (h : s.LineTurn u n)
    (honly : u.OnlyLine t n) (hq : ∀ w ∈ u.queue, w ∈ t.queue) (hj : t.journal = u.journal)
    (hk : ∀ k, k ∉ s.members n → t.station k = u.station k) : s.LineTurn t n where
  only := h.only.trans honly
  queue := fun w hw => hq w (h.queue w hw)
  journal := by rw [hj]; exact h.journal
  untouched := fun k hc hm => (hk k hm).trans (h.untouched k hc hm)

theorem State.LineTurn.thenLine {s u : State} {n : LineId} (h : s.LineTurn u n)
    (f : LineLive → LineLive) : s.LineTurn (u.modLine n f) n :=
  h.andThen (.modLine u n f) (fun _ => id) rfl fun _ _ => rfl

theorem State.LineTurn.resumeLine (f : Nat) : s.LineTurn (s.resumeLine f n) n := by
  unfold State.resumeLine State.placeResuming
  split
  · exact (State.LineTurn.refl s n).thenLine _
  · exact (State.LineTurn.endMicro s n f).thenLine _
  · exact (State.LineTurn.closeRecord s n .outage f).thenLine _
  all_goals exact .refl s n

theorem State.LineTurn.resumePlan : s.LineTurn (s.resumePlan n) n := by
  unfold State.resumePlan State.rebook
  split
  · exact ((State.LineTurn.refl s n).thenLine _).thenLine _
  · exact .refl s n

theorem State.LineTurn.settleLine : s.LineTurn (s.settleLine n) n := by
  unfold State.settleLine
  split
  · rw [State.evaluate_eq]
    exact .modLine s n _
  · exact .refl s n

theorem State.LineTurn.settleSlot (t : Nat) : s.LineTurn (s.settleSlot n t) n := by
  cases h : (s.line n).slot with
  | none =>
    rw [State.settleSlot_none h]
    exact .refl s n
  | some r =>
    cases hk : r.kind with
    | record m =>
      rw [State.settleSlot_record h hk]
      exact .closeRecord s n _ t
    | candidate e =>
      rw [State.settleSlot_candidate h hk]
      have hpromote := State.promote_eq h t
      have hclose := State.LineTurn.closeRecord (s.promote n t) n .shiftEnd t
      rw [hpromote] at hclose ⊢
      refine ⟨(State.OnlyLine.modLine s n _).trans hclose.only, hclose.queue, hclose.journal,
        fun k hc hm => hclose.untouched k (fun q c hq hin => ?_) hm⟩
      rw [State.line_modLine_same] at hq
      obtain rfl := Option.some.inj
        (hq : some { r with kind := .record (s.line n).nextNumber } = some q)
      exact hc r c h hin

theorem State.LineTurn.closeShift (reason : CloseReason) (deferred : Bool) (t : Nat) :
    s.LineTurn (s.closeShift n reason deferred t) n := by
  have hclose : s.closeShift n reason deferred t = ((s.settleSlot n t).lapseShift n
    ((s.settleSlot n t).line n).serial).stage n reason deferred t := rfl
  have hsettle := State.LineTurn.settleSlot s n t
  rw [hclose]
  clear hclose
  generalize s.settleSlot n t = u at hsettle ⊢
  have hlapse : s.LineTurn (u.lapseShift n (u.line n).serial) n := by
    refine ⟨hsettle.only.trans (.lapseShift u n _), hsettle.queue, ?_, hsettle.untouched⟩
    obtain ⟨base, g, hbase, hg, hkeep⟩ := hsettle.journal
    refine ⟨base, (fun r => if r.line = n ∧ r.serial = (u.line n).serial then r.lapse else r) ∘ g,
      hbase, ?_, fun x => ?_⟩
    · rw [State.lapseShift, hg, List.map_map]
    · obtain ⟨hline, hsame⟩ := hkeep x
      refine ⟨?_, fun hx => ?_⟩
      · dsimp only [Function.comp]
        split
        · rw [JournalRecord.lapse_rest]
          exact hline
        · exact hline
      · dsimp only [Function.comp]
        rw [hsame hx, if_neg fun hn => hx hn.1]
  obtain ⟨hj, hq, hk⟩ := (u.lapseShift n (u.line n).serial).stage_books n reason deferred t
  exact hlapse.andThen (.stage _ n reason deferred t) hq hj fun k _ => by
    unfold State.station
    rw [hk]

theorem State.LineTurn.turnOutage (o : OutageTurn) : s.LineTurn (s.turnOutage n o) n := by
  have hclose := State.LineTurn.closeShift s n o.reason o.deferred o.closeAt
  unfold State.turnOutage
  extract_lets serial u v
  have hu : s.LineTurn u n := hclose
  have hv : v = u.openShift n serial o.openAt := rfl
  clear_value u v
  obtain ⟨hj, hq, -⟩ := u.openShift_books n serial o.openAt
  rw [hv]
  refine (hu.andThen (.openShift u n serial o.openAt) (by rw [hq]; exact fun _ => id) hj
    fun k hk => u.openShift_station_ne n _ _ ?_).thenLine _
  rw [State.members_of_settings hu.only.same.settings]
  exact hk

theorem State.LineTurn.outageLine (f : Nat) : s.LineTurn (State.outageLine f s n) n := by
  unfold State.outageLine
  split
  · exact .refl s n
  · split
    · exact .refl s n
    next o _ =>
      have hturn := State.LineTurn.turnOutage s n o
      generalize s.turnOutage n o = u at hturn ⊢
      unfold State.latchIf
      split
      · exact hturn.andThen (.latch _ n _) (fun _ => id) rfl fun _ _ => rfl
      · exact hturn

end Turns

/-! ### All the lines in order -/

/-- What the turns of other lines leave of line `n`, and of its members that no other line charges. -/
structure State.Beside (s0 s t : State) (n : LineId) : Prop extends s.OthersTurned t n 8 where
  kept : ∀ k ∈ s0.members n, s0.ChargedOnlyBy n k → t.station k = s.station k

theorem State.Recent.mono {s : State} {j : JournalRecord} {m m' : Nat} (h : s.Recent j m)
    (hm : m ≤ m') : s.Recent j m' := by
  obtain ⟨before, after, hs, hlen⟩ := h
  exact ⟨before, after, hs, hlen.trans hm⟩

theorem State.OthersTurned.mono {s t : State} {n : LineId} {c c' : Nat}
    (h : s.OthersTurned t n c) (hc : c ≤ c') : s.OthersTurned t n c' :=
  { h with
    recent := fun j m hj hm hn => (h.recent j m hj (by omega) hn).mono (by omega) }

/-- A line's turn among all of them: what those before it and those after it leave of it. -/
theorem State.beside_of_all {f : State → LineId → State} (hf : ∀ s n, State.LineTurn s (f s n) n)
    (s : State) (n : LineId) :
    ∃ (a : State) (after : List LineId), s.Beside s a n ∧ s.Beside (f a n) (allLines.foldl f s) n ∧
      allLines.foldl f s = after.foldl f (f a n) := by
  obtain ⟨before, after, hall⟩ := List.mem_iff_append.mp (mem_allLines n)
  have hnodup : (before ++ n :: after).Nodup := hall ▸ List.nodup_finRange 8
  have hlen : (before ++ n :: after).length = 8 := hall ▸ rfl
  have hcount : before.length + (after.length + 1) = 8 := by simpa using hlen
  obtain ⟨hbefore, hafter, hdisjoint⟩ := List.nodup_append.mp hnodup
  have hnb : n ∉ before := fun h => hdisjoint n h n List.mem_cons_self rfl
  obtain ⟨hna, hafter⟩ := List.nodup_cons.mp hafter
  have hfirst := State.othersTurned hf before hnb s
  have hturn := hf (before.foldl f s) n
  have hlines : ∀ m ∈ after, (f (before.foldl f s) n).line m = s.line m := fun m hm =>
    (hturn.only.others m fun h => hna (h ▸ hm)).trans
      (State.othersTurned hf before (fun h => hdisjoint m h m (List.mem_cons_of_mem n hm) rfl) s).line
  refine ⟨before.foldl f s, after, ⟨hfirst.mono (by omega), fun k hk hcharged =>
    State.station_othersTurned hf before hbefore hnb s hk fun m hm r c =>
      hcharged m r c fun h => hnb (h ▸ hm)⟩, ?_⟩
  rw [hall, List.foldl_append, List.foldl_cons]
  refine ⟨⟨(State.othersTurned hf after hna _).mono (by omega), fun k hk hcharged =>
    State.station_othersTurned hf after hafter hna _ ?_ fun m hm r c hr =>
      hcharged m r c (fun h => hna (h ▸ hm)) (hlines m hm ▸ hr)⟩, rfl⟩
  rw [State.members_of_settings (hturn.only.same.settings.trans hfirst.same.settings)]
  exact hk

end Sys2Proof.Machine

/-! The lines at a warm start, treated at the failure instant (R75, R93, R102): candidates end as
micro-stops, records close, and the lines in service wait in RESUMING. -/

namespace Sys2Proof.Machine

/-! ### One line -/

/-- The record of a line treated at the failure instant `f`, at a start whose stamp is `stamp`. -/
def LineLive.resumed (l : LineLive) (f stamp : Nat) : LineLive :=
  match l.state with
  | .running => { l with state := .resuming, stamp }
  | .pendingStop =>
    { l with state := .resuming, stamp, slot := none, bank := l.bank.map fun b => b.endMicro f }
  | .down => { l with state := .resuming, stamp, slot := none }
  | .resuming => l
  | .planned => l
  | .outOfService => l

theorem LineLive.pending_slot {l : LineLive} (h : l.coherent = true) (hst : l.state = .pendingStop) :
    ∃ r e, l.slot = some r ∧ r.kind = .candidate e := by
  obtain ⟨hslot, -, -⟩ := (l.coherent_iff.mp h).pending hst
  obtain ⟨r, hr, hrec⟩ := Option.map_eq_some_iff.mp
    (show l.slot.map Stoppage.isRecord = some false from hslot)
  cases hk : r.kind with
  | candidate e => exact ⟨r, e, hr, hk⟩
  | record m =>
    rw [Stoppage.isRecord, hk] at hrec
    exact nomatch hrec

theorem LineLive.down_slot {l : LineLive} (h : l.coherent = true) (hst : l.state = .down) :
    ∃ r m, l.slot = some r ∧ r.kind = .record m := by
  obtain ⟨hslot, -, -⟩ := (l.coherent_iff.mp h).down hst
  obtain ⟨r, hr, hrec⟩ := Option.map_eq_some_iff.mp
    (show l.slot.map Stoppage.isRecord = some true from hslot)
  cases hk : r.kind with
  | record m => exact ⟨r, m, hr, hk⟩
  | candidate e =>
    rw [Stoppage.isRecord, hk] at hrec
    exact nomatch hrec

/-- A coherent line with a candidate is in PENDING-STOP, and one with a record in DOWN. -/
theorem LineLive.state_of_slot {l : LineLive} (h : l.coherent = true) {r : Stoppage}
    (hr : l.slot = some r) : ((∃ e, r.kind = .candidate e) ∧ l.state = .pendingStop) ∨
      (∃ m, r.kind = .record m) ∧ l.state = .down := by
  have hslot : l.shape.slot = some r.isRecord := by rw [LineLive.shape, hr]; rfl
  obtain ⟨hstate, -, -⟩ := (l.coherent_iff.mp h).of_slot hslot
  cases hk : r.kind with
  | candidate e =>
    rw [Stoppage.isRecord, hk] at hstate
    exact .inl ⟨⟨e, rfl⟩, hstate⟩
  | record m =>
    rw [Stoppage.isRecord, hk] at hstate
    exact .inr ⟨⟨m, rfl⟩, hstate⟩

section ResumeLine

variable {s : State} {n : LineId} {f : Nat}

theorem State.resumeLine_pending (hst : (s.line n).state = .pendingStop) :
    s.resumeLine f n = (s.endMicro n f).placeResuming n := by
  unfold State.resumeLine
  simp only [hst]

theorem State.resumeLine_down (hst : (s.line n).state = .down) :
    s.resumeLine f n = (s.closeRecord n .outage f).placeResuming n := by
  unfold State.resumeLine
  simp only [hst]

theorem State.line_placeResuming (s : State) (n : LineId) :
    (s.placeResuming n).line n = { s.line n with state := .resuming, stamp := s.hall } :=
  State.line_modLine_same s n _

theorem State.line_resumeLine (h : (s.line n).coherent = true) :
    (s.resumeLine f n).line n = (s.line n).resumed f s.hall := by
  unfold LineLive.resumed
  cases hst : (s.line n).state with
  | pendingStop =>
    obtain ⟨r, e, hr, -⟩ := LineLive.pending_slot h hst
    rw [State.resumeLine_pending hst, State.line_placeResuming, State.line_endMicro hr,
      State.hall_of_clock (State.OnlyLine.endMicro s n f).same.clock]
  | down =>
    obtain ⟨r, m, hr, hk⟩ := LineLive.down_slot h hst
    rw [State.resumeLine_down hst, State.line_placeResuming,
      State.line_closeRecord (LineLive.openRecord_of_record hr hk),
      State.hall_of_clock (State.OnlyLine.closeRecord s n .outage f).same.clock]
  | running =>
    simp only [State.resumeLine, hst]
    exact State.line_placeResuming s n
  | resuming => simp only [State.resumeLine, hst]
  | planned => simp only [State.resumeLine, hst]
  | outOfService => simp only [State.resumeLine, hst]

/-- The stoppage in the slot is charged to its stations at the failure instant (R63). -/
theorem State.resumeLine_charged (h : (s.line n).coherent = true) {r : Stoppage}
    (hr : (s.line n).slot = some r) {k : StationId} {y : StationTally}
    (hy : (s.station k).tally = some y) :
    ∃ z, ((s.resumeLine f n).station k).tally = some z ∧ y.Charged z r k (r.contributorsAt f) := by
  obtain ⟨⟨e, hk⟩, hst⟩ | ⟨⟨m, hk⟩, hst⟩ := LineLive.state_of_slot h hr
  · rw [State.resumeLine_pending hst]
    obtain ⟨z, hz, heq, hcount⟩ := State.endMicro_credited hr f k y hy
    refine ⟨z, hz, fun e' _ => ?_, fun m' hm => nomatch hk.symm.trans hm⟩
    refine ⟨by rw [heq], hcount, by rw [heq], by rw [heq]⟩
  · rw [State.resumeLine_down hst]
    obtain ⟨z, hz, heq, hcount⟩ :=
      State.closeRecord_credited (LineLive.openRecord_of_record hr hk) .outage f k y hy
    refine ⟨z, hz, fun e' he => (nomatch hk.symm.trans he), fun m' _ => ?_⟩
    refine ⟨by rw [heq], hcount, by rw [heq], by rw [heq]⟩

theorem State.resumeLine_entered (hst : (s.line n).state = .down) {r : Stoppage} {m : Nat}
    (hr : (s.line n).slot = some r) (hk : r.kind = .record m) :
    (s.resumeLine f n).journal.getLast? = some (s.closedRecord n r m .outage f) := by
  have hplace : ∀ u : State, (u.placeResuming n).journal = u.journal := fun _ => rfl
  rw [State.resumeLine_down hst, hplace,
    State.closeRecord_journal (LineLive.openRecord_of_record hr hk), List.getLast?_concat]

end ResumeLine

/-! ### The journal -/

/-- The journal of `t` is that of `s`, with some of its records lapsed. -/
def State.JournalLapses (s t : State) : Prop :=
  ∃ g, t.journal = s.journal.map g ∧ ∀ x : JournalRecord, g x = x ∨ g x = x.lapse

theorem State.JournalLapses.of_eq {s t : State} (h : t.journal = s.journal) : s.JournalLapses t :=
  ⟨id, by rw [h, List.map_id], fun _ => .inl rfl⟩

theorem State.JournalLapses.trans {s t u : State} (h : s.JournalLapses t) (h' : t.JournalLapses u) :
    s.JournalLapses u := by
  obtain ⟨g, hg, hlapse⟩ := h
  obtain ⟨g', hg', hlapse'⟩ := h'
  refine ⟨g' ∘ g, by rw [hg', hg, List.map_map], fun x => ?_⟩
  rcases hlapse x with hx | hx <;> rcases hlapse' (g x) with hx' | hx'
  · exact .inl (hx'.trans hx)
  · exact .inr (hx'.trans (congrArg JournalRecord.lapse hx))
  · exact .inr (hx'.trans hx)
  · refine .inr (hx'.trans ?_)
    rw [hx, JournalRecord.lapse_of_settled x.settled_lapse]

/-- A lapsing keeps a record but for its state. -/
theorem State.JournalLapses.kept {s t : State} (h : s.JournalLapses t) {j : JournalRecord}
    (hj : j ∈ s.journal) : ∃ j' ∈ t.journal, j' = { j with state := j'.state } := by
  obtain ⟨g, hg, hlapse⟩ := h
  refine ⟨g j, by rw [hg]; exact List.mem_map_of_mem hj, ?_⟩
  rcases hlapse j with hx | hx
  · rw [hx]
  · rw [hx]
    exact j.lapse_rest

/-- A record unsettled after a lapsing was so before it. -/
theorem State.JournalLapses.unconfirmed {s t : State} (h : s.JournalLapses t) {j : JournalRecord}
    (hj : j ∈ t.journal) {e : Nat} (he : j.state = .unconfirmed e) : j ∈ s.journal := by
  obtain ⟨g, hg, hlapse⟩ := h
  rw [hg] at hj
  obtain ⟨x, hx, rfl⟩ := List.mem_map.mp hj
  rcases hlapse x with hgx | hgx
  · rw [hgx]
    exact hx
  · have hsettled := x.settled_lapse
    rw [← hgx, he] at hsettled
    exact nomatch hsettled

theorem State.JournalLapses.lapseShift (s : State) (n : LineId) (serial : Nat) :
    s.JournalLapses (s.lapseShift n serial) := by
  refine ⟨_, rfl, fun x => ?_⟩
  split
  · exact .inr rfl
  · exact .inl rfl

theorem State.JournalLapses.lapseDue (s : State) (t : Nat) : s.JournalLapses (s.lapseDue t) := by
  refine ⟨_, rfl, fun x => ?_⟩
  split
  · exact .inr rfl
  · exact .inl rfl

/-- After a lapsing at `t` every deadline lies beyond it (R102). -/
theorem State.lapseDue_unexpired (s : State) {t e : Nat} {j : JournalRecord}
    (hj : j ∈ (s.lapseDue t).journal) (he : j.state = .unconfirmed e) : t < e := by
  obtain ⟨x, hx, rfl⟩ := List.mem_map.mp hj
  by_cases hdue : x.due t = true
  · rw [if_pos hdue] at he
    have hsettled := x.settled_lapse
    rw [he] at hsettled
    exact nomatch hsettled
  · rw [if_neg hdue] at he
    unfold JournalRecord.due at hdue
    rw [he] at hdue
    exact not_le.mp fun hle => hdue (decide_eq_true hle)

/-! ### All the lines -/

/-- The lines in the state `u` after all of them are treated at the failure instant `f`. -/
structure State.LinesResumed (s u : State) (f : Nat) : Prop where
  same : s.SameButLines u
  link : u.link = s.link
  line : ∀ n, u.line n = (s.line n).resumed f s.hall
  charged : ∀ n r k y, (s.line n).slot = some r → k ∈ s.members n → s.ChargedOnlyBy n k →
    (s.station k).tally = some y →
    ∃ z, (u.station k).tally = some z ∧ y.Charged z r k (r.contributorsAt f)
  entered : ∀ n r m, (s.line n).state = .down → (s.line n).slot = some r → r.kind = .record m →
    ∃ j ∈ u.journal, j.line = n ∧ j.serial = r.serial ∧ j.number = m ∧
      j.duration = f - r.startCount ∧ j.contributors = r.contributorsAt f ∧
      j.markers = { r.markers with outage := true }
  unexpired : ∀ j ∈ u.journal, ∀ e, j.state = .unconfirmed e → s.clock.count < e

/-- The lines treated at the failure instant `f`, one after another, and the deadlines that passed. -/
def State.resumeLines (s : State) (f : Nat) : State :=
  (allLines.foldl (fun s n => s.resumeLine f n) s).lapseDue
    (allLines.foldl (fun s n => s.resumeLine f n) s).now

theorem State.linesResumed {s : State} (h : s.Coherent) (f : Nat) :
    s.LinesResumed (s.resumeLines f) f := by
  unfold State.resumeLines
  have hall := State.beside_of_all (f := fun s n => s.resumeLine f n)
    (fun s n => .resumeLine s n f) s
  have hsame : ∀ n, s.SameButLines (allLines.foldl (fun s n => s.resumeLine f n) s) ∧
      (allLines.foldl (fun s n => s.resumeLine f n) s).link = s.link := fun n => by
    obtain ⟨a, -, ha, hb, -⟩ := hall n
    have hturn := State.LineTurn.resumeLine a n f
    exact ⟨ha.same.trans (hturn.only.same.trans hb.same),
      hb.link.trans (hturn.only.link.trans ha.link)⟩
  generalize allLines.foldl (fun s n => s.resumeLine f n) s = u at *
  have hcoherent : ∀ {a n}, s.Beside s a n → (a.line n).coherent = true := fun ha => by
    rw [ha.line]
    exact h _
  refine ⟨⟨(hsame 0).1.settings, (hsame 0).1.points, (hsame 0).1.inputs, (hsame 0).1.installed,
    (hsame 0).1.awaitsFrame, (hsame 0).1.clock, (hsame 0).1.archive, (hsame 0).1.image,
    (hsame 0).1.imageStatus, (hsame 0).1.guardMode, (hsame 0).1.power, (hsame 0).1.pins,
    (hsame 0).1.pending⟩, (hsame 0).2, fun n => ?line, fun n r k y hr hk hc hy => ?charged,
    fun n r m hst hr hkind => ?entered, fun j hj e he => ?unexpired⟩
  case line =>
    obtain ⟨a, -, ha, hb, -⟩ := hall n
    refine hb.line.trans ?_
    rw [State.line_resumeLine (hcoherent ha), ha.line, State.hall_of_clock ha.same.clock]
  case charged =>
    obtain ⟨a, -, ha, hb, -⟩ := hall n
    obtain ⟨z, hz, hcharged⟩ := State.resumeLine_charged (f := f) (hcoherent ha)
      (by rw [ha.line]; exact hr) (k := k) (y := y) (by rw [ha.kept k hk hc]; exact hy)
    exact ⟨z, (congrArg StationLive.tally (hb.kept k hk hc)).trans hz, hcharged⟩
  case entered =>
    obtain ⟨a, -, ha, hb, -⟩ := hall n
    have hlast := State.resumeLine_entered (s := a) (n := n) (f := f) (by rw [ha.line]; exact hst)
      (by rw [ha.line]; exact hr) hkind
    have hmem := (hb.recent _ 0 (State.recent_of_getLast? hlast) (by omega) rfl).mem
    obtain ⟨j, hj, heq⟩ := (State.JournalLapses.lapseDue u u.now).kept hmem
    refine ⟨j, hj, ?_⟩
    rw [heq]
    exact ⟨rfl, rfl, rfl, rfl, rfl, rfl⟩
  case unexpired =>
    have hlt := u.lapseDue_unexpired hj he
    unfold State.now at hlt
    rw [(hsame 0).1.clock] at hlt
    exact hlt

end Sys2Proof.Machine

/-! The shift closes that fell in an outage (R144, R154): how many boundary instants passed, the first and
the last of them, and the close that a line's table entry calls for. -/

namespace Sys2Proof.Machine

/-! ### Rising lists -/

theorem head?_of_least {l : List Nat} (hl : l.Pairwise (· < ·)) {b : Nat} (hb : b ∈ l)
    (hle : ∀ x ∈ l, b ≤ x) : l.head? = some b := by
  cases l with
  | nil => exact absurd hb List.not_mem_nil
  | cons x l =>
    have hx := hle x List.mem_cons_self
    rcases List.mem_cons.mp hb with rfl | hin
    · rfl
    · have hlt := (List.pairwise_cons.mp hl).1 b hin
      omega

theorem getLast?_of_greatest {l : List Nat} (hl : l.Pairwise (· < ·)) {b : Nat} (hb : b ∈ l)
    (hle : ∀ x ∈ l, x ≤ b) : l.getLast? = some b := by
  have hne : l ≠ [] := List.ne_nil_of_mem hb
  rw [List.getLast?_eq_some_getLast hne]
  have hlast := hle _ (List.getLast_mem hne)
  obtain ⟨before, heq⟩ : ∃ before, l = before ++ [l.getLast hne] :=
    ⟨l.dropLast, (List.dropLast_append_getLast hne).symm⟩
  rw [heq] at hb hl
  rcases List.mem_append.mp hb with hin | hin
  · have hlt := (List.pairwise_append.mp hl).2.2 b hin _ (List.mem_singleton.mpr rfl)
    omega
  · rw [List.mem_singleton.mp hin]

/-! ### The boundary instants that passed -/

/-- The instants are the boundary instants that passed from `f` on (R144, R154). -/
structure State.Passed (s : State) (f : Nat) (instants : List Nat) : Prop where
  rising : instants.Pairwise (· < ·)
  mem : ∀ x, x ∈ instants ↔ s.clock.isSet = true ∧ s.hallAt f < x ∧ x ≤ s.hall ∧
    (∀ taken, s.clock.lastBoundary = some taken → taken < x) ∧
    x % 8640000 ∈ s.settings.schedule

section Passed

variable {s : State} {f : Nat} {instants : List Nat}

theorem State.passedAfter_lt_iff {x : Nat} : s.passedAfter f < x ↔ s.hallAt f < x ∧
    ∀ taken, s.clock.lastBoundary = some taken → taken < x := by
  unfold State.passedAfter
  rw [max_lt_iff]
  refine and_congr_right fun h => ?_
  cases s.clock.lastBoundary with
  | none => exact ⟨fun _ _ hnone => (nomatch hnone), fun _ => Nat.zero_lt_of_lt h⟩
  | some b => exact ⟨fun hb taken ht => Option.some.inj ht ▸ hb, fun h => h b rfl⟩

theorem State.Passed.mem_iff (h : s.Passed f instants) (x : Nat) : x ∈ instants ↔
    s.clock.isSet = true ∧ s.passedAfter f < x ∧ x ≤ s.hall ∧
      x % 8640000 ∈ s.settings.schedule := by
  rw [h.mem, State.passedAfter_lt_iff]
  tauto

theorem State.Passed.congr {t : State} (h : s.Passed f instants) (hs : t.settings = s.settings)
    (hc : t.clock = s.clock) : t.Passed f instants := by
  refine ⟨h.rising, fun x => ?_⟩
  rw [h.mem, State.hallAt_of_clock hc, State.hall_of_clock hc, hs, hc]

/-- As many instants passed as the part counts. -/
theorem State.Passed.count (h : s.Passed f instants) (hg : s.settings.Sound) :
    s.passedCount f = instants.length := by
  unfold State.passedCount
  by_cases hset : s.clock.isSet = true
  · rw [if_pos hset]
    by_cases hle : s.passedAfter f ≤ s.hall
    · exact (boundariesBy_between hg.values hg.rising hle h.rising fun x => by
        rw [h.mem_iff]
        exact and_iff_right hset).symm
    · have hnil : instants = [] := List.eq_nil_iff_forall_not_mem.mpr fun x hx => by
        obtain ⟨-, hafter, hby, -⟩ := (h.mem_iff x).mp hx
        omega
      have hmono := boundariesBy_mono hg (Nat.le_of_not_le hle)
      rw [hnil, List.length_nil]
      omega
  · have hnil : instants = [] := List.eq_nil_iff_forall_not_mem.mpr fun x hx =>
      hset ((h.mem_iff x).mp hx).1
    rw [if_neg hset, hnil, List.length_nil]

theorem State.Passed.count_eq_zero (h : s.Passed f instants) (hg : s.settings.Sound) :
    s.passedCount f = 0 ↔ instants = [] := by
  rw [h.count hg, List.length_eq_zero_iff]

theorem State.Passed.first (h : s.Passed f instants) (hg : s.settings.Sound)
    (hne : instants ≠ []) :
    firstBoundaryAfter s.settings.schedule (s.passedAfter f) = instants.head? := by
  obtain ⟨x, hx⟩ := List.exists_mem_of_ne_nil _ hne
  obtain ⟨hset, hafter, hby, hmem⟩ := (h.mem_iff x).mp hx
  obtain ⟨b, hb⟩ := Option.isSome_iff_exists.mp
    (firstBoundaryAfter_isSome (List.ne_nil_of_mem hmem) (s.passedAfter f))
  obtain ⟨hlt, hbmem, hleast⟩ := firstBoundaryAfter_spec hg.rising hg.values hb
  have hle := hleast x hafter hmem
  rw [hb]
  refine (head?_of_least h.rising ((h.mem_iff b).mpr ⟨hset, hlt, hle.trans hby, hbmem⟩)
    fun y hy => ?_).symm
  obtain ⟨-, hy1, -, hy2⟩ := (h.mem_iff y).mp hy
  exact hleast y hy1 hy2

theorem lastBoundaryBy_isSome {schedule : List Nat} {x t : Nat} (hx : x % 8640000 ∈ schedule)
    (hle : x ≤ t) : (lastBoundaryBy schedule t).isSome = true := by
  refine Option.isSome_iff_ne_none.mpr fun hnone => ?_
  unfold lastBoundaryBy at hnone
  extract_lets day at hnone
  have hday : day = t / 8640000 * 8640000 := day_eq t
  clear_value day
  split at hnone
  next => exact Option.some_ne_none _ hnone
  next hfind =>
    split at hnone
    next hzero =>
      refine List.find?_eq_none.mp hfind _ (List.mem_reverse.mpr hx) (decide_eq_true ?_)
      omega
    next =>
      rw [List.getLast?_eq_some_getLast (List.ne_nil_of_mem hx)] at hnone
      exact nomatch hnone

theorem State.Passed.last (h : s.Passed f instants) (hg : s.settings.Sound)
    (hne : instants ≠ []) :
    lastBoundaryBy s.settings.schedule s.hall = instants.getLast? := by
  obtain ⟨x, hx⟩ := List.exists_mem_of_ne_nil _ hne
  obtain ⟨hset, hafter, hby, hmem⟩ := (h.mem_iff x).mp hx
  obtain ⟨b, hb⟩ := Option.isSome_iff_exists.mp (lastBoundaryBy_isSome hmem hby)
  obtain ⟨hle, hbmem, hgreatest⟩ := lastBoundaryBy_spec hg.rising hg.values hb
  have hxb := hgreatest x hby hmem
  rw [hb]
  refine (getLast?_of_greatest h.rising
    ((h.mem_iff b).mpr ⟨hset, by omega, hle, hbmem⟩) fun y hy => ?_).symm
  obtain ⟨-, -, hy1, hy2⟩ := (h.mem_iff y).mp hy
  exact hgreatest y hy1 hy2

theorem State.Passed.lastHall (h : s.Passed f instants) (hg : s.settings.Sound) :
    s.lastPassedHall f = instants.getLast? := by
  unfold State.lastPassedHall
  by_cases hnil : instants = []
  · rw [if_pos ((h.count_eq_zero hg).mpr hnil), hnil, List.getLast?_nil]
  · rw [if_neg (mt (h.count_eq_zero hg).mp hnil), h.last hg hnil]

/-- An instant that passed lies between the failure and the present, by the counter too. -/
theorem State.Passed.within (h : s.Passed f instants) (hf : f ≤ s.clock.count) {x : Nat}
    (hx : x ∈ instants) : f + (x - s.hallAt f) ≤ s.clock.count := by
  obtain ⟨-, hlt, hle, -⟩ := (h.mem x).mp hx
  unfold State.hall State.hallAt State.now at *
  rw [show Config.clockModulus = 281474976710656 from rfl] at *
  omega

end Passed

/-! ### The close that the table calls for (R154) -/

/-- The readings of the outage of line `n` that the table of R154 is stated with. -/
structure State.OutageSpan (s : State) (f : Nat) (n : LineId) (instants : List Nat)
    (m limit first last : Nat) : Prop where
  passed : s.Passed f instants
  failed : f ≤ s.clock.count
  sound : s.settings.Sound
  passes : m = instants.length + (if (s.line n).deferred then 1 else 0)
  limit : ∃ b, (s.line n).bank = some b ∧ limit = b.openCount + 267840000
  first : first = (if (s.line n).deferred then f
    else f + (instants.head?.getD 0 - s.hallAt f))
  last : last = f + (instants.getLast?.getD (s.hallAt f) - s.hallAt f)

namespace State.OutageSpan

variable {s : State} {f : Nat} {n : LineId} {instants : List Nat} {m limit first last : Nat}

theorem passedFor_eq (h : s.OutageSpan f n instants m limit first last) : s.passedFor f n = m := by
  rw [State.passedFor, h.passed.count h.sound, h.passes]

theorem lengthInstant_eq (h : s.OutageSpan f n instants m limit first last) :
    s.lengthInstant f n = if f < limit ∧ limit ≤ s.clock.count then some limit else none := by
  obtain ⟨b, hb, rfl⟩ := h.limit
  unfold State.lengthInstant
  rw [hb]
  rfl

theorem closeAt_eq (h : s.OutageSpan f n instants m limit first last) (hm : m ≠ 0) :
    (if (s.line n).deferred = true then f else s.firstPassed f) = first := by
  rw [h.first]
  by_cases hd : (s.line n).deferred = true
  · rw [if_pos hd, if_pos hd]
  · have hne : instants ≠ [] := fun hnil => hm (by rw [h.passes, hnil, if_neg hd]; rfl)
    rw [if_neg hd, if_neg hd, State.firstPassed, h.passed.first h.sound hne]

theorem openAt_eq (h : s.OutageSpan f n instants m limit first last) :
    (if s.passedCount f = 0 then f else s.lastPassed f) = last := by
  rw [h.last]
  by_cases hnil : instants = []
  · rw [if_pos ((h.passed.count_eq_zero h.sound).mpr hnil), hnil]
    simp
  · rw [if_neg (mt (h.passed.count_eq_zero h.sound).mp hnil), State.lastPassed,
      h.passed.lastHall h.sound, List.getLast?_eq_some_getLast hnil]
    rfl

/-- A close at a boundary instant falls in the outage. -/
theorem first_le (h : s.OutageSpan f n instants m limit first last) (hm : m ≠ 0) :
    first ≤ s.clock.count := by
  rw [h.first]
  by_cases hd : (s.line n).deferred = true
  · rw [if_pos hd]
    exact h.failed
  · have hne : instants ≠ [] := fun hnil => hm (by rw [h.passes, hnil, if_neg hd]; rfl)
    rw [if_neg hd, List.head?_eq_some_head hne]
    exact h.passed.within h.failed (List.head_mem hne)

theorem outageTurn_eq (h : s.OutageSpan f n instants m limit first last) : s.outageTurn f n =
    if m = 0 then
      if f < limit ∧ limit ≤ s.clock.count then
        some ⟨limit, .length, false, s.clock.count, 1⟩
      else none
    else if f < limit ∧ limit < first then some ⟨limit, .length, false, last, m⟩
    else some ⟨first, .outageBoundary, (s.line n).deferred, last, m⟩ := by
  unfold State.outageTurn
  rw [h.passedFor_eq, h.openAt_eq, h.lengthInstant_eq]
  by_cases hm : m = 0
  · simp only [if_pos hm]
    split
    next hnone =>
      split at hnone
      next => exact nomatch hnone
      next hout => rw [if_neg hout]
    next u hsome =>
      split at hsome
      next hin =>
        obtain rfl := Option.some.inj hsome
        rw [if_pos hin]
        rfl
      next => exact nomatch hsome
  · have hfirst := h.first_le hm
    simp only [if_neg hm, h.closeAt_eq hm]
    split
    next hnone =>
      split at hnone
      next => exact nomatch hnone
      next hout => rw [if_neg fun hin => hout ⟨hin.1, by omega⟩]
    next u hsome =>
      split at hsome
      next hin =>
        obtain rfl := Option.some.inj hsome
        by_cases hlt : limit < first
        · rw [if_pos hlt, if_pos ⟨hin.1, hlt⟩]
        · rw [if_neg hlt, if_neg fun hin => hlt hin.2]
      next => exact nomatch hsome

end State.OutageSpan

end Sys2Proof.Machine

/-! The turns of shifts in an outage (R154): the bank that a line stages, the shift that it opens, and the
turns of all the lines. -/

namespace Sys2Proof.Machine

/-! ### One line -/

/-- The bank that line `n` closes as the table says, in the state `s`. -/
structure State.OutageClosed (s : State) (n : LineId) (b : Bank) (o : OutageTurn)
    (c : ClosedBank) : Prop where
  line : c.line = n
  serial : c.serial = (s.line n).serial
  reason : c.reason = o.reason
  deferred : c.deferred = o.deferred
  opened : c.openStamp = (s.line n).openStamp.getD 0
  closed : c.closeStamp = s.hallAt o.closeAt
  view : c.view = s.bankView n b o.closeAt
  tallies : ∀ k ∈ s.members n, ∀ y, (s.station k).tally = some y →
    ∃ st e, c.tallyOf k = some (y.addTime st e)

theorem State.outageClosed_gather (s : State) (n : LineId) (b : Bank) (o : OutageTurn) :
    s.OutageClosed n b o (s.gather n b o.reason o.deferred o.closeAt) where
  line := rfl
  serial := rfl
  reason := rfl
  deferred := rfl
  opened := rfl
  closed := rfl
  view := rfl
  tallies := fun k hk y hy => by
    refine ⟨(s.station k).state, o.closeAt - (s.station k).since, ?_⟩
    refine ClosedBank.tallyOf_of_mem (g := fun k => (s.station k).tallyAt o.closeAt) rfl hk ?_
    simp only [StationLive.tallyAt, hy, Option.map_some]

/-- The state `u` after line `n` turned its shift as the table says (R154). -/
structure State.TurnsOutage (s u : State) (n : LineId) (b : Bank) (o : OutageTurn) : Prop where
  line : ∃ b' c, u.line n = { s.line n with
      serial := serialAfter (s.line n).serial o.serials
      openStamp := some (s.hallAt o.openAt)
      nextNumber := 1
      bank := some b'
      staging := some c
      deferred := false } ∧ b'.openCount = o.openAt ∧ s.OutageClosed n b o c
  queue : .bank n ∈ u.queue

section TurnOutage

variable {s : State} {n : LineId} {b : Bank}

theorem State.closeShift_empty (hs : (s.line n).slot = none) (hb : (s.line n).bank = some b)
    (reason : CloseReason) (deferred : Bool) (t : Nat) :
    s.closeShift n reason deferred t = ((s.lapseShift n (s.line n).serial).modLine n fun l =>
      { l with staging := some (s.gather n b reason deferred t) }).queueJoin (.bank n) := by
  have hclose : s.closeShift n reason deferred t = ((s.settleSlot n t).lapseShift n
    ((s.settleSlot n t).line n).serial).stage n reason deferred t := rfl
  rw [hclose, State.settleSlot_none hs]
  unfold State.stage
  rw [show ((s.lapseShift n (s.line n).serial).line n).bank = some b from hb]
  rfl

theorem State.turnsOutage (hs : (s.line n).slot = none) (hb : (s.line n).bank = some b)
    (o : OutageTurn) : s.TurnsOutage (s.turnOutage n o) n b o ∧
      s.JournalLapses (s.turnOutage n o) := by
  have hclose := State.closeShift_empty hs hb o.reason o.deferred o.closeAt
  rw [State.queueJoin_eq] at hclose
  unfold State.turnOutage
  extract_lets serial u v
  have hu : u = _ := hclose
  have huline : u.line n =
      { s.line n with staging := some (s.gather n b o.reason o.deferred o.closeAt) } := by
    rw [hu]
    exact State.line_modLine_same (s.lapseShift n (s.line n).serial) n _
  have huqueue : .bank n ∈ u.queue := by
    rw [hu]
    exact List.mem_append_right _ (List.mem_singleton.mpr rfl)
  have hujournal : s.JournalLapses u := by
    rw [hu]
    exact .lapseShift s n _
  have huclock : u.clock = s.clock := by rw [hu]; rfl
  have hv : v = u.openShift n serial o.openAt := rfl
  clear_value u v
  clear hu hclose
  obtain ⟨hj, hq, -⟩ := u.openShift_books n serial o.openAt
  have hvline := u.line_openShift n serial o.openAt
  rw [huline, State.hallAt_of_clock huclock, ← hv] at hvline
  rw [← hv] at hj hq
  generalize u.lineNoisy n = noisy at hvline
  generalize u.constraintDegraded n = degraded at hvline
  refine ⟨⟨⟨{ (s.line n).newBank o.openAt noisy degraded with booking := .x }, _, ?_,
    rfl, s.outageClosed_gather n b o⟩,
    by rw [← hq] at huqueue; exact huqueue⟩,
    hujournal.trans (.of_eq hj)⟩
  rw [State.line_modLine_same, hvline]
  unfold LineLive.opened
  simp only [hs]
  rfl

end TurnOutage

/-! ### A line's place in the table -/

section OutageLine

variable {s : State} {n : LineId} {f : Nat}

theorem State.outageLine_stays (h : s.outageTurn f n = none) : State.outageLine f s n = s := by
  unfold State.outageLine
  rw [h]
  exact ite_self s

theorem State.outageLine_turns (hin : s.inService n = true) {o : OutageTurn}
    (h : s.outageTurn f n = some o) : State.outageLine f s n =
      (s.turnOutage n o).latchIf (1 < s.passedFor f n) .boundarySkipped := by
  unfold State.outageLine
  rw [h, hin]
  rfl

theorem State.outageLine_out (hin : s.inService n = false) : State.outageLine f s n = s := by
  unfold State.outageLine
  rw [hin]
  rfl

theorem State.latchIf_fields (s : State) (cond : Bool) (a : Alert) :
    s.latchIf cond a = { s with alerts := (s.latchIf cond a).alerts } := by
  unfold State.latchIf
  split <;> rfl

theorem State.inService_of_bank {s : State} {n : LineId} (h : (s.line n).coherent = true) {b : Bank}
    (hb : (s.line n).bank = some b) : s.inService n = true := by
  have hbank : (s.shape n).bank = true := by
    unfold State.shape LineLive.shape
    rw [hb]
    rfl
  exact State.inService_iff.mpr (((s.line n).coherent_iff.mp h).inService_of_bank hbank)

theorem State.JournalLapses.outageLine (h : (s.line n).coherent = true)
    (hs : (s.line n).slot = none) : s.JournalLapses (State.outageLine f s n) := by
  cases hin : s.inService n with
  | false =>
    rw [State.outageLine_out hin]
    exact .of_eq rfl
  | true =>
    cases ho : s.outageTurn f n with
    | none =>
      rw [State.outageLine_stays ho]
      exact .of_eq rfl
    | some o =>
      have hbank := ((s.line n).coherent_iff.mp h).bank_of_inService (State.inService_iff.mp hin)
      obtain ⟨b, hb⟩ := Option.isSome_iff_exists.mp (show (s.line n).bank.isSome = true from hbank)
      rw [State.outageLine_turns hin ho, State.latchIf_fields]
      exact (State.turnsOutage hs hb o).2

theorem State.passedCount_congr {s t : State} (hs : t.settings = s.settings)
    (hc : t.clock = s.clock) : t.passedCount f = s.passedCount f := by
  unfold State.passedCount State.passedAfter
  rw [hs, State.hall_of_clock hc, State.hallAt_of_clock hc, hc]

theorem State.passedFor_congr {s t : State} (hs : t.settings = s.settings)
    (hc : t.clock = s.clock) (hl : t.line n = s.line n) : t.passedFor f n = s.passedFor f n := by
  unfold State.passedFor
  rw [State.passedCount_congr hs hc, hl]

/-- The table reads the settings, the clock and the line's record. -/
theorem State.outageTurn_congr {s t : State} (hs : t.settings = s.settings)
    (hc : t.clock = s.clock) (hl : t.line n = s.line n) : t.outageTurn f n = s.outageTurn f n := by
  have hcount := State.passedCount_congr (f := f) hs hc
  have hfirst : t.firstPassed f = s.firstPassed f := by
    unfold State.firstPassed State.passedAfter
    rw [hs, State.hallAt_of_clock hc, hc]
  have hlast : t.lastPassed f = s.lastPassed f := by
    unfold State.lastPassed State.lastPassedHall
    rw [hcount, hs, State.hallAt_of_clock hc, State.hall_of_clock hc]
  have hnow : t.now = s.now := congrArg Clock.count hc
  have hlength : t.lengthInstant f n = s.lengthInstant f n := by
    unfold State.lengthInstant
    rw [hl, hnow]
  unfold State.outageTurn
  rw [State.passedFor_congr hs hc hl, hl, hfirst, hcount, hlast, hlength, hnow]

end OutageLine

end Sys2Proof.Machine

/-! The turns of all the lines' shifts in an outage, and the settled outage (R144, R154). -/

namespace Sys2Proof.Machine

/-! ### All the lines -/

section Beside

variable {s a : State} {n : LineId}

theorem State.Unstopped.slot (h : s.Unstopped) (n : LineId) : (s.line n).slot = none :=
  State.slot_none_of_shape (h n)

theorem State.Unstopped.chargedOnlyBy (h : s.Unstopped) (n : LineId) (k : StationId) :
    s.ChargedOnlyBy n k := fun m _ _ _ hr => nomatch (h.slot m).symm.trans hr

theorem State.hallAt_beside {s0 : State} (h : s0.Beside s a n) (t : Nat) : a.hallAt t = s.hallAt t :=
  State.hallAt_of_clock h.same.clock t

/-- A bank that line `n` closes after other lines' turns is the one that it would close before. -/
theorem State.OutageClosed.of_beside {b : Bank} {o : OutageTurn} {c : ClosedBank}
    (h : a.OutageClosed n b o c) (hs : s.Unstopped) (ha : s.Beside s a n) :
    s.OutageClosed n b o c where
  line := h.line
  serial := by rw [h.serial, ha.line]
  reason := h.reason
  deferred := h.deferred
  opened := by rw [h.opened, ha.line]
  closed := by rw [h.closed, State.hallAt_beside ha]
  view := by
    rw [h.view]
    unfold State.bankView State.rate State.lineDef
    rw [ha.same.settings]
  tallies := fun k hk y hy => h.tallies k (by rw [State.members_of_settings ha.same.settings]; exact hk)
    y (by rw [ha.kept k hk (hs.chargedOnlyBy n k)]; exact hy)

theorem State.TurnsOutage.of_beside {u t : State} {b : Bank} {o : OutageTurn}
    (h : a.TurnsOutage u n b o) (hs : s.Unstopped) (ha : s.Beside s a n) (ht : s.Beside u t n) :
    s.TurnsOutage t n b o := by
  obtain ⟨b', c, hline, hopen, hclosed⟩ := h.line
  refine ⟨⟨b', c, ?_, hopen, hclosed.of_beside hs ha⟩, ht.queue _ h.queue⟩
  rw [ht.line, hline, ha.line, State.hallAt_beside ha]

theorem State.TurnsOutage.congr {u t : State} {b : Bank} {o : OutageTurn}
    (h : s.TurnsOutage u n b o) (hl : t.line n = u.line n) (hq : t.queue = u.queue) :
    s.TurnsOutage t n b o := by
  obtain ⟨b', c, hline, hrest⟩ := h.line
  exact ⟨⟨b', c, hl.trans hline, hrest⟩, by rw [hq]; exact h.queue⟩

end Beside

/-- The shifts in the state `u` after the table was applied to all the lines. -/
structure State.OutageTurned (s u : State) (f : Nat) : Prop where
  same : s.SameButLines u
  link : u.link = s.link
  journal : s.JournalLapses u
  stays : ∀ n, s.inService n = false ∨ s.outageTurn f n = none →
    u.line n = s.line n ∧ ∀ k ∈ s.members n, u.station k = s.station k
  turns : ∀ n b o, (s.line n).bank = some b → s.outageTurn f n = some o → s.TurnsOutage u n b o
  skipped : ∀ n b, (s.line n).bank = some b → 1 < s.passedFor f n →
    u.latched .boundarySkipped = true

theorem State.journalLapses_outageLines (f : Nat) (l : List LineId) {s : State} (h : s.Coherent)
    (hs : s.Unstopped) : s.JournalLapses (l.foldl (State.outageLine f) s) := by
  induction l generalizing s with
  | nil => exact .of_eq rfl
  | cons m l ih =>
    obtain ⟨hm, hslot⟩ := State.outageLine_empty (h.shape m) (hs m) f
    refine (State.JournalLapses.outageLine (h m) (hs.slot m)).trans
      (ih (h.of_only (.outageLine f s m) hm) fun n => ?_)
    by_cases hnm : n = m
    · subst hnm; exact hslot
    · unfold State.shape
      rw [(State.OnlyLine.outageLine f s m).others n hnm]
      exact hs n

theorem State.latched_latch (s : State) (a : Alert) : (s.latch a).latched a = true := by
  refine decide_eq_true fun hzero => ?_
  have hbit : (s.alerts ||| Alert.bit a) &&& Alert.bit a = Alert.bit a := by
    ext i hi
    simp only [BitVec.getElem_and, BitVec.getElem_or]
    cases s.alerts[i] <;> cases (Alert.bit a)[i] <;> rfl
  have hnone : Alert.bit a = 0 := hbit.symm.trans hzero
  revert hnone
  cases a <;> decide

theorem State.latched_latchIf (s : State) {cond : Bool} (h : cond = true) (a : Alert) :
    (s.latchIf cond a).latched a = true := by
  unfold State.latchIf
  rw [if_pos h]
  exact State.latched_latch s a

/-- Where a boundary passed, the table calls for a close. -/
theorem State.outageTurn_isSome {s : State} {f : Nat} {n : LineId} (h : s.passedFor f n ≠ 0) :
    ∃ o, s.outageTurn f n = some o := by
  unfold State.outageTurn
  extract_lets m pending b1 bm
  have hm : m ≠ 0 := h
  clear_value m pending b1 bm
  split
  · rw [if_neg hm]
    exact ⟨_, rfl⟩
  · rw [if_neg hm]
    split
    · exact ⟨_, rfl⟩
    · exact ⟨_, rfl⟩

theorem State.outageTurned {s : State} (h : s.Coherent) (hs : s.Unstopped) (f : Nat) :
    s.OutageTurned (allLines.foldl (State.outageLine f) s) f := by
  have hjournal := State.journalLapses_outageLines f allLines h hs
  have hall := State.beside_of_all (fun s n => State.LineTurn.outageLine s n f) s
  have hsame : ∀ n, s.SameButLines (allLines.foldl (State.outageLine f) s) ∧
      (allLines.foldl (State.outageLine f) s).link = s.link := fun n => by
    obtain ⟨a, -, ha, hb, -⟩ := hall n
    have hturn := State.LineTurn.outageLine a n f
    exact ⟨ha.same.trans (hturn.only.same.trans hb.same),
      hb.link.trans (hturn.only.link.trans ha.link)⟩
  generalize allLines.foldl (State.outageLine f) s = u at *
  refine ⟨(hsame 0).1, (hsame 0).2, hjournal, fun n hn => ?stays, fun n b o hb ho => ?turns,
    fun n b hb hpass => ?skipped⟩
  case stays =>
    obtain ⟨a, -, ha, hu, -⟩ := hall n
    have hstay : State.outageLine f a n = a := by
      rcases hn with hin | ho
      · refine State.outageLine_out ?_
        unfold State.inService at hin ⊢
        rw [ha.line]
        exact hin
      · refine State.outageLine_stays ?_
        rw [State.outageTurn_congr ha.same.settings ha.same.clock ha.line]
        exact ho
    rw [hstay] at hu
    exact ⟨hu.line.trans ha.line, fun k hk => (hu.kept k hk (hs.chargedOnlyBy n k)).trans
      (ha.kept k hk (hs.chargedOnlyBy n k))⟩
  case turns =>
    obtain ⟨a, -, ha, hu, -⟩ := hall n
    have hin : a.inService n = true :=
      State.inService_of_bank (by rw [ha.line]; exact h n) (by rw [ha.line]; exact hb)
    have hturn := State.outageLine_turns hin ((State.outageTurn_congr (f := f) ha.same.settings
      ha.same.clock ha.line).trans ho)
    rw [hturn] at hu
    have hone := (State.turnsOutage (s := a) (n := n) (b := b) (by rw [ha.line]; exact hs.slot n)
      (by rw [ha.line]; exact hb) o).1
    refine State.TurnsOutage.of_beside (hone.congr ?_ ?_) hs ha hu
    · rw [State.latchIf_fields]; rfl
    · rw [State.latchIf_fields]
  case skipped =>
    obtain ⟨a, after, ha, -, hafter⟩ := hall n
    have hin : a.inService n = true :=
      State.inService_of_bank (by rw [ha.line]; exact h n) (by rw [ha.line]; exact hb)
    have hpassed := State.passedFor_congr (f := f) ha.same.settings ha.same.clock ha.line
    obtain ⟨o, ho⟩ := State.outageTurn_isSome (s := a) (f := f) (n := n) (by omega)
    have hlatched : (State.outageLine f a n).latched .boundarySkipped = true := by
      rw [State.outageLine_turns hin ho]
      exact State.latched_latchIf _ (decide_eq_true (by omega)) _
    rw [hafter]
    exact (State.Orderly.foldl (fun s n => State.Orderly.outageLine f s n) after _).alerts _ hlatched

/-! ### The settled outage -/

/-- The state before the lines are treated: its stations are UNMONITORED. -/
def State.unmonitored (s : State) : State :=
  { s with stations := Tab.mapAll (fun _ v => { v with state := .unmonitored }) s.stations }

theorem State.station_unmonitored (s : State) (k : StationId) :
    s.unmonitored.station k = { s.station k with state := .unmonitored } := by
  unfold State.unmonitored State.station
  rw [Tab.get_mapAll]

/-- The state after the lines are treated at the failure instant `f`. -/
def State.treated (s : State) (f : Nat) : State :=
  s.unmonitored.resumeLines f

/-- The state after the closes of the outage are made. -/
def State.turned (s : State) (f : Nat) : State :=
  allLines.foldl (State.outageLine f) (s.treated f)

/-- The state after the last boundary that passed is taken, and the next one formed. -/
def State.boundaryPassed (s : State) (last : Option Nat) : State :=
  State.formBoundary { s with clock := { s.clock with lastBoundary := last.or s.clock.lastBoundary } }

theorem State.settleOutage_eq (s : State) (f : Nat) :
    s.settleOutage f = (s.turned f).boundaryPassed ((s.treated f).lastPassedHall f) := by
  unfold State.settleOutage
  extract_lets a b c last d clock e
  have hb : b = allLines.foldl (fun s n => s.resumeLine f n) s.unmonitored := rfl
  have hc : c = b.lapseDue b.now := rfl
  clear_value b c
  have hlast : last = c.lastPassedHall f := rfl
  have hd : d = allLines.foldl (State.outageLine f) c := rfl
  have he : e.formBoundary = d.boundaryPassed last := rfl
  clear_value last d e
  have htreated : c = s.treated f := by
    rw [hc, hb]
    rfl
  rw [he, hd, hlast, htreated]
  rfl

end Sys2Proof.Machine

/-! The lines at a warm start, taken up at the present (R94, R123, R176): plans go on, and the lines that
wait in RESUMING are evaluated where their constraints are forced. -/

namespace Sys2Proof.Machine

/-! ### The bank that goes on -/

/-- The bank `b'` goes on with what `b` booked, read at `t`. -/
structure Bank.GoesOn (b b' : Bank) (t : Nat) : Prop where
  openCount : b'.openCount = b.openCount
  micro : b'.counts.micro = b.counts.micro
  read : ∀ y, (b'.book t).time y = (b.book t).time y
  others : ∀ y, y ≠ b.booking → b'.time y = b.time y

theorem Bank.GoesOn.refl (b : Bank) (t : Nat) : b.GoesOn b t :=
  ⟨rfl, rfl, fun _ => rfl, fun _ _ => rfl⟩

theorem Bank.time_book_ne {b : Bank} {y : Bucket} (h : y ≠ b.booking) (t : Nat) :
    (b.book t).time y = b.time y := by
  rw [Bank.time_book, if_neg h, Nat.add_zero]

/-- A bank whose segment was booked at `t` goes on. -/
theorem Bank.GoesOn.of_booked {b b' : Bank} {t : Nat} (ho : b'.openCount = b.openCount)
    (hm : b'.counts.micro = b.counts.micro) (hs : b'.segStart = t)
    (ht : ∀ y, b'.time y = (b.book t).time y) : b.GoesOn b' t :=
  ⟨ho, hm, fun y => (Bank.time_book_of_segStart hs y).trans (ht y),
    fun y hy => (ht y).trans (Bank.time_book_ne hy t)⟩

theorem Bank.Enters.goesOn {b b' : Bank} {rate t stoppages : Nat} {k : Bucket} {run : Option Nat}
    (h : b.Enters b' rate t k run stoppages) : b.GoesOn b' t :=
  .of_booked h.openCount (by rw [h.plainCounts]) h.segStart h.times

theorem Bank.goesOn_switch (b : Bank) (t : Nat) (k : Bucket) : b.GoesOn (b.switch t k) t :=
  .of_booked rfl rfl rfl fun y => Bank.time_switch b t k y

/-! ### What a start makes of a line -/

/-- The record `l'` that a start makes of a line's record `l` at count `t` and hall reading `hall`: its
constraint is in the state `con`, and its threshold is `threshold`. -/
structure LineLive.Starts (l l' : LineLive) (con : StationState) (threshold t hall : Nat) :
    Prop where
  out : l.state = .outOfService → l' = l
  planned : l.state = .planned → l'.state = .planned ∧
    ∀ p, l.plan = some p → l'.plan = some { p with since := some t }
  waits : l.state = .resuming → con = .unmonitored → l'.state = .resuming
  runs : l.state = .resuming → con = .running → l'.state = .running ∧ l'.stamp = hall
  stops : l.state = .resuming → con ≠ .unmonitored → con ≠ .running →
    l'.state = (if threshold = 0 then .down else .pendingStop) ∧
    ∃ r, l'.slot = some r ∧ r.startCount = t
  kept : l'.serial = l.serial ∧ l'.openStamp = l.openStamp ∧ l'.staging = l.staging ∧
    l'.deferred = l.deferred
  bank : ∀ b, l.bank = some b → ∃ b', l'.bank = some b' ∧ b.GoesOn b' t

section Line

variable {s : State} {n : LineId}

theorem LineLive.Starts.same {l : LineLive} {con : StationState} {threshold t hall : Nat}
    (hp : l.state ≠ .planned) (hr : l.state = .resuming → con = .unmonitored) :
    l.Starts l con threshold t hall where
  out := fun _ => rfl
  planned := fun h => absurd h hp
  waits := fun h _ => h
  runs := fun h hc => nomatch (hr h).symm.trans hc
  stops := fun h hu _ => absurd (hr h) hu
  kept := ⟨rfl, rfl, rfl, rfl⟩
  bank := fun b hb => ⟨b, hb, .refl b t⟩

/-- The record of a line whose plan goes on at `t` (R123). -/
def LineLive.planResumed (l : LineLive) (t : Nat) : LineLive :=
  { l with
    plan := l.plan.map fun p => p.resume t
    bank := l.bank.map fun b =>
      b.switch t (LineLive.bucket { l with plan := l.plan.map fun p => p.resume t }) }

theorem State.resumePlan_planned (h : (s.line n).state = .planned) :
    s.resumePlan n = s.modLine n fun l => l.planResumed s.now := by
  unfold State.resumePlan State.rebook
  rw [if_pos h]
  exact State.modLine_modLine s n _ _

theorem State.resumePlan_other (h : (s.line n).state ≠ .planned) : s.resumePlan n = s := by
  unfold State.resumePlan
  rw [if_neg h]

theorem State.settleLine_evaluates (h : (s.line n).state = .resuming)
    (hc : s.constraintState n ≠ .unmonitored) : s.settleLine n = s.evaluate n := by
  unfold State.settleLine
  rw [if_pos ⟨h, hc⟩]

theorem State.settleLine_stays (h : (s.line n).state = .resuming →
    s.constraintState n = .unmonitored) : s.settleLine n = s := by
  unfold State.settleLine
  rw [if_neg fun hand => hand.2 (h hand.1)]

theorem LineLive.Starts.planResumed {l : LineLive} (h : l.state = .planned) (con : StationState)
    (threshold t hall : Nat) : l.Starts (l.planResumed t) con threshold t hall where
  out := fun ho => nomatch h.symm.trans ho
  planned := fun _ => ⟨h, fun p hp => by rw [LineLive.planResumed, hp]; rfl⟩
  waits := fun hr => nomatch h.symm.trans hr
  runs := fun hr => nomatch h.symm.trans hr
  stops := fun hr => nomatch h.symm.trans hr
  kept := ⟨rfl, rfl, rfl, rfl⟩
  bank := fun b hb => ⟨_, by rw [LineLive.planResumed, hb]; rfl, b.goesOn_switch t _⟩

theorem LineLive.Starts.evaluated (h : (s.line n).state = .resuming)
    (hc : s.constraintState n ≠ .unmonitored) :
    (s.line n).Starts (s.evaluated n (s.line n)) (s.constraintState n) (s.lineDef n).threshold
      s.now s.hall where
  out := fun ho => nomatch h.symm.trans ho
  planned := fun hp => nomatch h.symm.trans hp
  waits := fun _ hu => absurd hu hc
  runs := fun _ hr => by
    rw [State.evaluated_running hr]
    exact ⟨rfl, rfl⟩
  stops := fun _ hu hr => by
    rw [State.evaluated_stopped hr hu, State.stopLine_state, State.stopLine_slot]
    exact ⟨rfl, _, rfl, rfl⟩
  kept := by
    rw [State.evaluated_rest]
    exact ⟨rfl, rfl, rfl, rfl⟩
  bank := fun b hb => by
    obtain ⟨b', hb', henters⟩ := State.evaluated_bank (s := s) (n := n) hb
    exact ⟨b', hb', henters.goesOn⟩

end Line

/-! ### All the lines -/

theorem State.OnlyLines.foldl {f : State → LineId → State} (hf : ∀ s n, State.OnlyLines s (f s n))
    (l : List LineId) (s : State) : s.OnlyLines (l.foldl f s) := by
  induction l generalizing s with
  | nil => exact .refl s
  | cons n l ih => exact (hf s n).trans (ih _)

theorem State.OnlyLines.resumePlan (s : State) (n : LineId) : s.OnlyLines (s.resumePlan n) := by
  unfold State.resumePlan State.rebook
  split
  · exact (State.OnlyLines.modLine s n _).trans (.modLine _ n _)
  · exact .refl s

theorem State.OnlyLines.settleLine (s : State) (n : LineId) : s.OnlyLines (s.settleLine n) := by
  unfold State.settleLine
  split
  · rw [State.evaluate_eq]
    exact .modLine s n _
  · exact .refl s

/-- The lines taken up, one after another: the plans, and the lines that wait. -/
def State.takeUp (s : State) : State :=
  allLines.foldl State.settleLine (allLines.foldl State.resumePlan s)

theorem State.takeUp_only (s : State) : s.OnlyLines s.takeUp :=
  (State.OnlyLines.foldl State.OnlyLines.resumePlan allLines s).trans
    (.foldl State.OnlyLines.settleLine allLines _)

theorem State.constraintState_beside {s0 s a : State} {n : LineId} (h : s0.Beside s a n) :
    a.constraintState n = s.constraintState n := by
  unfold State.constraintState State.lineDef
  rw [h.same.settings]
  split
  next k _ => exact (h.stations k).state
  next => rfl

theorem State.line_resumePlans (s : State) (n : LineId) :
    (allLines.foldl State.resumePlan s).line n =
      if (s.line n).state = .planned then (s.line n).planResumed s.now else s.line n := by
  obtain ⟨a, -, ha, hb, -⟩ := State.beside_of_all State.LineTurn.resumePlan s n
  have hnow : a.now = s.now := congrArg Clock.count ha.same.clock
  rw [hb.line]
  by_cases h : (s.line n).state = .planned
  · rw [if_pos h, State.resumePlan_planned (by rw [ha.line]; exact h), State.line_modLine_same,
      ha.line, hnow]
  · rw [if_neg h, State.resumePlan_other (by rw [ha.line]; exact h), ha.line]

theorem State.line_settleLines (s : State) (n : LineId) (h : (s.line n).state ≠ .planned) :
    (s.line n).Starts ((allLines.foldl State.settleLine s).line n) (s.constraintState n)
      (s.lineDef n).threshold s.now s.hall := by
  obtain ⟨a, -, ha, hb, -⟩ := State.beside_of_all State.LineTurn.settleLine s n
  have hnow : a.now = s.now := congrArg Clock.count ha.same.clock
  have hdef : a.lineDef n = s.lineDef n := by
    unfold State.lineDef
    rw [ha.same.settings]
  have hcon := State.constraintState_beside ha
  rw [hb.line]
  by_cases hwait : (s.line n).state = .resuming ∧ s.constraintState n ≠ .unmonitored
  · obtain ⟨hst, hc⟩ := hwait
    have hstarts := LineLive.Starts.evaluated (s := a) (n := n) (by rw [ha.line]; exact hst)
      (by rw [hcon]; exact hc)
    rw [ha.line, hcon, hdef, hnow, State.hall_of_clock ha.same.clock] at hstarts
    rw [State.settleLine_evaluates (by rw [ha.line]; exact hst) (by rw [hcon]; exact hc),
      State.evaluate_eq, State.line_modLine_same, ha.line]
    exact hstarts
  · have hstay : (s.line n).state = .resuming → s.constraintState n = .unmonitored := fun hst =>
      not_not.mp fun hc => hwait ⟨hst, hc⟩
    rw [State.settleLine_stays (by rw [ha.line, hcon]; exact hstay), ha.line]
    exact .same h hstay

/-- A line in PLANNED is none that waits. -/
theorem State.line_settleLines_planned (s : State) (n : LineId) (h : (s.line n).state = .planned) :
    (allLines.foldl State.settleLine s).line n = s.line n := by
  obtain ⟨a, -, ha, hb, -⟩ := State.beside_of_all State.LineTurn.settleLine s n
  rw [hb.line, State.settleLine_stays, ha.line]
  rw [ha.line, h]
  exact fun hr => nomatch hr

theorem State.line_takeUp (s : State) (n : LineId) : (s.line n).Starts (s.takeUp.line n)
    (s.constraintState n) (s.lineDef n).threshold s.now s.hall := by
  have hline := s.line_resumePlans n
  have honly := State.OnlyLines.foldl State.OnlyLines.resumePlan allLines s
  unfold State.takeUp
  generalize allLines.foldl State.resumePlan s = u at hline honly ⊢
  have hconstraint : u.constraintState n = s.constraintState n := by rw [honly]; rfl
  have hdef : u.lineDef n = s.lineDef n := by rw [honly]; rfl
  have hnow : u.now = s.now := by rw [honly]; rfl
  have hhall : u.hall = s.hall := by rw [honly]; rfl
  by_cases h : (s.line n).state = .planned
  · rw [if_pos h] at hline
    rw [State.line_settleLines_planned u n (by rw [hline]; exact h), hline]
    exact .planResumed h _ _ _ _
  · rw [if_neg h] at hline
    have hstarts := u.line_settleLines n (by rw [hline]; exact h)
    rw [hline, hconstraint, hdef, hnow, hhall] at hstarts
    exact hstarts

theorem State.resume_eq (s : State) :
    s.resume = s.restartAcquisition.rebuildStations.takeUp := rfl

end Sys2Proof.Machine

/-! The warm start as a whole (R17, R36, R67, R144, R164, R167): the part that runs again, and its lines
and stations. -/

namespace Sys2Proof.Machine

/-- The state `t` after the start of the part whose outage is settled in `s`, with `last` the last
boundary that passed. -/
structure State.Started (s t : State) (last : Option Nat) : Prop where
  rest : t = { s with
    lines := t.lines
    stations := t.stations
    points := t.points
    inputs := t.inputs
    alerts := t.alerts
    installed := s.settings.slots
    awaitsFrame := false
    guardMode := s.guardAfter
    link := { s.link.idle with address := addressOf s.pins.straps }
    power := { s.power with running := true, failure := none, powerLost := false }
    clock := { s.clock with
      lastBoundary := t.clock.lastBoundary
      nextBoundary := t.clock.nextBoundary
      windowEnd := t.clock.windowEnd } }
  lastBoundary : t.clock.lastBoundary = last.or s.clock.lastBoundary
  nextBoundary : t.clock.nextBoundary = if s.clock.isSet then
    firstBoundaryAfter s.settings.schedule (max s.hall (t.clock.lastBoundary.getD 0)) else none
  point : ∀ p, t.point p = PointAcq.restarted
  input : ∀ i, t.input i = (s.input i).restart
  station : ∀ k, (t.station k).state = t.derivedState k ∧ (t.station k).memory = none ∧
    (t.station k).reported = none ∧ (t.station k).armed = none
  tally : ∀ k, ∃ e, (t.station k).tally =
    (s.station k).tally.map fun y => y.addTime .unmonitored e
  line : ∀ n, (s.line n).Starts (t.line n) (t.constraintState n) (s.lineDef n).threshold
    s.clock.count s.hall
  alerts : ∀ a, s.latched a = true → t.latched a = true
  outage : t.latched .outage = true

/-- The state before the stations are rebuilt at a start. -/
def State.restarted (s : State) (last : Option Nat) : State :=
  (s.boundaryPassed last).restart.restartAcquisition

theorem State.restartAcquisition_eq (s : State) : s.restartAcquisition = { s with
    points := Tab.mapAll (fun _ _ => PointAcq.restarted) s.points
    inputs := Tab.mapAll (fun _ a => a.restart) s.inputs
    installed := s.settings.slots
    awaitsFrame := false
    clock := { s.clock with windowEnd := windowEndAfter s.settings.window s.now } } := by
  unfold State.restartAcquisition State.restartInputs State.restartPoints State.now
  rfl

theorem State.restart_eq (s : State) : s.restart = { s with
    guardMode := s.guardAfter
    link := { s.link.idle with address := addressOf s.pins.straps }
    power := { s.power with running := true, failure := none, powerLost := false } } := rfl
theorem State.boundaryPassed_eq (s : State) (last : Option Nat) : s.boundaryPassed last = { s with
    clock := { s.clock with
      lastBoundary := last.or s.clock.lastBoundary
      nextBoundary := (if s.clock.isSet then firstBoundaryAfter s.settings.schedule
      (max s.hall ((last.or s.clock.lastBoundary).getD 0)) else none) } } := rfl
/-- A start restarts the acquisition, and takes up the lines and stations as they are. -/
theorem State.restarted_fields (s : State) (last : Option Nat) : ∃ clock : Clock,
    clock.lastBoundary = last.or s.clock.lastBoundary ∧
    (clock.nextBoundary = if s.clock.isSet then firstBoundaryAfter s.settings.schedule
      (max s.hall (clock.lastBoundary.getD 0)) else none) ∧
    clock = { s.clock with
      lastBoundary := clock.lastBoundary
      nextBoundary := clock.nextBoundary
      windowEnd := clock.windowEnd } ∧
    s.restarted last = { s with
      points := Tab.mapAll (fun _ _ => PointAcq.restarted) s.points
      inputs := Tab.mapAll (fun _ a => a.restart) s.inputs
      installed := s.settings.slots
      awaitsFrame := false
      guardMode := s.guardAfter
      link := { s.link.idle with address := addressOf s.pins.straps }
      power := { s.power with running := true, failure := none, powerLost := false }
      clock := clock } := by
  rw [State.restarted, State.restartAcquisition_eq, State.restart_eq, State.boundaryPassed_eq]
  exact ⟨_, rfl, rfl, rfl, rfl⟩

theorem State.started (s : State) (last : Option Nat) :
    s.Started (((s.boundaryPassed last).restart.resume).latch .outage) last := by
  rw [State.resume_eq,
    show (s.boundaryPassed last).restart.restartAcquisition = s.restarted last from rfl]
  obtain ⟨clock, hlast, hnext, hclock, hfields⟩ := s.restarted_fields last
  generalize s.restarted last = x at hfields ⊢
  have hbuilt := x.rebuildsAll
  generalize x.rebuildStations = y at hbuilt ⊢
  have hy : y = { x with stations := y.stations } := hbuilt.only
  have hlines : y.lines = s.lines := by rw [hy, hfields]
  have hsettings : y.settings = s.settings := by rw [hy, hfields]
  have hyclock : y.clock = clock := by rw [hy, hfields]
  have hpoints : y.points = Tab.mapAll (fun _ _ => PointAcq.restarted) s.points := by rw [hy, hfields]
  have hinputs : y.inputs = Tab.mapAll (fun _ a => a.restart) s.inputs := by rw [hy, hfields]
  have halerts : y.alerts = s.alerts := by rw [hy, hfields]
  have hxstations : x.stations = s.stations := by rw [hfields]
  have hrest : y = { s with
      stations := y.stations
      points := y.points
      inputs := y.inputs
      installed := s.settings.slots
      awaitsFrame := false
      guardMode := s.guardAfter
      link := { s.link.idle with address := addressOf s.pins.straps }
      power := { s.power with running := true, failure := none, powerLost := false }
      clock := y.clock } := by
    conv_lhs => rw [hy, hfields]
    rw [hpoints, hinputs, hyclock]
  have hstarts := y.line_takeUp
  have hz := y.takeUp_only
  generalize y.takeUp = z at hstarts hz ⊢
  unfold State.OnlyLines at hz
  obtain ⟨t, ht⟩ : ∃ t, t = z.latch .outage := ⟨_, rfl⟩
  have hlatched : t.latched .outage = true := by rw [ht]; exact z.latched_latch .outage
  have hkeeps : ∀ a, z.latched a = true → t.latched a = true := fun a ha => by
    rw [ht]
    exact State.latched_latch_of_latched ha .outage
  have htz : t = { z with alerts := t.alerts } := by rw [ht]; rfl
  have htlines : t.lines = z.lines := by rw [htz]
  have hty : t = { y with lines := t.lines, alerts := t.alerts } := by
    rw [htlines]
    refine htz.trans ?_
    rw [hz]
  have hderived : ∀ k, t.derivedState k = y.derivedState k := fun k => by rw [hty]; rfl
  have hconstraint : ∀ n, t.constraintState n = y.constraintState n := fun n => by rw [hty]; rfl
  have hstation : ∀ k, t.station k = y.station k := fun k => by rw [hty]; rfl
  have htclock : t.clock = clock := by rw [hty, hyclock]
  rw [← ht]
  clear ht
  refine ⟨?rest, by rw [htclock, hlast], by rw [htclock, hnext], fun p => ?point, fun i => ?input,
    fun k => ?station, fun k => ?tally, fun n => ?line, fun a ha => hkeeps a ?alerts, hlatched⟩
  case rest =>
    have htpoints : t.points = y.points := by rw [hty]
    have htinputs : t.inputs = y.inputs := by rw [hty]
    have htstations : t.stations = y.stations := by rw [hty]
    rw [htpoints, htinputs, htstations, htclock, ← hclock, ← hyclock]
    conv_lhs => rw [hty, hrest]
  case point =>
    have htpoints : t.points = Tab.mapAll (fun _ _ => PointAcq.restarted) s.points := by
      rw [hty, hpoints]
    unfold State.point
    rw [htpoints, Tab.get_mapAll]
  case input =>
    have htinputs : t.inputs = Tab.mapAll (fun _ a => a.restart) s.inputs := by rw [hty, hinputs]
    unfold State.input
    rw [htinputs, Tab.get_mapAll]
  case station =>
    rw [hstation, hderived]
    exact ⟨hbuilt.state k, hbuilt.memory k, hbuilt.reported k, hbuilt.armed k⟩
  case tally =>
    have hxstation : x.station k = s.station k := by
      unfold State.station
      rw [hxstations]
    rw [hstation, ← hxstation]
    exact hbuilt.tally k
  case line =>
    have hyline : y.line n = s.line n := by
      unfold State.line
      rw [hlines]
    have htline : t.line n = z.line n := by
      unfold State.line
      rw [htlines]
    have hdef : y.lineDef n = s.lineDef n := by
      unfold State.lineDef
      rw [hsettings]
    have hcount : y.clock.count = s.clock.count := by rw [hyclock, hclock]
    have hhall : y.hall = s.hall := by
      unfold State.hall State.hallAt State.now
      rw [hyclock, hclock]
    have hline := hstarts n
    rw [hyline, hdef, hhall, ← hconstraint, ← htline] at hline
    unfold State.now at hline
    rw [hcount] at hline
    exact hline
  case alerts =>
    have hzalerts : z.alerts = s.alerts := by rw [hz, halerts]
    unfold State.latched at ha ⊢
    rw [hzalerts]
    exact ha

end Sys2Proof.Machine

/-! The shift of a line over an outage (R93, R121, R154, R176): its bank, the charges to its stations, and
the shift that closed. -/

namespace Sys2Proof.Machine

/-! ### The record treated at the failure instant -/

section Resumed

variable {l : LineLive} {f stamp : Nat}

theorem LineLive.resumed_out (h : l.state = .outOfService) : l.resumed f stamp = l := by
  unfold LineLive.resumed
  rw [h]

theorem LineLive.resumed_planned (h : l.state = .planned) : l.resumed f stamp = l := by
  unfold LineLive.resumed
  rw [h]

theorem LineLive.resumed_state (ho : l.state ≠ .outOfService) (hp : l.state ≠ .planned) :
    (l.resumed f stamp).state = .resuming := by
  unfold LineLive.resumed
  cases h : l.state with
  | planned => exact absurd h hp
  | outOfService => exact absurd h ho
  | resuming => exact h
  | _ => rfl

/-- What the treatment at the failure instant keeps of a line's shift. -/
theorem LineLive.resumed_kept : (l.resumed f stamp).serial = l.serial ∧
    (l.resumed f stamp).openStamp = l.openStamp ∧ (l.resumed f stamp).staging = l.staging ∧
    (l.resumed f stamp).deferred = l.deferred := by
  unfold LineLive.resumed
  cases l.state <;> exact ⟨rfl, rfl, rfl, rfl⟩

theorem Bank.EndedInOutage.congr {b : Bank} {r : Stoppage} {time time' : Bucket → Nat}
    {micro micro' : Nat} (h : b.EndedInOutage r time micro) (ht : ∀ y, y ≠ .x → time' y = time y)
    (hm : micro' = micro) : b.EndedInOutage r time' micro' where
  candidate := fun e he => by
    obtain ⟨hn, hmoved, hothers, hmicro⟩ := h.candidate e he
    exact ⟨(ht _ Bucket.noConfusion).trans hn, (ht _ Bucket.noConfusion).trans hmoved,
      fun k hkn hkm hkx => (ht k hkx).trans (hothers k hkn hkm hkx), hm.trans hmicro⟩
  record := fun m hk => by
    obtain ⟨hothers, hmicro⟩ := h.record m hk
    exact ⟨fun k hkx => (ht k hkx).trans (hothers k hkx), hm.trans hmicro⟩

/-- A candidate that ends at `f`, where the bank began to book at `f`, is a micro-stop. -/
theorem Bank.endMicro_ended {b : Bank} (hs : b.segStart = f) {r : Stoppage}
    {e : Nat} (hr : r.kind = .candidate e) :
    b.EndedInOutage r (b.endMicro f).time (b.endMicro f).counts.micro ∧
      (b.endMicro f).time .x = b.time .x := by
  have htime : ∀ y, (b.endMicro f).time y = ((b.book f).transfer .n .m ((b.book f).time .n)).time y :=
    fun _ => rfl
  have hbook : ∀ y, (b.book f).time y = b.time y := Bank.time_book_of_segStart hs
  have hnm : Bucket.n ≠ Bucket.m := Bucket.noConfusion
  refine ⟨⟨fun e' _ => ⟨?_, ?_, fun k hkn hkm _ => ?_, by rw [Bank.endMicro_counts]⟩,
    fun m hm => nomatch hr.symm.trans hm⟩, ?_⟩
  · rw [htime, Bank.time_transfer_source _ hnm, Nat.sub_self]
  · rw [htime, Bank.time_transfer_target _ hnm, Nat.min_self, hbook, hbook]
  · rw [htime, Bank.time_transfer_ne _ hkn hkm, hbook]
  · rw [htime, Bank.time_transfer_ne _ Bucket.noConfusion Bucket.noConfusion, hbook]

/-- The bank `c` is `b` treated at the failure instant `f`. -/
structure Bank.Treated (b c : Bank) (slot : Option Stoppage) (f : Nat) : Prop where
  openCount : c.openCount = b.openCount
  booked : b.booking = .x → b.segStart = f →
    c.booking = .x ∧ c.segStart = f ∧ c.time .x = b.time .x ∧
      ∀ r, slot = some r → b.EndedInOutage r c.time c.counts.micro

theorem Bank.Treated.refl {b : Bank} {slot : Option Stoppage}
    (h : ∀ r e, slot = some r → r.kind ≠ .candidate e) : b.Treated b slot f where
  openCount := rfl
  booked := fun hx hs => ⟨hx, hs, rfl, fun r hr => ⟨fun e he => absurd he (h r e hr),
    fun _ _ => ⟨fun _ _ => rfl, rfl⟩⟩⟩

theorem LineLive.resumed_bank (h : l.coherent = true) {b : Bank} (hb : l.bank = some b) :
    ∃ c, (l.resumed f stamp).bank = some c ∧ b.Treated c l.slot f := by
  have hfree : l.state ≠ .pendingStop → ∀ r e, l.slot = some r → r.kind ≠ .candidate e :=
    fun hst r e hr he => by
      obtain ⟨-, hpending⟩ | ⟨⟨m, hm⟩, -⟩ := LineLive.state_of_slot h hr
      · exact hst hpending
      · exact nomatch he.symm.trans hm
  by_cases hst : l.state = .pendingStop
  · obtain ⟨r, e, hr, hk⟩ := LineLive.pending_slot h hst
    refine ⟨b.endMicro f, ?_, b.endMicro_openCount f, fun hx hs => ?_⟩
    · unfold LineLive.resumed
      rw [hst]
      exact congrArg (Option.map fun b => b.endMicro f) hb
    · obtain ⟨hended, htime⟩ := Bank.endMicro_ended hs hk
      refine ⟨hx, b.endMicro_segStart f, htime, fun q hq => ?_⟩
      obtain rfl := Option.some.inj (hr.symm.trans hq)
      exact hended
  · refine ⟨b, ?_, .refl (hfree hst)⟩
    unfold LineLive.resumed
    cases hstate : l.state with
    | pendingStop => exact absurd hstate hst
    | _ => exact hb

end Resumed

/-- What a treated bank has booked in X up to `t`. -/
theorem Bank.Treated.time_x {b c : Bank} {slot : Option Stoppage} {f : Nat}
    (h : b.Treated c slot f) (hx : b.booking = .x) (hs : b.segStart = f) (t : Nat) :
    (c.book t).time .x = b.time .x + (t - f) := by
  obtain ⟨hcx, hcs, htime, -⟩ := h.booked hx hs
  rw [Bank.time_book, if_pos hcx.symm, hcs, htime]

theorem Bank.micro_view (b : Bank) (t rate : Nat) (hasOutput : Bool) :
    (b.view t rate hasOutput).counts.micro = b.counts.micro := by
  rw [Bank.counts_view, Bank.counts_credit_rest]

/-- How a treated bank that goes on, or is read, tells that its stoppage ended in the outage. -/
theorem Bank.Treated.ended {b c : Bank} {slot : Option Stoppage} {f : Nat}
    (h : b.Treated c slot f) (hx : b.booking = .x) (hs : b.segStart = f) {r : Stoppage}
    (hr : slot = some r) {time : Bucket → Nat} {micro : Nat}
    (ht : ∀ y, y ≠ .x → time y = c.time y) (hm : micro = c.counts.micro) :
    b.EndedInOutage r time micro := by
  obtain ⟨-, -, -, hended⟩ := h.booked hx hs
  exact (hended r hr).congr ht hm

/-! ### The warm start in its stages -/

theorem State.lines_unmonitored (s : State) : s.unmonitored.lines = s.lines := by
  unfold State.unmonitored
  rfl

theorem State.line_unmonitored (s : State) (n : LineId) : s.unmonitored.line n = s.line n := by
  unfold State.line
  rw [s.lines_unmonitored]

theorem State.sameButLines_unmonitored (s : State) : s.SameButLines s.unmonitored := by
  unfold State.unmonitored
  exact ⟨rfl, rfl, rfl, rfl, rfl, rfl, rfl, rfl, rfl, rfl, rfl, rfl, rfl⟩

/-- The lines are treated alike before their stations are UNMONITORED. -/
theorem State.LinesResumed.of_unmonitored {s u : State} {f : Nat}
    (h : s.unmonitored.LinesResumed u f) : s.LinesResumed u f := by
  have hsame := s.sameButLines_unmonitored
  have hlink : s.unmonitored.link = s.link := by
    unfold State.unmonitored
    rfl
  refine ⟨hsame.trans h.same, h.link.trans hlink, fun n => ?_, fun n r k y hr hk hc hy => ?_,
    fun n r m hst hr => ?_, fun j hj e he => ?_⟩
  · rw [h.line, s.line_unmonitored, State.hall_of_clock hsame.clock]
  · refine h.charged n r k y (by rw [s.line_unmonitored]; exact hr)
      (by rw [State.members_of_settings hsame.settings]; exact hk) (fun m q c hm hq => ?_)
      (by rw [State.station_unmonitored]; exact hy)
    rw [s.line_unmonitored] at hq
    exact hc m q c hm hq
  · exact h.entered n r m (by rw [s.line_unmonitored]; exact hst)
      (by rw [s.line_unmonitored]; exact hr)
  · have hlt := h.unexpired j hj e he
    rw [hsame.clock] at hlt
    exact hlt

/-- The states of a warm start: `w` after the lines are treated, `v` after the closes of the outage, and
`t` after the part runs again. -/
structure State.WarmStarts (s w v t : State) (f : Nat) : Prop where
  coherent : s.Coherent
  treated : s.LinesResumed w f
  treatedCoherent : w.Coherent
  unstopped : w.Unstopped
  turned : w.OutageTurned v f
  started : v.Started t (w.lastPassedHall f)

theorem State.resumeLines_unstopped {s : State} (h : s.Coherent) (f : Nat) :
    (s.resumeLines f).Coherent ∧ (s.resumeLines f).Unstopped := by
  obtain ⟨hcoherent, hslot⟩ := State.resumeLines_empty f allLines h
  unfold State.resumeLines
  generalize allLines.foldl (fun s n => s.resumeLine f n) s = u at hcoherent hslot ⊢
  exact ⟨hcoherent.of_lines rfl, fun n => hslot n (.inl (mem_allLines n))⟩

theorem State.warmStarts {s : State} (h : s.Coherent) (f : Nat) : s.WarmStarts (s.treated f)
    (s.turned f) (((s.settleOutage f).restart.resume).latch .outage) f := by
  have hcoherent : s.unmonitored.Coherent := h.of_lines s.lines_unmonitored
  obtain ⟨htreated, hunstopped⟩ := State.resumeLines_unstopped hcoherent f
  have hresumed := (State.linesResumed hcoherent f).of_unmonitored
  rw [State.settleOutage_eq]
  unfold State.turned State.treated
  generalize s.unmonitored.resumeLines f = w at *
  exact ⟨h, hresumed, htreated, hunstopped, State.outageTurned htreated hunstopped f,
    State.started _ _⟩

namespace State.WarmStarts

variable {s w v t : State} {f : Nat} {n : LineId} {b : Bank}

theorem line (h : s.WarmStarts w v t f) (n : LineId) : w.line n = (s.line n).resumed f s.hall :=
  h.treated.line n

theorem treated_settings (h : s.WarmStarts w v t f) : w.settings = s.settings :=
  h.treated.same.settings

theorem treated_clock (h : s.WarmStarts w v t f) : w.clock = s.clock := h.treated.same.clock

theorem settings (h : s.WarmStarts w v t f) : v.settings = s.settings :=
  h.turned.same.settings.trans h.treated_settings

theorem clock (h : s.WarmStarts w v t f) : v.clock = s.clock :=
  h.turned.same.clock.trans h.treated_clock

/-- The line's record before it is taken up, as far as the table of R154 leaves it alone. -/
theorem turned_state (h : s.WarmStarts w v t f) (n : LineId) :
    (v.line n).state = (w.line n).state ∧ (v.line n).plan = (w.line n).plan ∧
      ((w.line n).state = .outOfService → v.line n = w.line n) := by
  cases hin : w.inService n with
  | false =>
    obtain ⟨hline, -⟩ := h.turned.stays n (.inl hin)
    rw [hline]
    exact ⟨rfl, rfl, fun _ => rfl⟩
  | true =>
    have hserved := State.inService_iff.mp hin
    cases ho : w.outageTurn f n with
    | none =>
      obtain ⟨hline, -⟩ := h.turned.stays n (.inr ho)
      rw [hline]
      exact ⟨rfl, rfl, fun _ => rfl⟩
    | some o =>
      have hbank := ((w.line n).coherent_iff.mp (h.treatedCoherent n)).bank_of_inService hserved
      obtain ⟨b, hb⟩ := Option.isSome_iff_exists.mp (show (w.line n).bank.isSome = true from hbank)
      obtain ⟨b', c, hline, -⟩ := (h.turned.turns n b o hb ho).line
      rw [hline]
      exact ⟨rfl, rfl, fun hout => absurd hout hserved⟩

theorem bank (h : s.WarmStarts w v t f) (hb : (s.line n).bank = some b) :
    ∃ c, (w.line n).bank = some c ∧ b.Treated c (s.line n).slot f := by
  rw [h.line]
  exact LineLive.resumed_bank (h.coherent n) hb

theorem inService (h : s.WarmStarts w v t f) (hb : (w.line n).bank = some b) :
    w.inService n = true := State.inService_of_bank (h.treatedCoherent n) hb

/-! ### The shift that goes on -/

/-- The shift of a line that the table leaves open. -/
theorem stays (h : s.WarmStarts w v t f) (hb : (s.line n).bank = some b)
    (ho : w.outageTurn f n = none) :
    (t.line n).serial = (s.line n).serial ∧ (t.line n).openStamp = (s.line n).openStamp ∧
    (t.line n).staging = (s.line n).staging ∧
    ∃ b', (t.line n).bank = some b' ∧ b'.openCount = b.openCount ∧
      (b.booking = .x → b.segStart = f →
        timeOf (t.bankView n b' s.clock.count).times .x = b.time .x + (s.clock.count - f) ∧
        ∀ r, (s.line n).slot = some r → b.EndedInOutage r b'.time b'.counts.micro) := by
  obtain ⟨hline, -⟩ := h.turned.stays n (.inr ho)
  have hstarts := h.started.line n
  rw [hline, h.line, h.clock] at hstarts
  obtain ⟨c, hc, htreated⟩ := LineLive.resumed_bank (f := f) (stamp := s.hall) (h.coherent n) hb
  obtain ⟨b', hb', hgoes⟩ := hstarts.bank c hc
  obtain ⟨hserial, hopen, hstaging, -⟩ := hstarts.kept
  obtain ⟨hserial', hopen', hstaging', -⟩ :=
    LineLive.resumed_kept (l := s.line n) (f := f) (stamp := s.hall)
  refine ⟨hserial.trans hserial', hopen.trans hopen', hstaging.trans hstaging', b', hb',
    hgoes.openCount.trans htreated.openCount, fun hx hs => ⟨?_, fun r hr => ?_⟩⟩
  · refine (Bank.timeOf_view b' s.clock.count _ _ .x).trans ?_
    exact (Bank.time_book b' _ .x).symm.trans ((hgoes.read .x).trans (htreated.time_x hx hs _))
  · obtain ⟨hcx, -, -, -⟩ := htreated.booked hx hs
    exact htreated.ended hx hs hr (fun y hy => hgoes.others y (by rw [hcx]; exact hy)) hgoes.micro

theorem charged_stays (h : s.WarmStarts w v t f) (ho : w.outageTurn f n = none) {r : Stoppage}
    (hr : (s.line n).slot = some r) {k : StationId} (hk : k ∈ s.members n)
    (hc : s.ChargedOnlyBy n k) {y : StationTally} (hy : (s.station k).tally = some y) :
    ∃ z, (t.station k).tally = some z ∧ y.Charged z r k (r.contributorsAt f) := by
  obtain ⟨z, hz, hcharged⟩ := h.treated.charged n r k y hr hk hc hy
  have hstation : v.station k = w.station k := (h.turned.stays n (.inr ho)).2 k
    (by rw [State.members_of_settings h.treated_settings]; exact hk)
  obtain ⟨e, he⟩ := h.started.tally k
  rw [hstation, hz] at he
  exact ⟨z.addTime .unmonitored e, he, fun i hi => hcharged.candidate i hi,
    fun i hi => hcharged.record i hi⟩

/-! ### The shift that closed -/

theorem queue (h : s.WarmStarts w v t f) : t.queue = v.queue := by rw [h.started.rest]

section Turned

variable {o : OutageTurn}

theorem turns (h : s.WarmStarts w v t f) (hb : (s.line n).bank = some b)
    (ho : w.outageTurn f n = some o) : ∃ c b', b.Treated c (s.line n).slot f ∧
      w.TurnsOutage v n c o ∧ (t.line n).bank = some b' ∧ b'.openCount = o.openAt := by
  obtain ⟨c, hc, htreated⟩ := h.bank hb
  have hturns := h.turned.turns n c o hc ho
  obtain ⟨a, d, hline, hopen, -⟩ := hturns.line
  obtain ⟨b', hb', hgoes⟩ := (h.started.line n).bank a (by rw [hline])
  exact ⟨c, b', htreated, hturns, hb', hgoes.openCount.trans hopen⟩

/-- The closed bank that a line stages in an outage, and what the next shift begins with. -/
theorem staged (h : s.WarmStarts w v t f) {c : Bank} (hturns : w.TurnsOutage v n c o) :
    ∃ d, (t.line n).staging = some d ∧ w.OutageClosed n c o d ∧
      (t.line n).serial = serialAfter (s.line n).serial o.serials ∧
      (t.line n).openStamp = some (s.hallAt o.openAt) ∧ (t.line n).deferred = false := by
  obtain ⟨a, d, hline, -, hclosed⟩ := hturns.line
  obtain ⟨hserial, hopen, hstaging, hdeferred⟩ := (h.started.line n).kept
  rw [hline] at hserial hopen hstaging hdeferred
  obtain ⟨hserial', -, -, -⟩ := LineLive.resumed_kept (l := s.line n) (f := f) (stamp := s.hall)
  rw [← h.line] at hserial'
  refine ⟨d, hstaging, hclosed, hserial.trans ?_, hopen.trans ?_, hdeferred⟩
  · dsimp only
    rw [hserial']
  · dsimp only
    rw [State.hallAt_of_clock h.treated_clock]

theorem turnedInOutage (h : s.WarmStarts w v t f) (hb : (s.line n).bank = some b)
    (ho : w.outageTurn f n = some o) (hm : o.serials ≠ 0) :
    s.TurnedInOutage t f n b o.reason o.deferred o.closeAt o.openAt o.serials := by
  obtain ⟨c, b', htreated, hturns, hb', hopenCount⟩ := h.turns hb ho
  obtain ⟨d, hstaging, hclosed, hserial, hopen, hdeferred⟩ := h.staged hturns
  obtain ⟨hserial', hopen', -, -⟩ := LineLive.resumed_kept (l := s.line n) (f := f) (stamp := s.hall)
  rw [← h.line] at hserial' hopen'
  refine ⟨⟨d, hstaging, hclosed.line, hclosed.serial.trans hserial', hclosed.reason,
    hclosed.deferred, ?opened, ?closed, ?scheduled, fun hx hs => ?time⟩, ?queued, ?serial, hopen,
    ⟨b', hb', hopenCount⟩, hdeferred⟩
  case opened => rw [hclosed.opened, hopen']
  case closed => rw [hclosed.closed, State.hallAt_of_clock h.treated_clock]
  case scheduled =>
    rw [hclosed.view, ← htreated.openCount]
    rfl
  case time =>
    rw [hclosed.view]
    refine (Bank.timeOf_view c o.closeAt _ _ .x).trans ?_
    exact (Bank.time_book c _ .x).symm.trans (htreated.time_x hx hs _)
  case queued =>
    rw [h.queue]
    exact hturns.queue
  case serial =>
    rw [hserial, serialAfter, if_neg (by omega)]
    rfl

theorem charged_turned (h : s.WarmStarts w v t f) (hb : (s.line n).bank = some b)
    (ho : w.outageTurn f n = some o) {r : Stoppage}
    (hr : (s.line n).slot = some r) {k : StationId} (hk : k ∈ s.members n)
    (hc : s.ChargedOnlyBy n k) {y : StationTally} (hy : (s.station k).tally = some y) :
    ∃ d z, (t.line n).staging = some d ∧ d.tallyOf k = some z ∧
      y.Charged z r k (r.contributorsAt f) := by
  obtain ⟨z, hz, hcharged⟩ := h.treated.charged n r k y hr hk hc hy
  obtain ⟨c, -, -, hturns, -, -⟩ := h.turns hb ho
  obtain ⟨d, hstaging, hclosed, -⟩ := h.staged hturns
  obtain ⟨st, e, htally⟩ := hclosed.tallies k
    (by rw [State.members_of_settings h.treated_settings]; exact hk) z hz
  exact ⟨d, z.addTime st e, hstaging, htally, fun i hi => hcharged.candidate i hi,
    fun i hi => hcharged.record i hi⟩

theorem ended_turned (h : s.WarmStarts w v t f) (hb : (s.line n).bank = some b)
    (ho : w.outageTurn f n = some o) {r : Stoppage} {d : ClosedBank}
    (hr : (s.line n).slot = some r) (hx : b.booking = .x) (hs : b.segStart = f)
    (hd : (t.line n).staging = some d) :
    b.EndedInOutage r (timeOf d.view.times) d.view.counts.micro := by
  obtain ⟨c, -, htreated, hturns, -, -⟩ := h.turns hb ho
  obtain ⟨d', hstaging, hclosed, -⟩ := h.staged hturns
  obtain rfl := Option.some.inj (hstaging.symm.trans hd)
  obtain ⟨hcx, -, -, -⟩ := htreated.booked hx hs
  rw [hclosed.view]
  refine htreated.ended hx hs hr (fun y hy => ?_) (Bank.micro_view c _ _ _)
  refine (Bank.timeOf_view c o.closeAt _ _ y).trans ?_
  rw [if_neg (by rw [hcx]; exact hy), Nat.add_zero]

end Turned

end State.WarmStarts

end Sys2Proof.Machine

/-! WARM-START (R17, R36, R67, R93, R94, R153, R154, R164, R167, R176). -/

namespace Sys2Proof.Machine

section WarmStart

variable {s w v t : State} {f : Nat}

theorem exec_warmStart_waits (h : s.queue ≠ []) : exec .warmStart s = .next s := by
  have hexec : exec .warmStart s = execWarmStart s := rfl
  have hqueue : s.queue.isEmpty = false := List.isEmpty_eq_false_iff.mpr h
  rw [hexec, execWarmStart, hqueue, Bool.and_false, if_neg Bool.false_ne_true]

theorem exec_warmStart_starts (hmain : s.power.main = true) (hreset : s.power.reset = false)
    (hrun : s.power.running = false) (hf : s.power.failure = some f) (hq : s.queue = []) :
    exec .warmStart s = .next (((s.settleOutage f).restart.resume).latch .outage) := by
  have hexec : exec .warmStart s = execWarmStart s := rfl
  have hserves : s.serves = true := by
    unfold State.serves
    rw [hmain, hreset]
    rfl
  rw [hexec, execWarmStart, hserves, hrun, hq, hf]
  rfl

namespace State.WarmStarts

/-- The lines of a part that runs again. -/
theorem lines (h : s.WarmStarts w v t f) (n : LineId) :
    ((s.line n).state = .outOfService → t.line n = s.line n) ∧
    ((s.line n).state = .planned → (t.line n).state = .planned ∧
      ∀ p, (s.line n).plan = some p →
        (t.line n).plan = some { p with since := some s.clock.count }) ∧
    ((s.line n).state ≠ .outOfService → (s.line n).state ≠ .planned →
      (t.constraintState n = .unmonitored → (t.line n).state = .resuming) ∧
      (t.constraintState n = .running →
        (t.line n).state = .running ∧ (t.line n).stamp = s.hall) ∧
      (t.constraintState n ≠ .unmonitored → t.constraintState n ≠ .running →
        (t.line n).state = (if (s.lineDef n).threshold = 0 then .down else .pendingStop) ∧
        ∃ r, (t.line n).slot = some r ∧ r.startCount = s.clock.count)) := by
  obtain ⟨hstate, hplan, hout⟩ := h.turned_state n
  have hstarts := h.started.line n
  have hdef : v.lineDef n = s.lineDef n := by
    unfold State.lineDef
    rw [h.settings]
  rw [hdef, h.clock, State.hall_of_clock h.clock] at hstarts
  refine ⟨fun ho => ?_, fun hp => ?_, fun ho hp => ?_⟩
  · have hw : w.line n = s.line n := by rw [h.line, LineLive.resumed_out ho]
    have hv := hout (by rw [hw]; exact ho)
    rw [hstarts.out (by rw [hv, hw]; exact ho), hv, hw]
  · have hw : w.line n = s.line n := by rw [h.line, LineLive.resumed_planned hp]
    obtain ⟨hplanned, hsince⟩ := hstarts.planned (by rw [hstate, hw]; exact hp)
    exact ⟨hplanned, fun p hplanp => hsince p (by rw [hplan, hw]; exact hplanp)⟩
  · have hwaits : (v.line n).state = .resuming := by
      rw [hstate, h.line, LineLive.resumed_state ho hp]
    exact ⟨hstarts.waits hwaits, hstarts.runs hwaits, hstarts.stops hwaits⟩

theorem journal (h : s.WarmStarts w v t f) : w.JournalLapses t := by
  refine h.turned.journal.trans (.of_eq ?_)
  rw [h.started.rest]

/-- The record that was open at the failure instant is in the journal, closed there. -/
theorem recorded (h : s.WarmStarts w v t f) {n : LineId} {r : Stoppage} {m : Nat}
    (hst : (s.line n).state = .down) (hr : (s.line n).slot = some r) (hk : r.kind = .record m) :
    ∃ j ∈ t.journal, j.line = n ∧ j.serial = r.serial ∧ j.number = m ∧
      j.duration = f - r.startCount ∧ j.contributors = r.contributorsAt f ∧
      j.markers = { r.markers with outage := true } := by
  obtain ⟨j, hj, hrecord⟩ := h.treated.entered n r m hst hr hk
  obtain ⟨j', hj', heq⟩ := h.journal.kept hj
  refine ⟨j', hj', ?_⟩
  rw [heq]
  exact hrecord

theorem unexpired (h : s.WarmStarts w v t f) {j : JournalRecord} (hj : j ∈ t.journal) {e : Nat}
    (he : j.state = .unconfirmed e) : s.clock.count < e :=
  h.treated.unexpired j (h.journal.unconfirmed hj he) e he

theorem span (h : s.WarmStarts w v t f) {n : LineId} {b : Bank} {instants : List Nat}
    {m limit first last : Nat} (hspan : s.OutageSpan f n instants m limit first last)
    (hb : (s.line n).bank = some b) : w.OutageSpan f n instants m limit first last := by
  obtain ⟨c, hc, htreated⟩ := h.bank hb
  obtain ⟨-, -, -, hdeferred⟩ := LineLive.resumed_kept (l := s.line n) (f := f) (stamp := s.hall)
  rw [← h.line] at hdeferred
  obtain ⟨b', hb', hlimit⟩ := hspan.limit
  obtain rfl := Option.some.inj (hb.symm.trans hb')
  refine ⟨hspan.passed.congr h.treated_settings h.treated_clock, ?_, ?_, ?_,
    ⟨c, hc, by rw [htreated.openCount]; exact hlimit⟩, ?_, ?_⟩
  · rw [h.treated_clock]
    exact hspan.failed
  · rw [h.treated_settings]
    exact hspan.sound
  · rw [hdeferred]
    exact hspan.passes
  · rw [hdeferred, State.hallAt_of_clock h.treated_clock]
    exact hspan.first
  · rw [State.hallAt_of_clock h.treated_clock]
    exact hspan.last

/-- The close that the table of R154 calls for on line `n`. -/
theorem outageTurn (h : s.WarmStarts w v t f) {n : LineId} {b : Bank} {instants : List Nat}
    {m limit first last : Nat} (hspan : s.OutageSpan f n instants m limit first last)
    (hb : (s.line n).bank = some b) : w.outageTurn f n =
    if m = 0 then
      if f < limit ∧ limit ≤ s.clock.count then
        some ⟨limit, .length, false, s.clock.count, 1⟩
      else none
    else if f < limit ∧ limit < first then some ⟨limit, .length, false, last, m⟩
    else some ⟨first, .outageBoundary, (s.line n).deferred, last, m⟩ := by
  have hturn := (h.span hspan hb).outageTurn_eq
  obtain ⟨-, -, -, hdeferred⟩ := LineLive.resumed_kept (l := s.line n) (f := f) (stamp := s.hall)
  rw [← h.line] at hdeferred
  rw [hdeferred, h.treated_clock] at hturn
  exact hturn

theorem outageTurn_isSome (h : s.WarmStarts w v t f) {n : LineId} {b : Bank}
    {instants : List Nat} {m limit first last : Nat}
    (hspan : s.OutageSpan f n instants m limit first last) (hb : (s.line n).bank = some b)
    (hcloses : m ≠ 0 ∨ f < limit ∧ limit ≤ s.clock.count) : ∃ o, w.outageTurn f n = some o := by
  rw [h.outageTurn hspan hb]
  by_cases hm : m = 0
  · rw [if_pos hm, if_pos (hcloses.resolve_left (not_not_intro hm))]
    exact ⟨_, rfl⟩
  · rw [if_neg hm]
    split <;> exact ⟨_, rfl⟩

theorem boundary (h : s.WarmStarts w v t f) {instants : List Nat} (hp : s.Passed f instants)
    (hg : s.settings.Sound) : t.clock.lastBoundary =
      if instants = [] then s.clock.lastBoundary else instants.getLast? := by
  have hlast : w.lastPassedHall f = instants.getLast? :=
    (hp.congr h.treated_settings h.treated_clock).lastHall (by rw [h.treated_settings]; exact hg)
  rw [h.started.lastBoundary, hlast, h.clock]
  by_cases hnil : instants = []
  · rw [if_pos hnil, hnil, List.getLast?_nil, Option.none_or]
  · rw [if_neg hnil, List.getLast?_eq_some_getLast hnil, Option.some_or]

/-- The shift of a line over the outage, as the table of R154 has it. -/
theorem shift (h : s.WarmStarts w v t f) {n : LineId} {b : Bank} {instants : List Nat}
    {m limit first last : Nat} (hspan : s.OutageSpan f n instants m limit first last)
    (hb : (s.line n).bank = some b) :
    (m = 0 → ¬ (f < limit ∧ limit ≤ s.clock.count) →
      (t.line n).serial = (s.line n).serial ∧
      (t.line n).openStamp = (s.line n).openStamp ∧
      (t.line n).staging = (s.line n).staging ∧
      ∃ b', (t.line n).bank = some b' ∧ b'.openCount = b.openCount ∧
        (b.booking = .x → b.segStart = f →
          timeOf (t.bankView n b' s.clock.count).times .x = b.time .x + (s.clock.count - f) ∧
          ∀ r, (s.line n).slot = some r → b.EndedInOutage r b'.time b'.counts.micro)) ∧
    (∀ r k y, (s.line n).slot = some r → k ∈ s.members n → s.ChargedOnlyBy n k →
      (s.station k).tally = some y →
      (m = 0 → ¬ (f < limit ∧ limit ≤ s.clock.count) →
        ∃ z, (t.station k).tally = some z ∧ y.Charged z r k (r.contributorsAt f)) ∧
      ((m ≠ 0 ∨ f < limit ∧ limit ≤ s.clock.count) →
        ∃ c z, (t.line n).staging = some c ∧ c.tallyOf k = some z ∧
          y.Charged z r k (r.contributorsAt f))) ∧
    (∀ r c, (s.line n).slot = some r → b.booking = .x → b.segStart = f →
      (m ≠ 0 ∨ f < limit ∧ limit ≤ s.clock.count) → (t.line n).staging = some c →
      b.EndedInOutage r (timeOf c.view.times) c.view.counts.micro) ∧
    (m = 0 → f < limit → limit ≤ s.clock.count →
      s.TurnedInOutage t f n b .length false limit s.clock.count 1) ∧
    (m ≠ 0 → ¬ (f < limit ∧ limit < first) →
      s.TurnedInOutage t f n b .outageBoundary (s.line n).deferred first last m) ∧
    (m ≠ 0 → f < limit → limit < first →
      s.TurnedInOutage t f n b .length false limit last m) ∧
    (1 < m → t.latched .boundarySkipped = true) := by
  have hturn := h.outageTurn hspan hb
  have hnone : m = 0 → ¬ (f < limit ∧ limit ≤ s.clock.count) → w.outageTurn f n = none :=
    fun hm hout => by rw [hturn, if_pos hm, if_neg hout]
  have hsome := h.outageTurn_isSome hspan hb
  refine ⟨fun hm hout => h.stays hb (hnone hm hout), fun r k y hr hk hc hy =>
    ⟨fun hm hout => h.charged_stays (hnone hm hout) hr hk hc hy, fun hcloses => ?charged⟩,
    fun r d hr hx hs hcloses hd => ?ended, fun hm hlt hle => ?length, fun hm hout => ?boundary,
    fun hm hlt hfirst => ?early, fun hm => ?skipped⟩
  case charged =>
    obtain ⟨o, ho⟩ := hsome hcloses
    exact h.charged_turned hb ho hr hk hc hy
  case ended =>
    obtain ⟨o, ho⟩ := hsome hcloses
    exact h.ended_turned hb ho hr hx hs hd
  case length =>
    rw [if_pos hm, if_pos ⟨hlt, hle⟩] at hturn
    exact h.turnedInOutage hb hturn Nat.one_ne_zero
  case boundary =>
    rw [if_neg hm, if_neg hout] at hturn
    exact h.turnedInOutage hb hturn hm
  case early =>
    rw [if_neg hm, if_pos ⟨hlt, hfirst⟩] at hturn
    exact h.turnedInOutage hb hturn hm
  case skipped =>
    obtain ⟨c, hc, -⟩ := h.bank hb
    refine h.started.alerts _ (h.turned.skipped n c hc ?_)
    rw [(h.span hspan hb).passedFor_eq]
    exact hm

end State.WarmStarts

end WarmStart

/-- Settles O59: the lines are treated at the failure instant, the closes of the outage are made as the
table has it, and the part runs again with its lines taken up. -/
theorem warmStartsResumeTheLines : Obligations.WarmStartsResumeTheLines := by
  unfold Obligations.WarmStartsResumeTheLines
  refine fun s f hmain hreset hrun hf hcoherent => ⟨exec_warmStart_waits, fun hq =>
    ⟨_, exec_warmStart_starts hmain hreset hrun hf hq, ?_⟩⟩
  have h := State.warmStarts hcoherent f
  generalize s.treated f = w at h
  generalize s.turned f = v at h
  generalize ((s.settleOutage f).restart.resume).latch .outage = t at h ⊢
  have hrest := h.started.rest
  have hsame := h.treated.same.trans h.turned.same
  have hlink : v.link = s.link := h.turned.link.trans h.treated.link
  have hpower : t.power = { v.power with running := true, failure := none, powerLost := false } := by
    rw [hrest]
  have htlink : t.link = { v.link.idle with address := addressOf v.pins.straps } := by rw [hrest]
  have hclock : t.clock = { s.clock with
      lastBoundary := t.clock.lastBoundary
      nextBoundary := t.clock.nextBoundary
      windowEnd := t.clock.windowEnd } := by
    rw [← h.clock]
    conv_lhs => rw [hrest]
  refine ⟨by rw [hpower, hsame.power], h.started.outage, ?guard, ?link, fun p => ?point,
    fun i => ?input, h.started.station, h.lines, fun n r m hst hr hk => h.recorded hst hr hk,
    fun r hr e he => h.unexpired hr he,
    fun n b instants m limit first last hle hg hb hrising hmem hm hlimit hfirst hlast => ?shift,
    ?next, ?settings, ?installed, ?awaits, ?archive, ?image, ?pins, by rw [hclock], by rw [hclock]⟩
  case guard =>
    have hguard : t.guardMode = v.guardAfter := by rw [hrest]
    rw [hguard, State.guardAfter, hsame.power, hsame.settings, hsame.guardMode]
    cases s.settings.storedGuard <;> rfl
  case link =>
    rw [htlink, hlink, hsame.pins]
    rfl
  case point =>
    rw [h.started.point]
    exact ⟨rfl, rfl, rfl, rfl⟩
  case input =>
    have hinput : v.input i = s.input i := by
      unfold State.input
      rw [hsame.inputs]
    rw [h.started.input, hinput]
    exact ⟨rfl, rfl, rfl⟩
  case shift =>
    have hpassed : s.Passed f instants := ⟨hrising, hmem⟩
    obtain ⟨hstays, hcharged, hended, hlength, hboundary, hearly, hskipped⟩ :=
      h.shift ⟨hpassed, hle, hg, hm, ⟨b, hb, hlimit⟩, hfirst, hlast⟩ hb
    exact ⟨hstays, hcharged, hended, hlength, hboundary, hearly, hskipped, h.boundary hpassed hg⟩
  case next =>
    rw [h.started.nextBoundary, h.settings, h.clock, State.hall_of_clock h.clock]
  case settings => rw [← h.settings]; conv_lhs => rw [hrest]
  case installed => rw [← h.settings]; conv_lhs => rw [hrest]
  case awaits => rw [hrest]
  case archive => rw [← hsame.archive]; conv_lhs => rw [hrest]
  case image => rw [← hsame.image]; conv_lhs => rw [hrest]
  case pins => rw [← hsame.pins]; conv_lhs => rw [hrest]

end Sys2Proof.Machine
